-- ==== Sys2Proof/Word.lean ====
section
/-!
DEFINITION. The word types the manual computes with (chapter 00, "Notation and units"), and nothing else.
-/

namespace Sys2Proof

/-- One byte of a scratchpad, of HBM or of host memory. -/
abbrev Byte := BitVec 8

/-- A 32-bit word: a general register, a vector lane, a CSR (R40, R67). -/
abbrev Word := BitVec 32

/-- A 64-bit panel register (R5-R8). -/
abbrev Reg64 := BitVec 64

/-- A table sparse in its keys: the entries that differ from the table's default, in rising key order. -/
abbrev Tbl (α : Type) := List (Nat × α)

end Sys2Proof
end

