-- ==== Sys2Proof/Syntax.lean ====
section
/-!
DEFINITION. The commands and events the panel takes: one constructor of `Instr` per row of the table of operations and
events, and the types of their operands. Where a row is something the hardware or its surroundings do at a moment of
their own (a reading, a lost phase, a failed check), the operands say what was found.
-/

namespace Sys2Proof

/-- R27: a core by its logical coordinates. -/
structure CoreRef where
  x : BitVec 9
  y : BitVec 9
deriving DecidableEq, Repr

/-- R11, R22: a compute site by its physical row and column. -/
structure Site where
  row : BitVec 4
  col : BitVec 4
deriving DecidableEq, Repr

/-- R22, R23: any die, as strap bits 15:5 name it (an HBM stack: kind 0b111, row the MSD, column the position). -/
structure UnitRef where
  kind : BitVec 3
  row : BitVec 4
  col : BitVec 4
deriving DecidableEq, Repr

/-- R45 format A: op | rd | rs1 | rs2 | func. -/
structure FmtA where
  rd : BitVec 5
  rs1 : BitVec 5
  rs2 : BitVec 5
  func : BitVec 11
deriving DecidableEq, Repr

/-- R45 format I: op | rd | rs1 | imm16. -/
structure FmtI where
  rd : BitVec 5
  rs1 : BitVec 5
  imm : BitVec 16
deriving DecidableEq, Repr

/-- R45 format B: op | rs or rd | off21. -/
structure FmtB where
  r : BitVec 5
  off : BitVec 21
deriving DecidableEq, Repr

/-- R45 format T: da = 25:23, db = 22:20, acc = 19:18, mode = 17:16, gs = 15:11, ctr = 10:5, ce = 4, zero = 3:0. -/
structure FmtT where
  da : BitVec 3
  db : BitVec 3
  acc : BitVec 2
  mode : BitVec 2
  gs : BitVec 5
  ctr : BitVec 6
  ce : BitVec 1
  zero : BitVec 4
deriving DecidableEq, Repr

/-- R45 format N: d = 25:23, ctr = 22:17, ce = 16, gs = 15:11, route = 10:9, zero = 8:0. -/
structure FmtN where
  d : BitVec 3
  ctr : BitVec 6
  ce : BitVec 1
  gs : BitVec 5
  route : BitVec 2
  zero : BitVec 9
deriving DecidableEq, Repr

/-- R45 format S: op | rs | zero | imm16. -/
structure FmtS where
  rs : BitVec 5
  zero : BitVec 5
  imm : BitVec 16
deriving DecidableEq, Repr

/-- R121, R453: a check of the tensor engine that failed: 0 group sum, 1 rounding, 2 transfer, 3 duplicated result,
4 stored residue; the K-group or line; the tile. -/
structure ResidueFail where
  check : BitVec 3
  line : BitVec 16
  second : Bool
deriving DecidableEq, Repr

/-- R172: the header of a control packet; TYPE and CHAN are those of its command, LEN that of its payload. -/
structure CtlHdr where
  bcast : BitVec 2 := 0
  destRow : BitVec 7 := 0
  destCol : BitVec 7 := 0
  endpoint : BitVec 5 := 0
  srcRow : BitVec 7 := 0
  srcCol : BitVec 7 := 0
  srcEndpoint : BitVec 5 := 0x1F
  tag : BitVec 8 := 0
  part : BitVec 4 := 0
  sys : Bool := false
deriving DecidableEq, Repr

/-- R158, R173: an acknowledgement on the control reply channel; `panel` is the source's panel when it crosses links
(R251). -/
structure AckMsg where
  x : BitVec 9
  y : BitVec 9
  slot : BitVec 4
  bytes : BitVec 24
  status : BitVec 8
  job : BitVec 8
  panel : Option (BitVec 16) := none
  part : BitVec 4 := 0
deriving DecidableEq, Repr

/-- R176: the control packet that a router drops: a request on its way to its endpoint, a reply, or an ACK. -/
inductive CtlLost where
  | request (h : CtlHdr)
  | reply (h : CtlHdr)
  | ack (a : AckMsg)
deriving DecidableEq, Repr

/-- What a router finds on the flit it would forward (R170, R176). -/
inductive FlitEvent where
  /-- The header checks pass. -/
  | good
  /-- R170: HCRC or the opcode fails; whether the parity of lanes 0 and 3 holds. -/
  | headerBad (lane0 lane3 : Bool)
  /-- R176: a single-bit error of a control flit, corrected. -/
  | controlCorrected
  /-- R176: an uncorrectable control flit: its packet is dropped. -/
  | controlDropped (lost : CtlLost)
deriving DecidableEq, Repr

/-- R130-R132: what becomes of an ingress row write at its bank in the cycle it arrives: granted; not granted, and pending;
or deferred, because a read of the same row was granted. -/
inductive BankGrant where
  | won
  | lost
  | sameRow
deriving DecidableEq, Repr

/-- R257: the wire formats of a compressed stream. -/
inductive LinkWire where
  | fp8b | fp4s
deriving DecidableEq, Repr

/-- R257: how a stream is compressed: its wire format, and elements of binary32 or of BF16. -/
structure LinkCode where
  wire : LinkWire
  wide : Bool
deriving DecidableEq, Repr

/-- R154: a data packet: the header fields, the payload bytes (LEN of them) and the link tag of R252. -/
structure Packet where
  opcode : BitVec 4 := 0
  vc : BitVec 2 := 0
  last : Bool := false
  decl : Bool := false
  ctr : BitVec 6 := 0
  ctrEn : Bool := false
  offPanel : Bool := false
  len : BitVec 12 := 0
  part : BitVec 4 := 0
  dest : BitVec 48 := 0
  dpanel : BitVec 16 := 0
  srcX : BitVec 9 := 0
  srcY : BitVec 9 := 0
  ackSlot : BitVec 4 := 0
  notify : Bool := false
  route : BitVec 2 := 0
  job : BitVec 8 := 0
  spanel : BitVec 16 := 0
  flow : BitVec 16 := 0
  flowTotal : BitVec 24 := 0
  status : BitVec 8 := 0
  rlocal : BitVec 19 := 0
  span : BitVec 9 := 0
  dir : BitVec 1 := 0
  part2 : BitVec 4 := 0
  linkTag : BitVec 64 := 0
  hcrc : BitVec 32 := 0
  /-- The header lanes whose parity fails as the packet is received (R170). -/
  laneBad : BitVec 8 := 0
  payload : List Byte := []
  /-- The link flume that the packet's SEND travels on: its entry of the link table (R255). -/
  link : Option (BitVec 6) := none
  /-- How the payload is encoded while the packet is on a link (R257). -/
  cmp : Option LinkCode := none
  /-- The flags that the encoding and the decoding raised (R258). -/
  flags : BitVec 6 := 0
  /-- The partition of this panel that sends it, or whose answer it is. -/
  home : BitVec 4 := 0
  /-- The port by which the packet came in, and its link tag there (R252, R253). -/
  via : Option (BitVec 6 × BitVec 64) := none
deriving DecidableEq, Repr

/-- R388, R389: a report of a fault or of a program's error, as it travels to the fault collector. -/
structure Report where
  source : BitVec 16
  site : BitVec 16 := 0
  unit : BitVec 16 := 0
  part : BitVec 8 := 0xFF
  job : BitVec 8 := 0
  x : BitVec 16 := 0xFFFF
  y : BitVec 16 := 0xFFFF
  part2 : BitVec 8 := 0xFF
  localCount : BitVec 64 := 0
  injected : Bool := false
  status : BitVec 16 := 0
  code : BitVec 16 := 0
  /-- R76 step 5: `CORE_TRAPPC` and `CORE_TRAPVAL` of a trap record (the cause is `code`). -/
  trapPc : Word := 0
  trapVal : Word := 0
  detail : List Byte := []
deriving DecidableEq, Repr, Inhabited

/-- R251: the kinds of link channels. -/
inductive LinkChan where
  | request | answer | flume
deriving DecidableEq, Repr

/-- R256: 16 words of a collector's stream between two panels, or 32 that travel compressed, with the flags raised. -/
structure StreamFlit where
  flume : BitVec 12
  tag : BitVec 64
  code : Option LinkCode := none
  data : List Byte
  flags : BitVec 6 := 0
deriving DecidableEq, Repr

/-- R251, R255: what a flit slot carries: flit `idx` of a packet, an ACK, or collector words. -/
inductive LinkBody where
  | flit (p : Packet) (idx : Nat)
  | ack (a : AckMsg)
  | stream (x : StreamFlit)
deriving DecidableEq, Repr

/-- R246: a flit slot with its descriptor: link channel and class. -/
structure LinkSlot where
  chan : LinkChan
  cls : BitVec 2
  body : LinkBody
deriving DecidableEq, Repr

/-- R246: a link frame as the receiving port finds it. The message of its control slot is a command of its own. -/
structure Frame where
  seq : Word
  ackSeq : Word
  nak : Bool
  fecOk : Bool
  tagOk : Bool
  corrected : BitVec 16
  credits : List (LinkChan × BitVec 2 × Nat) := []
  slots : List LinkSlot
deriving DecidableEq, Repr

/-- R260-R263, R266: a message of the sync ring or of a control slot. -/
structure RingMsg where
  origin : BitVec 16
  seq : Word
  group : BitVec 16
  epoch : BitVec 16
  barrier : BitVec 6
  gen : BitVec 8
  sum : Reg64
  reason : BitVec 16
  panels : BitVec 7
  circuit : BitVec 23
deriving DecidableEq, Repr

/-- Who sent a command: a host die's queues (R279) or the management port (R303). -/
inductive Origin where
  | host (second : Bool)
  | mgmt
deriving DecidableEq, Repr

/-- R280: the fields that every command carries; `payload` is the input data that a management-port message carries in
place of host memory (R303). -/
structure Cmd where
  origin : Origin
  queue : BitVec 4 := 0
  ordered : Bool := false
  intr : Bool := false
  tag : Word := 0
  part : BitVec 8 := 0xFF
  session : Word := 0
  payload : List Byte := []
  /-- The head of its queue after its fetch, which its reply gives (R281). -/
  sqHead : BitVec 15 := 0
  /-- Its reply is discarded: its queue pair is deleted, or its host die is cut off (R274, R278). -/
  silent : Bool := false
  /-- The first of its bytes that is reserved and not zero (R280). -/
  bad : Option (BitVec 6) := none
deriving DecidableEq, Repr

/-- Where a register write without behaviour of its own goes: the host aperture (R275) or the register space (R33). -/
inductive RegTarget where
  | aperture (host : Bool) (offset : BitVec 16)
  | panel (addr : BitVec 48) (session : Word) (origin : Origin)
deriving DecidableEq, Repr

/-- R303: a message on the management port. -/
inductive Mctp where
  | control (eid : BitVec 8)
  | pldmBase
  | pldmMonitor
  | pldmFru
  | pldmUpdate (image : List Byte)
  | vendor (command payload : List Byte)
deriving DecidableEq, Repr

/-- R313: the moments of a region regulator's answer to a notice. -/
inductive NoticePhase where
  | rise | afterRise | afterFall
deriving DecidableEq, Repr

/-- R309, R324: the rail of a compute stack that fails. -/
inductive StackRail where
  | transit | memory | link
deriving DecidableEq, Repr

/-- R352, R355: what brings the fast stop. -/
inductive TripCause where
  | flowComparator
  | sensor (u : UnitRef) (spot : BitVec 5) (which : BitVec 2) (temp partnerA partnerB : Int)
deriving DecidableEq, Repr

/-- What a bring-up or reset finds (R364-R371): the results of its checks and trainings. -/
structure BringUp where
  fusesOk : Bool := true
  /-- The headworks die's strap word, where it is not the right one. -/
  hwdStrap : Option (BitVec 16) := none
  /-- Strap words sampled that are not the right ones, by unit. -/
  straps : List (UnitRef × BitVec 16) := []
  imageOk : Bool := true
  slotAOk : Bool := true
  slotBOk : Bool := true
  factoryOk : Bool := true
  coolantReady : Bool := true
  silentSites : List Site := []
  failedWeirs : List Site := []
  /-- R219: culvert channels that cannot lock: site, group, channel. -/
  deadChannels : List (Site × BitVec 3 × BitVec 3) := []
  failedStacks : List (BitVec 5) := []
  stackRates : List (BitVec 5 × BitVec 3) := []
  testFailCores : List CoreRef := []
  testFailCollectors : List CoreRef := []
  testFailEngines : List (BitVec 3 × BitVec 6) := []
  retrainEdges : List (Site × BitVec 2 × BitVec 9 × Bool) := []
  portsUp : List (BitVec 6 × BitVec 16 × BitVec 6) := []
  duration : BitVec 16 := 0
deriving DecidableEq, Repr, Inhabited

/-- R398-R401: a unit that a retirement takes. -/
inductive RetUnit where
  | core (d : Site) (index : BitVec 10)
  | region (d : Site) (region : BitVec 6)
  | die (d : Site)
deriving DecidableEq, Repr

/-- R406, R407: an occurrence of a recorder trigger. -/
structure RecTrig where
  kind : BitVec 8
  filter : BitVec 16 := 0
  site : BitVec 16 := 0
  unit : BitVec 16 := 0
  part : BitVec 8 := 0xFF
  job : BitVec 8 := 0
  related : Word := 0
  data : List Byte := []
  withinMs : Bool := false
deriving DecidableEq, Repr

/-- The commands and events of the table, one constructor per row, in the table's order. -/
inductive Instr where
  /-- ADDI (R48). -/
  | addi (c : CoreRef) (f : FmtI)
  /-- ANDI (R48). -/
  | andi (c : CoreRef) (f : FmtI)
  /-- ORI (R48). -/
  | ori (c : CoreRef) (f : FmtI)
  /-- XORI (R48). -/
  | xori (c : CoreRef) (f : FmtI)
  /-- SLTI (R48). -/
  | slti (c : CoreRef) (f : FmtI)
  /-- SLTIU (R48). -/
  | sltiu (c : CoreRef) (f : FmtI)
  /-- SHI (R48). -/
  | shi (c : CoreRef) (f : FmtI)
  /-- LUI (R48). -/
  | lui (c : CoreRef) (f : FmtI)
  /-- OPA (R48). -/
  | opa (c : CoreRef) (f : FmtA)
  /-- BEQZ (R49). -/
  | beqz (c : CoreRef) (f : FmtB)
  /-- BNEZ (R49). -/
  | bnez (c : CoreRef) (f : FmtB)
  /-- BLTZ (R49). -/
  | bltz (c : CoreRef) (f : FmtB)
  /-- BGEZ (R49). -/
  | bgez (c : CoreRef) (f : FmtB)
  /-- BLEZ (R49). -/
  | blez (c : CoreRef) (f : FmtB)
  /-- BGTZ (R49). -/
  | bgtz (c : CoreRef) (f : FmtB)
  /-- JAL (R49). -/
  | jal (c : CoreRef) (f : FmtB)
  /-- JALR (R49). -/
  | jalr (c : CoreRef) (f : FmtI)
  /-- LW (R50). -/
  | lw (c : CoreRef) (f : FmtI)
  /-- LH (R50). -/
  | lh (c : CoreRef) (f : FmtI)
  /-- LHU (R50). -/
  | lhu (c : CoreRef) (f : FmtI)
  /-- LB (R50). -/
  | lb (c : CoreRef) (f : FmtI)
  /-- LBU (R50). -/
  | lbu (c : CoreRef) (f : FmtI)
  /-- SW (R50). -/
  | sw (c : CoreRef) (f : FmtI)
  /-- SH (R50). -/
  | sh (c : CoreRef) (f : FmtI)
  /-- SB (R50). -/
  | sb (c : CoreRef) (f : FmtI)
  /-- DLD (R51). -/
  | dld (c : CoreRef) (f : FmtI)
  /-- DST (R51). -/
  | dst (c : CoreRef) (f : FmtI)
  /-- DMOV (R51). -/
  | dmov (c : CoreRef) (f : FmtA)
  /-- VOP (R52). -/
  | vop (c : CoreRef) (f : FmtA)
  /-- VLD (R52). -/
  | vld (c : CoreRef) (f : FmtI)
  /-- VST (R52). -/
  | vst (c : CoreRef) (f : FmtI)
  /-- TLOAD (R53). -/
  | tload (c : CoreRef) (f : FmtT)
  /-- TMMA (R96). -/
  | tmma (c : CoreRef) (f : FmtT)
  /-- TSTORE (R98). -/
  | tstore (c : CoreRef) (f : FmtT)
  /-- TCVT (R100). -/
  | tcvt (c : CoreRef) (f : FmtT)
  /-- SEND (R56). -/
  | send (c : CoreRef) (f : FmtN)
  /-- SENDM (R56). -/
  | sendm (c : CoreRef) (f : FmtN)
  /-- READ (R56). -/
  | read (c : CoreRef) (f : FmtN)
  /-- AADD (R56). -/
  | aadd (c : CoreRef) (f : FmtN)
  /-- CPQ (R227). -/
  | cpq (c : CoreRef) (f : FmtN)
  /-- CCOPY (R56). -/
  | ccopy (c : CoreRef) (f : FmtN)
  /-- CARM (R59). -/
  | carm (c : CoreRef) (f : FmtN)
  /-- WAITC (R59). -/
  | waitc (c : CoreRef) (f : FmtN)
  /-- WAITC_COMPLETE (R59). -/
  | waitcComplete (c : CoreRef)
  /-- FLAG (R61). -/
  | flag (c : CoreRef) (f : FmtS)
  /-- WAITF (R61). -/
  | waitf (c : CoreRef) (f : FmtS)
  /-- BARRIER (R61). -/
  | barrier (c : CoreRef) (f : FmtS)
  /-- NOTICE (R64). -/
  | notice (c : CoreRef) (f : FmtI)
  /-- CSRR (R65). -/
  | csrr (c : CoreRef) (f : FmtI)
  /-- CSRW (R65). -/
  | csrw (c : CoreRef) (f : FmtI)
  /-- CSRS (R65). -/
  | csrs (c : CoreRef) (f : FmtI)
  /-- CSRC (R65). -/
  | csrc (c : CoreRef) (f : FmtI)
  /-- TRAP (R74). -/
  | trap (c : CoreRef) (f : FmtS)
  /-- HALT (R73). -/
  | halt (c : CoreRef) (f : FmtS)
  /-- HALT_COMPLETE (R73). -/
  | haltComplete (c : CoreRef)
  /-- RTE (R74). -/
  | rte (c : CoreRef) (f : FmtS)
  /-- IBUF_FILL (R81). -/
  | ibufFill (c : CoreRef)
  /-- STORE_DRAIN (R128). -/
  | storeDrain (c : CoreRef) (sameRowRead : Bool)
  /-- CORE_HW_FAULT (R78). -/
  | coreHwFault (c : CoreRef) (source : BitVec 16) (detail : List Byte)
  /-- DEBUG_STOP_TAKEN (R428). -/
  | debugStopTaken (c : CoreRef) (word : Word)
  /-- TENSOR_START (R117). -/
  | tensorStart (c : CoreRef)
  /-- TENSOR_COMPLETE (R115). -/
  | tensorComplete (c : CoreRef) (entry : BitVec 3) (fail : Option ResidueFail)
  /-- COPY_ENGINE_MOVE (R129). -/
  | copyEngineMove (c : CoreRef)
  /-- NI_INJECT (R156). -/
  | niInject (c : CoreRef)
  /-- INGRESS_DUE (R131). -/
  | ingressDue (c : CoreRef) (bank : BitVec 4)
  /-- DEFERRED_WRITE (R132). -/
  | deferredWrite (c : CoreRef) (bank : BitVec 4)
  /-- CORRECTION_WRITEBACK (R137). -/
  | correctionWriteback (c : CoreRef) (bank : BitVec 4)
  /-- SCRUB_READ (R139). -/
  | scrubRead (c : CoreRef) (bank : BitVec 4)
  /-- SCRUB_FORCE (R139). -/
  | scrubForce (c : CoreRef) (bank : BitVec 4)
  /-- BANK_ZEROISE_DONE (R141). -/
  | bankZeroiseDone (c : CoreRef) (bank : BitVec 4)
  /-- ROUTER_FLIT_FORWARD (R152). -/
  | routerFlitForward (c : CoreRef) (out : BitVec 3) (ev : FlitEvent)
  /-- VC_ESCAPE (R151). -/
  | vcEscape (c : CoreRef) (inp : BitVec 3) (vc : BitVec 2)
  /-- VC1_AGED (R152). -/
  | vc1Aged (c : CoreRef) (inp : BitVec 3)
  /-- EDGE_CRC_FAIL (R169). -/
  | edgeCrcFail (d : Site) (edge : BitVec 2) (attempts : BitVec 3)
  /-- WRITE (R158). -/
  | write (p : Packet) (grants : List BankGrant) (badFlit : Option (BitVec 6))
  /-- WRITE_NOTIFY (R158). -/
  | writeNotify (p : Packet) (grants : List BankGrant) (badFlit : Option (BitVec 6))
  /-- READ_REQ (R159). -/
  | readReq (p : Packet) (badFlit : Bool)
  /-- READ_REQ_SERVE (R159). -/
  | readReqServe (c : CoreRef)
  /-- READ_RESP (R158). -/
  | readResp (p : Packet) (grants : List BankGrant) (badFlit : Option (BitVec 6))
  /-- ATOMIC_ADD (R160). -/
  | atomicAdd (p : Packet) (grants : List BankGrant) (badFlit : Option (BitVec 6))
  /-- ROWCAST (R195). -/
  | rowcast (c : CoreRef) (p : Packet) (grants : List BankGrant) (badFlit : Option (BitVec 6))
  /-- COLCAST (R195). -/
  | colcast (c : CoreRef) (p : Packet) (grants : List BankGrant) (badFlit : Option (BitVec 6))
  /-- TURNOUT_COPY (R194). -/
  | turnoutCopy (c : CoreRef) (inp : BitVec 3)
  /-- REDUCE_CONTRIB (R197). -/
  | reduceContrib (c : CoreRef) (ep : BitVec 3)
  /-- COMPLETION (R161). -/
  | completion (p : Packet) (badFlit : Bool)
  /-- STATUS_ANSWER (R168). -/
  | statusAnswer (c : CoreRef) (status job : BitVec 8)
  /-- SPWRITE (R173). -/
  | spwrite (h : CtlHdr) (offset : BitVec 19) (data : List Byte) (grants : List BankGrant)
  /-- REGWRITE (R173). -/
  | regwrite (h : CtlHdr) (offset : BitVec 24) (value : Reg64)
  /-- REGREAD (R173). -/
  | regread (h : CtlHdr) (offset : BitVec 24)
  /-- CORECTL_START (R299). -/
  | corectlStart (h : CtlHdr) (entry : BitVec 19)
  /-- CORECTL_STOP (R299). -/
  | corectlStop (h : CtlHdr)
  /-- CORECTL_RELEASE (R299). -/
  | corectlRelease (h : CtlHdr)
  /-- CORECTL_CLEAR (R299). -/
  | corectlClear (h : CtlHdr) (fpmode : BitVec 2)
  /-- CORECTL_BIND (R299). -/
  | corectlBind (h : CtlHdr) (chan : BitVec 4) (group : BitVec 6)
  /-- CORECTL_DEBUG (R299). -/
  | corectlDebug (h : CtlHdr) (resume : Bool)
  /-- FENCE (R173). -/
  | fence (h : CtlHdr)
  /-- RECORD (R173). -/
  | record (h : CtlHdr) (r : Report)
  /-- REPLY (R174). -/
  | reply (h : CtlHdr) (status : BitVec 8) (data : Option Reg64)
  /-- ACK (R158). -/
  | ack (a : AckMsg)
  /-- CONTROL_TIMEOUT (R174). -/
  | controlTimeout (h : CtlHdr)
  /-- FLUME_FLIT_DELIVER (R190). -/
  | flumeFlitDeliver (c : CoreRef) (ep : BitVec 3) (parityBad : Bool)
  /-- COLLECTOR_COMBINE (R199). -/
  | collectorCombine (c : CoreRef) (ep : BitVec 3) (mismatch : Bool)
  /-- LINK_COLLECTOR_COMBINE (R256). -/
  | linkCollectorCombine (c : CoreRef) (ep : BitVec 3) (mismatch : Bool)
  /-- SYNC_ARRIVAL (R202). -/
  | syncArrival (d : Site) (group : BitVec 6)
  /-- HWD_HUB_ARRIVAL (R202). -/
  | hwdHubArrival (d : Site) (group : BitVec 6) (ticks : BitVec 64)
  /-- SYNC_RELEASE (R61). -/
  | syncRelease (c : CoreRef) (group : BitVec 6)
  /-- SYNC_CULVERT_LOSS (R204). -/
  | syncCulvertLoss (d : Site) (count : BitVec 2)
  /-- DET_HOLD (R343). -/
  | detHold (d : Site)
  /-- FORECAST_EXPIRE (R357). -/
  | forecastExpire (d : Site)
  /-- MSD_PACKET (R222). -/
  | msdPacket (m : BitVec 3) (src : Site) (p : Packet)
  /-- COPY_DESCRIPTOR (R227). -/
  | copyDescriptor (m : BitVec 3) (src : Site) (queue : BitVec 3) (p : Packet)
  /-- COPY_PIECE (R226). -/
  | copyPiece (m : BitVec 3)
  /-- HBM_WRITE_DRAIN (R224). -/
  | hbmWriteDrain (stack : BitVec 5)
  /-- HBM_SCRUB (R237). -/
  | hbmScrub (stack : BitVec 5) (wrong : BitVec 3)
  /-- CULVERT_REPLAY (R221). -/
  | culvertReplay (d : Site) (grp : BitVec 3) (chan : BitVec 3) (attempts : BitVec 3)
  /-- CULVERT_RELOCK (R219). -/
  | culvertRelock (d : Site) (grp : BitVec 3) (chan : BitVec 3)
  /-- CULVERT_RELOCK_DONE (R219). -/
  | culvertRelockDone (d : Site) (grp : BitVec 3) (chan : BitVec 3) (locked : Bool)
  /-- LINK_FRAME (R248). -/
  | linkFrame (port : BitVec 6) (f : Frame)
  /-- LANE_FAIL (R249). -/
  | laneFail (port : BitVec 6) (lane : BitVec 3)
  /-- LANE_RETRAIN_DONE (R249). -/
  | laneRetrainDone (port : BitVec 6) (trained : Bool)
  /-- LINK_KEY_EXCHANGE (R425). -/
  | linkKeyExchange (port : BitVec 6) (peerOk : Bool)
  /-- LINK_REKEY (R247). -/
  | linkRekey (port : BitVec 6)
  /-- ARRIVE (R262). -/
  | arrive (m : RingMsg) (via : Option (BitVec 6)) (ticks : BitVec 64)
  /-- RELEASE (R262). -/
  | release (m : RingMsg) (via : Option (BitVec 6))
  /-- ABORT_TOKEN (R263). -/
  | abortToken (m : RingMsg) (via : Option (BitVec 6))
  /-- DIGEST (R266). -/
  | digest (m : RingMsg)
  /-- HEARTBEAT (R260). -/
  | heartbeat (m : RingMsg)
  /-- RING_RESEND (R260). -/
  | ringResend
  /-- RING_DOWN (R261). -/
  | ringDown
  /-- PANEL_ID_SET (R267). -/
  | panelIdSet (h : Cmd) (id : BitVec 16) (lock : Bool)
  /-- ROUTE_WRITE (R267). -/
  | routeWrite (h : Cmd) (addr : Reg64) (len : Word)
  /-- GROUP_BIND (R267). -/
  | groupBind (h : Cmd) (group epoch root : BitVec 16) (tree : Bool) (addr : Reg64) (len : Word)
  /-- GROUP_UNBIND (R267). -/
  | groupUnbind (h : Cmd)
  /-- RING_JOIN (R267). -/
  | ringJoin (h : Cmd)
  /-- RING_JOIN_TIMEOUT (R267). -/
  | ringJoinTimeout (h : Cmd)
  /-- RING_LEAVE (R267). -/
  | ringLeave (h : Cmd)
  /-- SHADOW_BIND (R265). -/
  | shadowBind (h : Cmd) (role : BitVec 8) (peer : BitVec 16) (peerPart mirrorPort digestGroup : BitVec 8)
  /-- PORT_READ (R267). -/
  | portRead (h : Cmd) (addr : Reg64) (len : Word)
  /-- PAIR_MISCOMPARE (R271). -/
  | pairMiscompare (pair : BitVec 3)
  /-- HOST_LINK_DEGRADE (R274). -/
  | hostLinkDegrade (host : Bool) (both : Bool)
  /-- ADMIN_QUEUE_CREATE (R277). -/
  | adminQueueCreate (host : Bool) (value : Reg64)
  /-- ADMIN_QUEUE_DELETE (R278). -/
  | adminQueueDelete (host : Bool) (value : Reg64)
  /-- SQ_DOORBELL (R279). -/
  | sqDoorbell (host : Bool) (queue : BitVec 4) (value : Reg64)
  /-- RQ_DOORBELL (R279). -/
  | rqDoorbell (host : Bool) (queue : BitVec 4) (value : Reg64)
  /-- COMMAND_FETCH (R279). -/
  | commandFetch (host : Bool) (queue : BitVec 4)
  /-- PANEL_INFO (R288). -/
  | panelInfo (h : Cmd) (addr : Reg64) (len : Word)
  /-- QUEUE_CREATE (R288). -/
  | queueCreate (h : Cmd) (pair sqLog2 rqLog2 : BitVec 8) (sqBase rqBase : Reg64)
  /-- QUEUE_DELETE (R288). -/
  | queueDelete (h : Cmd) (pair : BitVec 8)
  /-- PART_CREATE (R288). -/
  | partCreate (h : Cmd) (row col rows cols : BitVec 8)
  /-- PART_DESTROY (R288). -/
  | partDestroy (h : Cmd)
  /-- PART_RESET (R288). -/
  | partReset (h : Cmd)
  /-- PART_QUERY (R288). -/
  | partQuery (h : Cmd)
  /-- JOB_LOAD (R294). -/
  | jobLoad (h : Cmd) (addr : Reg64) (len : Word) (hold : Bool)
  /-- JOB_START (R296). -/
  | jobStart (h : Cmd) (limit : Word)
  /-- JOB_ABORT (R289). -/
  | jobAbort (h : Cmd) (reason : BitVec 16)
  /-- JOB_WAIT (R289). -/
  | jobWait (h : Cmd)
  /-- CKPT_WAIT (R289). -/
  | ckptWait (h : Cmd)
  /-- CKPT_RELEASE (R300). -/
  | ckptRelease (h : Cmd)
  /-- JOB_END (R297). -/
  | jobEnd (h : Cmd)
  /-- LOG_WAIT (R301). -/
  | logWait (h : Cmd)
  /-- JOB_COMPLETE (R297). -/
  | jobComplete (part : BitVec 4)
  /-- CHECKPOINT_ENTRY (R300). -/
  | checkpointEntry (part : BitVec 4)
  /-- CKPT_LIMIT_EXPIRE (R300). -/
  | ckptLimitExpire (part : BitVec 4)
  /-- FLUME_LIST (R290). -/
  | flumeList (h : Cmd) (addr : Reg64) (len : Word)
  /-- FLUME_STATS (R290). -/
  | flumeStats (h : Cmd) (index : BitVec 16)
  /-- MEM_READ (R290). -/
  | memRead (h : Cmd) (hbm host : Reg64) (len : Word)
  /-- MEM_WRITE (R290). -/
  | memWrite (h : Cmd) (hbm host : Reg64) (len : Word)
  /-- REG_READ (R290). -/
  | regRead (h : Cmd) (panel host : Reg64) (len : Word)
  /-- REG_WRITE (R290). -/
  | regWrite (h : Cmd) (panel value : Reg64)
  /-- REGISTER_WRITE (R5). -/
  | registerWrite (t : RegTarget) (value : Reg64)
  /-- MCTP_MESSAGE (R303). -/
  | mctpMessage (m : Mctp)
  /-- POWER_READ (R326). -/
  | powerRead (h : Cmd) (addr : Reg64) (len : Word)
  /-- POWER_LIMIT (R326). -/
  | powerLimit (h : Cmd) (limit : BitVec 16)
  /-- POWER_MODE (R374). -/
  | powerMode (h : Cmd) (target : BitVec 8)
  /-- THERMAL_READ (R360). -/
  | thermalRead (h : Cmd) (addr : Reg64) (len : Word)
  /-- LIFE_READ (R360). -/
  | lifeRead (h : Cmd) (addr : Reg64) (len : Word)
  /-- RAIL_FAULT (R307). -/
  | railFault (millivolts : BitVec 12)
  /-- RAIL_OUT_OF_TOLERANCE (R307). -/
  | railOutOfTolerance
  /-- RAIL_TOLERANCE_RESTORED (R307). -/
  | railToleranceRestored
  /-- STANDBY_LOW (R307). -/
  | standbyLow
  /-- REGULATOR_NOTICE_STEP (R313). -/
  | regulatorNoticeStep (d : Site) (region : BitVec 6) (phase : NoticePhase)
  /-- UNANNOUNCED_STEP (R314). -/
  | unannouncedStep (d : Site) (region : BitVec 6) (inMs : BitVec 16)
  /-- REGION_WAVE (R315). -/
  | regionWave
  /-- REGION_ADMIT (R316). -/
  | regionAdmit (d : Site) (region : BitVec 6) (avgPower admitted : BitVec 16)
  /-- NEIGHBOUR_WAIT_EXPIRE (R317). -/
  | neighbourWaitExpire (d : Site) (region : BitVec 6)
  /-- ADMISSION_TIMEOUT (R316). -/
  | admissionTimeout (part : BitVec 4)
  /-- BUDGET_CAP_TICK (R321). -/
  | budgetCapTick (avgPower : BitVec 16)
  /-- VOLTAGE_ADAPT_TICK (R320). -/
  | voltageAdaptTick (d : Site) (region : BitVec 6) (fullDuty : Bool) (stretched : BitVec 16) (allGreen : Bool)
  /-- PHASE_LOSS (R322). -/
  | phaseLoss (d : Site) (region : BitVec 6) (phase : BitVec 3) (draw : BitVec 12)
  /-- LOGIC_RAIL_FAIL (R322). -/
  | logicRailFail (d : Site)
  /-- PLL_LOCK_LOSS (R331). -/
  | pllLockLoss (d : Site)
  /-- REFCLK_LOSS (R331). -/
  | refclkLoss
  /-- CROSSING_SLIP (R340). -/
  | crossingSlip (d : Site) (crossing : BitVec 8)
  /-- SENSOR_SAMPLE (R349). -/
  | sensorSample (u : UnitRef) (readings : List (Int × Int × Int))
  /-- THERMAL_CAP_TICK (R351). -/
  | thermalCapTick (d : Site)
  /-- RUN_LIMIT_EXPIRE (R350). -/
  | runLimitExpire (u : UnitRef) (spot : BitVec 5)
  /-- COOLANT_SAMPLE (R352). -/
  | coolantSample (flow : BitVec 16) (tin tout : Int) (flowBefore : BitVec 16) (toutBefore : Int)
  /-- ORDERLY_STOP_STANDBY (R354). -/
  | orderlyStopStandby
  /-- FAST_STOP (R355). -/
  | fastStop (cause : TripCause)
  /-- THERMAL_CYCLE_SAMPLE (R359). -/
  | thermalCycleSample (u : UnitRef) (temp : Int)
  /-- THERMAL_COUNT_FLUSH (R359). -/
  | thermalCountFlush
  /-- POWER_ON (R364). -/
  | powerOn (b : BringUp)
  /-- PANEL_RST_N (R442). -/
  | panelRstN
  /-- PANEL_RST_N_RELEASE (R442). -/
  | panelRstNRelease (b : BringUp)
  /-- PANEL_RESET_WARM (R370). -/
  | panelResetWarm (h : Cmd) (b : BringUp)
  /-- PANEL_RESET_COLD (R368). -/
  | panelResetCold (h : Cmd) (b : BringUp)
  /-- DIE_RESET_DIE (R369). -/
  | dieResetDie (h : Cmd) (d : Site) (digestsMatch : BitVec 4)
  /-- DIE_RESET_CORE (R369). -/
  | dieResetCore (h : Cmd) (d : Site) (index : BitVec 16)
  /-- EDGE_RETRAIN_DUE (R372). -/
  | edgeRetrainDue (d : Site) (edge : BitVec 2)
  /-- EDGE_RETRAIN (R372). -/
  | edgeRetrain (d : Site) (edge : BitVec 2) (badWires : BitVec 9) (carries : Bool)
  /-- FW_UPDATE (R380). -/
  | fwUpdate (h : Cmd) (addr : Reg64) (len : Word)
  /-- CFG_WRITE (R380). -/
  | cfgWrite (h : Cmd) (addr : Reg64) (len : Word)
  /-- CFG_READ (R382). -/
  | cfgRead (h : Cmd) (addr : Reg64) (len : Word) (defaults : Bool)
  /-- RETIRE (R382). -/
  | retire (h : Cmd) (d : Site) (unit : BitVec 8) (index : BitVec 16)
  /-- REG_READ_PHYS (R382). -/
  | regReadPhys (h : Cmd) (panel host : Reg64) (len : Word)
  /-- RECOVERY_IMAGE (R381). -/
  | recoveryImage (image : List Byte) (b : BringUp)
  /-- FAULT_REPORT (R388). -/
  | faultReport (r : Report)
  /-- SEQ_FLUSH (R388). -/
  | seqFlush
  /-- FAULT_READ (R410). -/
  | faultRead (h : Cmd) (addr : Reg64) (len first : Word) (uncleared : Bool)
  /-- FAULT_CLEAR (R393). -/
  | faultClear (h : Cmd) (seq : Word)
  /-- EVENT_WAIT (R410). -/
  | eventWait (h : Cmd) (mask : Word)
  /-- REC_READ (R410). -/
  | recRead (h : Cmd) (addr : Reg64) (len : Word) (area : BitVec 8)
  /-- REC_CLEAR (R409). -/
  | recClear (h : Cmd)
  /-- INJECT (R394). -/
  | inject (h : Cmd) (target count : BitVec 8) (site unit : BitVec 16) (port : BitVec 8)
  /-- HANG_SAMPLE (R397). -/
  | hangSample
  /-- UNIT_RETIRE (R401). -/
  | unitRetire (u : RetUnit)
  /-- POST_FAULT_TEST (R399). -/
  | postFaultTest (c : CoreRef) (pass : Bool)
  /-- SPARE_ENGAGE (R402). -/
  | spareEngage (row : BitVec 4) (failedWeirs : List Site)
  /-- RECORDER_TRIGGER (R407). -/
  | recorderTrigger (t : RecTrig)
  /-- IDENTITY (R416). -/
  | identity (h : Cmd) (addr : Reg64) (len : Word)
  /-- ATTEST (R421). -/
  | attest (h : Cmd) (addr : Reg64) (len : Word) (part : BitVec 8) (nonce : List Byte)
  /-- SESSION_OPEN (R427). -/
  | sessionOpen (h : Cmd) (addr : Reg64) (rights minutes : BitVec 16)
  /-- SESSION_AUTH (R427). -/
  | sessionAuth (h : Cmd) (addr : Reg64) (len : Word)
  /-- SESSION_AUTH_TIMEOUT (R427). -/
  | sessionAuthTimeout (session : Word)
  /-- SESSION_CLOSE (R427). -/
  | sessionClose (h : Cmd)
  /-- SESSION_EXPIRE (R427). -/
  | sessionExpire (session : Word)
  /-- SEAL_OFFER (R422). -/
  | sealOffer (h : Cmd) (addr : Reg64) (len : Word) (nonce : List Byte)
  /-- SEAL_OFFER_LAPSE (R422). -/
  | sealOfferLapse (part : BitVec 4)
  /-- SEAL_ACCEPT (R423). -/
  | sealAccept (h : Cmd) (addr : Reg64) (len : Word)
  /-- DEBUG_STOP (R428). -/
  | debugStop (h : Cmd) (x y : BitVec 16)
  /-- DEBUG_RESUME (R428). -/
  | debugResume (h : Cmd) (x y : BitVec 16)
  /-- DEBUG_READ (R428). -/
  | debugRead (h : Cmd) (x y : BitVec 16) (offset : BitVec 24) (host : Reg64) (len : Word)
  /-- DEBUG_WRITE (R428). -/
  | debugWrite (h : Cmd) (x y : BitVec 16) (offset : BitVec 24) (host : Reg64) (len : Word)
  /-- ILLEGAL_INSTRUCTION (R47). -/
  | illegalInstruction (c : CoreRef) (word : Word)
  /-- BANK_REQUEST_AGED (R130). -/
  | bankRequestAged (c : CoreRef) (bank : BitVec 4) (port : BitVec 3)
  /-- STRETCHED_CYCLE (R334). -/
  | stretchedCycle (d : Site) (domain : BitVec 7) (margin : BitVec 7)
  /-- REGION_RAMP_DONE (R317). -/
  | regionRampDone (d : Site) (region : BitVec 6)
  /-- RAIL_TRANSFER_COMPLETE (R323). -/
  | railTransferComplete (d : Site) (region : BitVec 6)
  /-- PORT_TRAINING (R245). -/
  | portTraining (port : BitVec 6) (peerPanel : BitVec 16) (peerPort : BitVec 6) (eight : Bool)
  /-- RECORD_WINDOW_EXPIRE (R390). -/
  | recordWindowExpire (seq : Word)
  /-- HBM_TEMPERATURE_READOUT (R348). -/
  | hbmTemperatureReadout (stack : BitVec 5) (temp : Int)
  /-- REDUNDANT_LASER_SWITCH (R219). -/
  | redundantLaserSwitch (feeds : List (Site × BitVec 3 × BitVec 3))
  /-- STACK_RAIL_FAIL (R324). -/
  | stackRailFail (d : Site) (rail : StackRail)
  /-- DIE_WIDE_RAIL_FAIL (R311). -/
  | dieWideRailFail (u : UnitRef)
  /-- HBM_SUPPLY_FAIL (R238). -/
  | hbmSupplyFail (stack : BitVec 5)
deriving DecidableEq, Repr

end Sys2Proof
end

