-- ==== Sys2Proof/Config.lean ====
section
/-!
DEFINITION. What the manual leaves open (free values: opaque constants without a body) and the cryptographic functions
that it names by their standards and does not define. Nothing in the model can evaluate one of them.
-/

namespace Sys2Proof

/-- R255: what a link-table entry is: a link flume from a local core to a core and window of another panel, or the link of a
collector of the flume table to its chain. -/
inductive LinkKind where
  | flume (src : CoreRef) (port : BitVec 6) (share : BitVec 3) (panel : BitVec 16) (dst : CoreRef) (base size : BitVec 13)
      (ctr : BitVec 6)
  | collector (flume : BitVec 12) (up down : Option (BitVec 6))
deriving DecidableEq, Repr, Inhabited

/-- R255, R257: a link-table entry, with CMP. -/
structure LinkSpec where
  kind : LinkKind
  cmp : Option LinkCode
deriving DecidableEq, Repr, Inhabited

end Sys2Proof

namespace Sys2Proof.Config

/-- Cycles of a core's region clock that pass between two table steps: timing the model leaves open (R44). -/
opaque elapsedCycles : Nat → BitVec 64

/-- R194: how many flits the local delivery of a core takes while others still stand there. -/
opaque localSpace : Nat

/-- R125, R126: where in the order of its inputs the result of a transcendental (0 VEXP2 to 5 VSIG; 6 VLOG2 below 1)
reaches a magnitude code, by SUBN. The manual bounds its error and does not fix its last bits. -/
opaque transcend : Nat → Bool → Nat → Nat

/-- R394: which check bits INJECT inverts (TARGET 0): the first of them, and how far behind it the second; the manual
gives only their number. -/
opaque injectedBits : Nat → Nat × Nat

/-- R136, R138: the syndrome of inverted data bits and inverted row-address bits in the (72,64) code, of which the manual
gives the power and not the matrix. -/
opaque secdedSyndrome : BitVec 64 → BitVec 13 → BitVec 8

/-- R101: the order in which the random source delivers (chapter 16, the DRBG): draw `n`, byte by byte. -/
opaque randomByte : Nat → Byte

/-- R357: the forecaster's thermal model, "that Velty fits while the panel runs": predicted peak temperature of a die in
1/16 degrees, from PAVG, PPEAK and DUR. -/
opaque forecastPeak : Nat → Nat → Nat → Nat → Nat

/-- R357: the duty, in eighths, that the model predicts holds the peak 1 K below the throttle point. -/
opaque forecastDuty : Nat → Nat → Nat → Nat → Nat

/-- R358: the predicted panel heat over the phase of draw `n`, W; the manual gives no formula. -/
opaque predictedHeat : Nat → Nat

/-- R262: how many panels a panel group has when its barriers travel over the ring; no command carries it. -/
opaque ringMembers : BitVec 16 → Nat

/-- R392: the die agent's transit-cycle counter sampled by a record (R389 LOCALCOUNT). -/
opaque localCount : Nat → BitVec 64

/-- R234: the 8 check bytes of the Reed-Solomon code of one block: ciphertext, stack offset, tag. The manual names the
code's power and not its generator. -/
opaque hbmCheckBytes : List Byte → Nat → Nat → List Byte

/-- R234: what that code makes of 72 bytes at a stack offset that are no word of it: the tag and the corrected 64 bytes, or
none where they are uncorrectable. -/
opaque hbmCorrect : List Byte → Nat → Option (Nat × List Byte)

/-- R213: the bank and the row of a byte of a stack; the hash of the controller is not given. -/
opaque hbmRow : Nat → Nat × Nat

/-- R238: the spare rows of a bank of a stack. -/
opaque spareRows : Nat → Nat → Nat

/-- R238, R398-R400: how many of `n` past events lie within the window of a rule, at most `n`: a measurement of draw `d` by
headworks time, which no event carries. -/
opaque recent : Nat → Nat → Nat

/-- R423: X25519, then ML-KEM-768 decapsulation, of the offer's private keys with the tenant's public data. -/
opaque sealShared : List Byte → List Byte → List Byte → List Byte

/-- R417, R427: Ed25519 verification (public key, message, signature). -/
opaque ed25519Verify : List Byte → List Byte → List Byte → Bool

/-- R417, R427: ML-DSA-65 verification (public key, message, signature). -/
opaque mldsaVerify : List Byte → List Byte → List Byte → Bool

/-- R421, R422: the panel's Ed25519 signature by its identity key. -/
opaque ed25519Sign : List Byte → List Byte

/-- R421, R422: the panel's ML-DSA-65 signature by its identity key. -/
opaque mldsaSign : List Byte → List Byte

/-- R422: the public keys (X25519, then ML-KEM-768 encapsulation key) of the ephemeral keys of draw `n`. -/
opaque offerPublic : Nat → List Byte

/-- R422: the private keys of the ephemeral keys of draw `n`. -/
opaque offerPrivate : Nat → List Byte

/-- R415: the two DER certificate chains held in the one-time-programmable store. -/
opaque ed25519Chain : List Byte

/-- R415: the ML-DSA-65 chain. -/
opaque mldsaChain : List Byte

/-- R415: the panel's 16-byte serial number. -/
opaque serial : BitVec 128

/-- R421: M_FUSE, the SHA-512 of every fuse word. -/
opaque fuseMeasure : BitVec 512

/-- R366: the HBM hard repairs already made in a stack (`MSD_STACKn.HPPR`, "From stack"). -/
opaque hardRepairs : Nat → BitVec 8

/-- R288: the layout of the PANEL_INFO block beyond its listed contents is not given: its bytes, of the listed contents. -/
opaque panelInfoLayout : List (List Nat) → List Byte

/-- R231, R290: the bytes that a read of a block of a sealed job's HBM returns when no ciphertext of that block is stored
(a compressed or erased unit): draw `n`. -/
opaque unstoredBlock : Nat → List Byte

/-- R290: the layout of FLUME_LIST's POS values beside each table entry is not given. -/
opaque flumeListLayout : List Nat → List Byte

/-- R425: the X25519 and ML-KEM secrets of a link key exchange of draw `n`, its transcript hash, and the peer's serial
number. -/
opaque linkShared : Nat → List Byte
opaque linkTranscript : Nat → List Byte
opaque linkPeer : Nat → BitVec 128

/-- R251: the credits of a link channel of a kind (0 request, 1 answer, 2 flume); the manual gives no number. -/
opaque linkCredits : Nat → Nat

/-- R242: which of a port's 4 edge routers carries the packets of a core; the manual does not divide them. -/
opaque attachLink : Nat → Nat

/-- R432: the rows and columns of a partition of another panel. -/
opaque peerShape : BitVec 16 → BitVec 8 → Nat × Nat

/-- R426: whether the peer of a port holds the same link secret, in the exchange of draw `n`. -/
opaque linkSecretMatches : Nat → Bool

/-- R255, R257: what the 16 bytes of a link-table entry say; their layout is not given. -/
opaque linkEntry : BitVec 128 → LinkSpec

/-- R242: the place along the outer die edge of the first of the 4 routers that port `n` joins; the manual does not
give it. -/
opaque attachPos : Nat → BitVec 5

/-- R327: a measurement of the intermediate rail, mV: the reading of draw `n`. -/
opaque railMillivolts : Nat → BitVec 12

/-- R327: a measurement of the intermediate current, A: the reading of draw `n`. -/
opaque railAmperes : Nat → BitVec 16

/-- R276, R417: the version, the FWSVN and the offset of the signature block that a firmware image's manifest gives; the
manifest's layout is not given. -/
opaque fwManifest : List Byte → Word × BitVec 8 × Nat

/-- R419: whether the fuses accept a pair of firmware signer keys (Ed25519, ML-DSA-65): SHA-512 of each, in 4 slots with
revocation bits. -/
opaque fwKeysOk : List Byte → List Byte → Bool

/-- R420: whether a key-change record carries both signatures of the owner (by the hash in force) over the new keys' hash;
the record's layout is not given. -/
opaque keyChangeOk : List Byte → BitVec 512 → BitVec 512 → Bool

/-- R427: whether both signatures (the second list) over a challenge verify under the owner's keys, of which the panel
holds the hash. -/
opaque ownerVerify : BitVec 512 → List Byte → List Byte → Bool

/-- R338 step 2: the extra cycles of a crossing that is calibrated while the panel runs, of which at most 2 count. -/
opaque calibrationGuard : Nat → BitVec 8

/-- R371: the spare wires in use after a retrain whose findings no event carries. -/
opaque retrainSpares : Nat → BitVec 9

/-- R364, R382: what comes of a bring-up that a command starts, where no event says it; draw `n`. -/
opaque bringUpOf : Nat → BringUp

/-- R369, R371: which edges' digests agree after a DIE_RESET that a queue brings; draw `n`. -/
opaque digestsOf : Nat → BitVec 4

/-- R299: whether the first flit of a CORECTL DEBUG resumes; the manual gives the bit no place. -/
opaque debugResumes : BitVec 64 → Bool

/-- R173: what the flits of a RECORD packet report; their layout is not given. -/
opaque recordOf : List (BitVec 64) → Report

end Sys2Proof.Config
end

