-- ==== Sys2Proof/WellFormed.lean ====
section
/-!
DEFINITION. Which commands and events are well formed: the relations among their operands that the manual states and
that the types of the operands do not say. A meaning is total on the others too.
-/

namespace Sys2Proof

/-- R154: LEN is at most 2,048, and a packet carries LEN bytes of payload; a READ_REQ carries none (R157) and a
COMPLETION 4 or none (R161). -/
def Packet.wf (p : Packet) : Bool :=
  decide (p.len.toNat ≤ 2048) &&
    (if p.opcode = 3 then p.payload.isEmpty
     else if p.opcode = 9 then decide (p.payload.length = 4 ∨ p.payload.length = 0)
     else decide (p.payload.length = p.len.toNat))

/-- R246: a frame has 16 slots; a packet in one is whole, or travels compressed (R258). -/
def Frame.wf (f : Frame) : Bool :=
  decide (f.slots.length ≤ 16) && f.slots.all fun e =>
    match e.body with
    | .flit p _ => p.cmp.isSome || p.wf
    | .ack _ => true
    | .stream _ => true

/-- R11: rows are 0 to 11. -/
def Site.wf (d : Site) : Bool := decide (d.row.toNat < 12)

/-- R280: a command's queue pair is 0 to 15 by its width; a partition number is 0 to 15 or 0xFF for none. -/
def Cmd.wf (h : Cmd) : Bool := decide (h.part.toNat < 16) || h.part == 0xFF

/-- R175: a request that may not be broadcast. -/
def CtlHdr.single (h : CtlHdr) : Bool := h.bcast == 0

/-- Well-formed commands and events. -/
def Instr.wf : Instr → Bool
  | .tensorComplete _ _ (some f) => decide (f.check.toNat ≤ 4)
  | .write p _ _ => p.wf && p.opcode == 1
  | .writeNotify p _ _ => p.wf && p.opcode == 2
  | .readReq p _ => p.wf && p.opcode == 3
  | .readResp p _ _ => p.wf && p.opcode == 4
  | .atomicAdd p _ _ => p.wf && p.opcode == 5
  | .rowcast _ p _ _ => p.wf && p.opcode == 6
  | .colcast _ p _ _ => p.wf && p.opcode == 7
  | .completion p _ => p.wf && p.opcode == 9
  | .spwrite _ _ data _ => decide (data.length ≤ 64)
  | .regread h _ => h.single
  | .fence h => h.single
  | .record h _ => h.single
  | .msdPacket _ d p => p.wf && d.wf
  | .copyDescriptor _ d _ p => p.wf && d.wf
  | .linkFrame _ f => f.wf
  | .edgeCrcFail d _ n => d.wf && decide (1 ≤ n.toNat)
  | .syncCulvertLoss d n => d.wf && (n == 1 || n == 2)
  | .panelInfo h _ _ => h.wf
  | .partCreate h _ _ _ _ => h.wf
  | .jobLoad h _ _ _ => h.wf
  | _ => true

end Sys2Proof
end

