-- ==== Sys2Proof/Decode.lean ====
section
/-!
DEFINITION. The command that a word spells by the table's bits. The table of operations and events gives no row any
bits: the panel's commands and events have operands and no encoding as one word. So no word spells a command. Beside it: the instruction words that a core fetches from its scratchpad (R45, R47) and the
flits of control packets (R172, R173), each of which stands for one of the rows.
-/

namespace Sys2Proof

/-- The command that a word of `nbits` bits spells: none, since no row of the table has bits. -/
def decodeTableWord (_nbits _w : Nat) : Option Instr := none

/-! ### Instruction words of the Seush set (R45, R47) -/

/-- R45 format A. -/
def fmtA (w : Word) : FmtA := ⟨w.extractLsb' 21 5, w.extractLsb' 16 5, w.extractLsb' 11 5, w.extractLsb' 0 11⟩
/-- R45 format I. -/
def fmtI (w : Word) : FmtI := ⟨w.extractLsb' 21 5, w.extractLsb' 16 5, w.extractLsb' 0 16⟩
/-- R45 format B. -/
def fmtB (w : Word) : FmtB := ⟨w.extractLsb' 21 5, w.extractLsb' 0 21⟩
/-- R45 format T. -/
def fmtT (w : Word) : FmtT :=
  ⟨w.extractLsb' 23 3, w.extractLsb' 20 3, w.extractLsb' 18 2, w.extractLsb' 16 2, w.extractLsb' 11 5,
    w.extractLsb' 5 6, w.extractLsb' 4 1, w.extractLsb' 0 4⟩
/-- R45 format N. -/
def fmtN (w : Word) : FmtN :=
  ⟨w.extractLsb' 23 3, w.extractLsb' 17 6, w.extractLsb' 16 1, w.extractLsb' 11 5, w.extractLsb' 9 2, w.extractLsb' 0 9⟩
/-- R45 format S. -/
def fmtS (w : Word) : FmtS := ⟨w.extractLsb' 21 5, w.extractLsb' 16 5, w.extractLsb' 0 16⟩

/-- R47: the command that a core's instruction word stands for, by its major opcode; a reserved opcode is
ILLEGAL_INSTRUCTION. -/
def decodeSeush (c : CoreRef) (w : Word) : Instr :=
  match (w.extractLsb' 26 6).toNat with
  | 0x01 => .opa c (fmtA w)
  | 0x02 => .addi c (fmtI w)
  | 0x03 => .andi c (fmtI w)
  | 0x04 => .ori c (fmtI w)
  | 0x05 => .xori c (fmtI w)
  | 0x06 => .slti c (fmtI w)
  | 0x07 => .sltiu c (fmtI w)
  | 0x08 => .shi c (fmtI w)
  | 0x09 => .lui c (fmtI w)
  | 0x10 => .beqz c (fmtB w)
  | 0x11 => .bnez c (fmtB w)
  | 0x12 => .bltz c (fmtB w)
  | 0x13 => .bgez c (fmtB w)
  | 0x14 => .blez c (fmtB w)
  | 0x15 => .bgtz c (fmtB w)
  | 0x16 => .jal c (fmtB w)
  | 0x17 => .jalr c (fmtI w)
  | 0x18 => .lw c (fmtI w)
  | 0x19 => .lh c (fmtI w)
  | 0x1A => .lhu c (fmtI w)
  | 0x1B => .lb c (fmtI w)
  | 0x1C => .lbu c (fmtI w)
  | 0x1D => .sw c (fmtI w)
  | 0x1E => .sh c (fmtI w)
  | 0x1F => .sb c (fmtI w)
  | 0x20 => .vop c (fmtA w)
  | 0x21 => .vld c (fmtI w)
  | 0x22 => .vst c (fmtI w)
  | 0x24 => .tload c (fmtT w)
  | 0x25 => .tmma c (fmtT w)
  | 0x26 => .tstore c (fmtT w)
  | 0x27 => .tcvt c (fmtT w)
  | 0x28 => .send c (fmtN w)
  | 0x29 => .sendm c (fmtN w)
  | 0x2A => .read c (fmtN w)
  | 0x2B => .aadd c (fmtN w)
  | 0x2C => .cpq c (fmtN w)
  | 0x2D => .ccopy c (fmtN w)
  | 0x2E => .dld c (fmtI w)
  | 0x2F => .dst c (fmtI w)
  | 0x30 => .dmov c (fmtA w)
  | 0x31 => .carm c (fmtN w)
  | 0x32 => .waitc c (fmtN w)
  | 0x33 => .barrier c (fmtS w)
  | 0x34 => .flag c (fmtS w)
  | 0x35 => .waitf c (fmtS w)
  | 0x36 => .notice c (fmtI w)
  | 0x38 => .csrr c (fmtI w)
  | 0x39 => .csrw c (fmtI w)
  | 0x3A => .csrs c (fmtI w)
  | 0x3B => .csrc c (fmtI w)
  | 0x3C => .trap c (fmtS w)
  | 0x3D => .halt c (fmtS w)
  | 0x3E => .rte c (fmtS w)
  | _ => .illegalInstruction c w

/-! ### Control packets (R172, R173) -/

/-- R172: the header of a control packet. -/
def ctlHdrOf (w : BitVec 64) : CtlHdr :=
  { bcast := w.extractLsb' 5 2
    destRow := w.extractLsb' 23 7, destCol := w.extractLsb' 16 7, endpoint := w.extractLsb' 11 5
    srcRow := w.extractLsb' 42 7, srcCol := w.extractLsb' 35 7, srcEndpoint := w.extractLsb' 30 5
    tag := w.extractLsb' 49 8, part := w.extractLsb' 57 4, sys := w.getLsbD 61 }

/-- R172: the header flit of TYPE `type` on channel CHAN with LEN payload flits. -/
def ctlWord (type : BitVec 4) (chan : Bool) (len : BitVec 4) (h : CtlHdr) : BitVec 64 :=
  BitVec.ofNat 64 (type.toNat + 2 ^ 4 * chan.toNat + 2 ^ 5 * h.bcast.toNat + 2 ^ 7 * len.toNat +
    2 ^ 11 * h.endpoint.toNat + 2 ^ 16 * h.destCol.toNat + 2 ^ 23 * h.destRow.toNat +
    2 ^ 30 * h.srcEndpoint.toNat + 2 ^ 35 * h.srcCol.toNat + 2 ^ 42 * h.srcRow.toNat +
    2 ^ 49 * h.tag.toNat + 2 ^ 57 * h.part.toNat + 2 ^ 61 * h.sys.toNat)

/-- The bytes of payload flits, low byte first. -/
def flitBytes (fs : List (BitVec 64)) : List Byte :=
  fs.flatMap fun f => (List.range 8).map fun i => f.extractLsb' (8 * i) 8

/-- R299: a CORECTL by the first flit of its payload; the bit that tells a DEBUG stop from a resume is not given. -/
def corectlOf (h : CtlHdr) (f : BitVec 64) : Option Instr :=
  match (f.extractLsb' 0 8).toNat with
  | 0x01 => some (.corectlStart h (f.extractLsb' 8 19))
  | 0x02 => some (.corectlStop h)
  | 0x03 => some (.corectlRelease h)
  | 0x04 => some (.corectlClear h (f.extractLsb' 8 2))
  | 0x05 => some (.corectlBind h (f.extractLsb' 8 4) (f.extractLsb' 12 6))
  | 0x06 => some (.corectlDebug h (Config.debugResumes f))
  | _ => none

/-- R158, R173: an ACK for the core that DEST names; the header has no field for its JOB. -/
def ackOf (h : CtlHdr) (f : BitVec 64) (job : BitVec 8) : AckMsg :=
  { x := BitVec.ofNat 9 (4 * h.destCol.toNat + h.endpoint.toNat % 4)
    y := BitVec.ofNat 9 (4 * h.destRow.toNat + h.endpoint.toNat / 4)
    slot := h.tag.setWidth 4, bytes := f.extractLsb' 32 24, status := f.extractLsb' 0 8, job, part := h.part }

/-- R172-R175: the command that a control packet's flits name; none for an invalid TYPE, a channel that is not the TYPE's, a
LEN that is not its payload's, a broadcast of a TYPE that may not be broadcast, or a reserved bit that is set. -/
def decodeControl (w : BitVec 64) (fs : List (BitVec 64)) (job : BitVec 8) : Option Instr :=
  let h := ctlHdrOf w
  let type := (w.extractLsb' 0 4).toNat
  let reply := w.getLsbD 4
  if (w.extractLsb' 7 4).toNat ≠ fs.length ∨ w.extractLsb' 62 2 ≠ 0 ∨ reply ≠ decide (8 ≤ type) then none
  else if h.bcast ≠ 0 ∧ type ≠ 1 ∧ type ≠ 2 ∧ type ≠ 4 then none
  else
    match type, fs with
    | 0x1, f :: data =>
      let n := (f.extractLsb' 32 7).toNat
      if n ≤ 8 * data.length ∧ n ≤ 64 then some (.spwrite h (f.extractLsb' 0 19) ((flitBytes data).take n) []) else none
    | 0x2, [f, v] => some (.regwrite h (f.extractLsb' 0 24) v)
    | 0x3, [f] => some (.regread h (f.extractLsb' 0 24))
    | 0x4, [f] => corectlOf h f
    | 0x5, [] => some (.fence h)
    | 0x6, f :: rest => if fs.length ≤ 8 then some (.record h (Config.recordOf (f :: rest))) else none
    | 0x8, [f] => some (.reply h (f.extractLsb' 0 8) none)
    | 0x8, [f, v] => some (.reply h (f.extractLsb' 0 8) (some v))
    | 0x9, [f] => some (.ack (ackOf h f job))
    | _, _ => none

end Sys2Proof
end

