-- ==== Sys2Proof/Machine/State.lean ====
section
/-!
DEFINITION. The panel's state as plain data: every register, queue, buffer and table the manual gives it, the queue of
waiting commands, and the state after the most severe reset. A field's docstring ends with [the rule; its reset value];
"choice n" and "presumed n" name the log entry that chose the value where the manual gives none.
-/

namespace Sys2Proof.Machine

/-- Why a step stops with a fault. -/
inductive Fault where
  /-- Raised by every command that names a core, site, die, stack or port outside the variant's grid (R1, R13, R27):
  the manual gives no such unit. Safe: the model stops where the hardware has nothing to act on. -/
  | noSuchUnit
deriving DecidableEq, Repr

/-- Why a command has no meaning. -/
inductive Refusal where
  /-- Raised by an arm whose command is not modelled. Safe. -/
  | notModelled (mnemonic : String)
deriving DecidableEq, Repr

/-! ### One core -/

/-- R163: the flow a declaration record holds. -/
structure Decl where
  x : BitVec 9
  y : BitVec 9
  panel : BitVec 16
  flow : BitVec 16
deriving DecidableEq, Repr

/-- R59, R71: a completion counter. -/
structure Counter where
  /-- `CORE_CCCn.COUNT`, 24 bits [R71; 0] -/
  count : BitVec 24 := 0
  /-- `CORE_CCTn.TOTAL`, 24 bits [R71; 0] -/
  total : BitVec 24 := 0
  /-- `CORE_CCTn.ARMED`, 1 bit [R71; 0] -/
  armed : Bool := false
  /-- `CORE_CCTn.OVER`, 1 bit [R71, R164; 0] -/
  overrun : Bool := false
  /-- The declaration record: source X, Y, panel and FLOW [R163; empty] -/
  decl : Option Decl := none
  /-- Incomplete TLOADs of mode 0b01 that hold the counter [R114; none, as the queues are empty] -/
  holds : Nat := 0
deriving DecidableEq, Repr

/-- R61, R71: a sync channel. -/
structure SyncChan where
  /-- `CORE_SYNCn.BOUND`, 1 bit [R71; 0] -/
  bound : Bool := false
  /-- `CORE_SYNCn.ARRIVED`, 1 bit [R71; 0] -/
  arrived : Bool := false
  /-- `CORE_SYNCn.RELEASED`, 1 bit [R71; 0] -/
  released : Bool := false
  /-- `CORE_SYNCn.GROUP`, 6 bits [R71; 0] -/
  group : BitVec 6 := 0
  /-- `CORE_SYNCn.GEN`, 8 bits [R71; 0x00] -/
  gen : BitVec 8 := 0
deriving DecidableEq, Repr

/-- R69: `CORE_STATUS.STATE`. -/
inductive CoreMode where
  | halted | run | wait | runtime | trapped | faulted
deriving DecidableEq, Repr

/-- R69: `CORE_STATUS` WAITKIND and WAITON. -/
inductive WaitOn where
  | none | counter (n : BitVec 6) | sync (chan : BitVec 4) | tensorQueue | netQueue | copyQueue
deriving DecidableEq, Repr

/-- R94: the kind of an accumulator tile. -/
inductive TileKind where
  | clear | float | int
deriving DecidableEq, Repr

/-- R85, R121: an accumulator entry and the residue stored beside it. -/
structure AccEntry where
  /-- The 42-bit value [R85, R94; +0] -/
  val : BitVec 42 := 0
  /-- The residue modulo 3 of its significand [R121; 0] -/
  res : BitVec 2 := 0
deriving DecidableEq, Repr

/-- R53: the tensor instructions. -/
inductive TOp where
  | tload | tmma | tstore | tcvt
deriving DecidableEq, Repr

/-- R53: a queued tensor instruction with what it captured at issue. -/
structure TInstr where
  op : TOp
  da : BitVec 128
  db : BitVec 128
  acc : BitVec 2
  mode : BitVec 2
  ctr : BitVec 6
  ce : Bool
  sat : Bool
  bytes : Nat
  word : Word
  pc : BitVec 19
  started : Bool := false
deriving DecidableEq, Repr

/-- R56: the instructions of the network queue. -/
inductive NOp where
  | send | sendm | read | aadd | cpq
deriving DecidableEq, Repr

/-- R255: a link flume endpoint of a core: its entry of the link table, and the position at which the next SEND must start. -/
structure LinkEnd where
  entry : BitVec 6
  pos : Nat := 0
deriving DecidableEq, Repr

/-- R55, R156: a queued network instruction, its addresses after the offset of R56. -/
structure NInstr where
  op : NOp
  desc : BitVec 256
  remote : BitVec 48
  local_ : BitVec 19
  length : Nat
  ctr : BitVec 6
  ce : Bool
  route : BitVec 2
  addend : Word
  flow : BitVec 16
  /-- The sending endpoint and stream position when the SEND travels on a flume (R189). -/
  flume : Option (BitVec 3 × BitVec 12) := none
  /-- The link-table entry when the SEND travels on a link flume (R255). -/
  link : Option (BitVec 6) := none
  slot : Option (BitVec 4) := none
  /-- Its flits have been read out and wait for the flume; the entry is freed with the last of them [R156, R189; false] -/
  sent : Bool := false
deriving DecidableEq, Repr

/-- R56: a queued CCOPY. -/
structure CInstr where
  src : BitVec 19
  dst : BitVec 19
  length : Nat
  ctr : BitVec 6
  ce : Bool
deriving DecidableEq, Repr

/-- R158: an acknowledgement slot in use. -/
structure AckSlot where
  used : Bool := false
  ctr : BitVec 6 := 0
  ce : Bool := false
  left : Nat := 0
deriving DecidableEq, Repr

/-- R79, R131, R132: bytes on their way into the scratchpad, and what their write does beside storing them. -/
structure RowWrite where
  off : BitVec 19
  bytes : List Byte
  ctr : Option (BitVec 6) := none
  /-- The port they go through, as R389 numbers the ports (0 scalar, 5 network ingress) -/
  port : BitVec 3 := 0
  /-- The flow and the total that the packet declares [R163] -/
  decl : Option (Decl × BitVec 24) := none
  /-- The bytes are added to the word that stands there [R160] -/
  add : Bool := false
  /-- The packet of `Core.landing` whose row this is [R158] -/
  ticket : Option Nat := none
deriving DecidableEq, Repr

/-- R130-R139: what waits at one scratchpad bank. -/
structure Bank where
  /-- The pending ingress row write [R131; none] -/
  ingress : Option RowWrite := none
  /-- Writes deferred by a same-row conflict [R132; none] -/
  deferred : List RowWrite := []
  /-- Word offsets whose corrected word waits to be written back [R137; none] -/
  corrections : List (BitVec 19) := []
  /-- The next row the patrol scrubber reads, 9 bits [R139; choice 3: 0] -/
  scrubRow : BitVec 9 := 0
  /-- The scrubber asks at rank 3 [R139; no] -/
  forced : Bool := false
  /-- The ports whose request of ranks 5-11 has waited 64 cycles, rank 4, oldest first [R130; none] -/
  aged : List (BitVec 3) := []
  /-- Whole passes the scrubber has made over the bank [R139, R146; 0] -/
  passes : Nat := 0
deriving DecidableEq, Repr

/-- R136-R138: what is wrong with a stored 64-bit word as it is read: inverted data bits, inverted check bits, and
inverted bits of the row address under which it answers. -/
structure EccErr where
  data : BitVec 64 := 0
  check : BitVec 8 := 0
  row : BitVec 13 := 0
  /-- It comes from INJECT [R394] -/
  injected : Bool := false
deriving DecidableEq, Repr

/-- R158: a packet whose rows are being written: how many are left, and the packet to acknowledge after the last. -/
structure Landing where
  left : Nat := 0
  pkt : Packet := {}
deriving DecidableEq, Repr

/-- R188: a flume endpoint register. -/
structure FlumeEp where
  /-- VALID, 1 bit [R188; 0] -/
  valid : Bool := false
  /-- ROLE, 3 bits [R188; 0b000] -/
  role : BitVec 3 := 0
  /-- FLUME, 12 bits [R188; 0x000] -/
  flume : BitVec 12 := 0
  /-- CTR, 6 bits [R188; 0x00] -/
  ctr : BitVec 6 := 0
  /-- BASE, 13 bits [R188; 0x0000] -/
  base : BitVec 13 := 0
  /-- SIZE, 13 bits [R188; 0x0000] -/
  size : BitVec 13 := 0
  /-- POS, 12 bits [R188; 0x000] -/
  pos : BitVec 12 := 0
deriving DecidableEq, Repr

/-- R187, R198: a flume flit: 64 raw bytes, the flags that ride with it, and the SEND it belongs to. -/
structure FlumeFlit where
  data : List Byte
  flags : BitVec 6 := 0
  srcX : BitVec 9 := 0
  srcY : BitVec 9 := 0
  flow : BitVec 16 := 0
  notifySlot : Option (BitVec 4) := none
  pieceEnd : Option (BitVec 12) := none
deriving DecidableEq, Repr

/-- R64: the last NOTICE of a core. -/
structure Notice where
  lead : BitVec 8
  units : BitVec 4
  level : BitVec 4
deriving DecidableEq, Repr

/-- R74, R76: the service a core in the runtime state waits for. -/
inductive Service where
  | none
  /-- A LOG record that waits for room in the headworks queue (R301). -/
  | log (record : List Word)
  /-- A checkpoint hook, with the hook number of g1 (R300). -/
  | hook (number : Word)
  /-- A debug stop (R428). -/
  | debug
deriving DecidableEq, Repr

/-- R40: one core, with the registers of its 8 KiB block that are not CSRs. -/
structure Core where
  /-- g0-g31, 32 x 32 bits; g0 reads as zero [R40; choice 3: 0] -/
  g : Tbl Word := []
  /-- v0-v15, 16 x 32 lanes x 32 bits, lane l of register r at key 32r + l [R40; choice 3: 0] -/
  v : Tbl Word := []
  /-- d0-d7, 8 x 128 bits [R40; choice 3: 0] -/
  d : Tbl (BitVec 128) := []
  /-- acc0-acc3, 4 x 16 x 16 entries, entry (i, j) of tile t at key 256t + 16i + j [R40, R94; +0] -/
  acc : Tbl AccEntry := []
  /-- The kind of each tile, tracked at issue in program order [R94; clear] -/
  kind : Tbl TileKind := []
  /-- PC, 19 bits [R40; choice 3: 0] -/
  pc : BitVec 19 := 0
  /-- The 64 completion counters [R40, R71; 0] -/
  ccnt : Tbl Counter := []
  /-- The 16 sync channels [R40, R71; 0] -/
  sync : Tbl SyncChan := []
  /-- `CORE_STATUS.STATE`, 3 bits [R69; halted] -/
  mode : CoreMode := .halted
  /-- `CORE_STATUS` WAITKIND and WAITON, 8 bits [R69; none] -/
  wait : WaitOn := .none
  /-- HALT has issued and waits for the queues, with its code [R73; none] -/
  halting : Option (BitVec 16) := none
  /-- `CORE_EXIT.CODE`, 16 bits [R69; 0x0000] -/
  exitCode : BitVec 16 := 0
  /-- `CORE_EXIT.VALID`, 1 bit [R69; 0] -/
  exitValid : Bool := false
  /-- `CORE_CYCLE`, 64 bits [R70; 0] -/
  cycle : BitVec 64 := 0
  /-- `CORE_FPMODE.SUBN`, 1 bit [R70; 0] -/
  subn : Bool := false
  /-- `CORE_FPMODE.SAT`, 1 bit [R70; 0] -/
  sat : Bool := false
  /-- `CORE_FPFLAGS` 5:0 [R70; 0] -/
  fpflags : BitVec 6 := 0
  /-- `CORE_PART` 19:0: ORG_ROW, ORG_COL, ROWS, COLS, PART [R68; 0x0] -/
  partReg : BitVec 20 := 0
  /-- `CORE_PART.SEALED`, 1 bit [R68; 0] -/
  sealed : Bool := false
  /-- `CORE_PART.DETREQ`, 1 bit [R68; 0] -/
  detreq : Bool := false
  /-- `CORE_TRAPCAUSE` 5:0 [R72; 0] -/
  trapCause : BitVec 6 := 0
  /-- `CORE_TRAPPC`, 32 bits [R72; 0] -/
  trapPc : Word := 0
  /-- `CORE_TRAPVAL`, 32 bits [R72; 0] -/
  trapVal : Word := 0
  /-- `CORE_RTSCRATCH0`-`3`, 4 x 32 bits [R72; 0] -/
  rtScratch : Tbl Word := []
  /-- The PC the runtime has set up for RTE, 19 bits [R74, R76; choice 3: 0] -/
  rtPc : BitVec 19 := 0
  /-- What the core runtime waits for [R74, R76; none] -/
  service : Service := .none
  /-- Debug stop ordered and not yet taken [R299, R428; no] -/
  debugStop : Bool := false
  /-- The tensor queue, oldest first, at most 8 [R54; empty, `CORE_QUEUE.TQ` 0] -/
  tq : List TInstr := []
  /-- The network queue, oldest first, at most 16 [R156; empty, `CORE_QUEUE.NQ` 0] -/
  nq : List NInstr := []
  /-- The copy-engine queue, oldest first, at most 4 [R56; empty, `CORE_QUEUE.CQ` 0] -/
  cq : List CInstr := []
  /-- The 16 acknowledgement slots [R158; free] -/
  slots : Tbl AckSlot := []
  /-- Network instructions issued since job start, modulo 65,536 [R156; choice 3: 0] -/
  flowCount : BitVec 16 := 0
  /-- Bytes that READs have asked for and that are not yet in LOCAL [R73; 0] -/
  reads : Nat := 0
  /-- Copy descriptors that hold a credit: the CPQ's FLOW and the MSDs that have not sent their final COMPLETION [R227, R228; none] -/
  copies : List (BitVec 16 × List (BitVec 3)) := []
  /-- The instruction buffer: line addresses (offset / 64), most recently used first [R43; choice 3: empty] -/
  ibuf : List (BitVec 13) := []
  /-- The store buffer, oldest first, at most 4 [R79; empty] -/
  stores : List RowWrite := []
  /-- Packets with NOTIFY of which rows are still pending, by ticket [R158; none] -/
  landing : Tbl Landing := []
  /-- The last notice [R64; none] -/
  notice : Option Notice := none
  /-- `CORE_SPSTATE.POWERED`, 16 bits [R145; 0x0000] -/
  powered : BitVec 16 := 0
  /-- `CORE_SPSTATE.ZEROISING`, 16 bits [R145; 0x0000] -/
  zeroising : BitVec 16 := 0
  /-- Banks of the load's mask that wait for a zeroise place [R141; none] -/
  zeroWait : BitVec 16 := 0
  /-- `CORE_SPSTATE.CE_COUNT`, 16 bits [R145; 0x0000] -/
  ceCount : BitVec 16 := 0
  /-- `CORE_SPSTATE.UE`, 1 bit [R145; 0] -/
  ue : Bool := false
  /-- The 16 banks' waiting accesses [R130; none] -/
  banks : Tbl Bank := []
  /-- Inverted check bits, by offset / 8 [R136, R394; none] -/
  ecc : Tbl EccErr := []
  /-- An armed injection: port and number of check bits [R394; none] -/
  inject : Option (BitVec 8 × Nat) := none
  /-- The responder's request queue, at most 8 [R159; empty] -/
  requests : List Packet := []
  /-- Packets that have left the local router port and wait for their checks [R166; none] -/
  arrived : List Packet := []
  /-- `CORE_FLEP0`-`7` [R188; 0] -/
  ep : Tbl FlumeEp := []
  /-- The link flume endpoints, at most 2 [R255; none] -/
  linkEps : List LinkEnd := []
  /-- Flume flits waiting at each receiving endpoint [R190; none] -/
  flumeIn : Tbl (List FlumeFlit) := []
  /-- A contributor's own flits that have entered the collector, by endpoint, at most 4 [R196, R197; none] -/
  contrib : Tbl (List FlumeFlit) := []
  /-- Partial stream of the row leg, by endpoint [R197; none] -/
  rowIn : Tbl (List FlumeFlit) := []
  /-- Partial stream of the column leg, by endpoint [R197; none] -/
  colIn : Tbl (List FlumeFlit) := []
  /-- Flume flits read out and not yet injected, by endpoint [R187; none] -/
  flumeOut : Tbl (List FlumeFlit) := []
  /-- SENDs whose later flits are sunk, as (source X, source Y, FLOW) by endpoint [R187, R190; none] -/
  flumeSink : List (BitVec 9 × BitVec 9 × BitVec 16) := []
  /-- `CORE_HANG.PROGRESS`, 32 bits [R413; 0] -/
  progress : Word := 0
  /-- `CORE_HANG.STILL`, 16 bits [R413; 0x0000] -/
  still : BitVec 16 := 0
  /-- PROGRESS at the last sample [R397; choice 3: 0] -/
  lastProgress : Word := 0
  /-- The image places the core [R41, R293; no] -/
  placed : Bool := false
  /-- The core is in a core reset or post-fault test [R166, R399; no] -/
  testing : Bool := false
deriving DecidableEq, Repr

/-! ### Routers -/

/-- R152, R154: a flit of a packet: 0 is the header flit. -/
structure Flit where
  p : Packet
  idx : Nat
deriving DecidableEq, Repr

/-- R152: the input port and channel whose packet holds an output channel. -/
structure Lock where
  inp : BitVec 3
  vc : BitVec 2
  p : Packet
deriving DecidableEq, Repr

/-- R185, R186: a flume's place in one router. -/
structure FlumeHop where
  part : BitVec 4
  flume : BitVec 12
  inp : BitVec 3
  out : BitVec 3
  share : Nat
  /-- Earned bandwidth in eighths of a flit, at most 64 (R186). -/
  earned : Nat := 0
  buf : List FlumeFlit := []
  /-- The tap endpoint when a turnout of a multicast flume stands here (R194). -/
  tap : Option (BitVec 3) := none
  /-- A step of a collector's row leg (false) or column leg (true) to the next contributor (R196). -/
  leg : Option Bool := none
  /-- The flume has been stopped by a failed combine (R199). -/
  stopped : Bool := false
  rank2 : Nat := 0
  rank6 : Nat := 0
deriving DecidableEq, Repr

/-- R148-R153: one core's data-network router. -/
structure Router where
  /-- Input buffers, input i (0 N, 1 E, 2 S, 3 W, 4 local, 5 culvert, 6 link) of channel v at key 4i + v [R149; empty] -/
  inb : Tbl (List Flit) := []
  /-- Which packet holds each output channel, output o of channel v at key 4o + v [R152; none] -/
  lock : Tbl (Option Lock) := []
  /-- Flits that wait to enter the local, culvert or link input, by the same key [R149; none] -/
  wait : Tbl (List Flit) := []
  /-- The packet of an input channel that has moved to VC0, by the same key [R151; none] -/
  esc : Tbl (Option Packet) := []
  /-- The input served last at output o in rank k, at key 8o + k [R152; choice 3: 0] -/
  rr : Tbl Nat := []
  /-- Inputs whose VC1 head has waited 32 cycles [R152; none] -/
  aged : List (BitVec 3) := []
  /-- Whether each output sent a VC3 flit, over its last 7 cycles, newest first [R152; none] -/
  vc3 : Tbl (List Bool) := []
  /-- Flumes through the router [R185; none] -/
  flumes : List FlumeHop := []
deriving DecidableEq, Repr

/-! ### Dies, regions, edges -/

/-- R179: `CD_NETCFG.STATE`. -/
inductive NetState where
  | idle | loading | running | reset
deriving DecidableEq, Repr

/-- The die-level registers of a compute die that is not part of another table. -/
structure Die where
  /-- `CD_STRAP.STRAP`, 16 bits [R26; Sampled: choice 4: 0 until the straps are read] -/
  strap : BitVec 16 := 0
  /-- `CD_STRAP` PARITY_OK, KIND_OK, RANGE_OK, 3 bits [R26; Sampled: choice 4: 0] -/
  strapOk : BitVec 3 := 0
  /-- `CD_NETCFG.PART`, 4 bits [R179; 0x0] -/
  part : BitVec 4 := 0
  /-- `CD_NETCFG.ASSIGNED`, 1 bit [R179; 0] -/
  assigned : Bool := false
  /-- `CD_NETCFG.JOB`, 8 bits [R179; 0x00] -/
  job : BitVec 8 := 0
  /-- `CD_NETCFG.STATE`, 2 bits [R179; idle] -/
  net : NetState := .idle
  /-- `CD_NETSTAT.DISCARDED`, 16 bits [R180; 0x0000] -/
  discarded : BitVec 16 := 0
  /-- `CD_NETSTAT.ESCAPES`, 16 bits [R180; 0x0000] -/
  escapes : BitVec 16 := 0
  /-- `CD_NETSTAT.PARITY_ERR`, 16 bits [R180; 0x0000] -/
  parityErr : BitVec 16 := 0
  /-- `CD_NETSTAT.HCRC_ERR`, 16 bits [R180; 0x0000] -/
  hcrcErr : BitVec 16 := 0
  /-- `CD_SPSCRUB.FORCE_LOG2`, 4 bits [R146; 0xE] -/
  forceLog2 : BitVec 4 := 0xE
  /-- `CD_SPSCRUB.PASSES`, 16 bits [R146; 0x0000] -/
  scrubPasses : BitVec 16 := 0
  /-- `CD_HBMCFG.GRAN`, 2 bits [R240; 0b00] -/
  gran : BitVec 2 := 0
  /-- `CD_HBMRNG0`-`3` as (FIRST, LAST), VALID by presence [R240; none] -/
  ranges : List (BitVec 9 × BitVec 9) := []
  /-- `CD_PWRSTAT.POWER`, 12 bits [R328; 0x000] -/
  power : BitVec 12 := 0
  /-- `CD_PWRSTAT.BUDGET`, 12 bits [R328; 0x000] -/
  budget : BitVec 12 := 0
  /-- `CD_PWRSTAT.LOGICRAIL` = failed [R328; no] -/
  logicFailed : Bool := false
  /-- `CD_PWRSTAT.UNANNOUNCED`, 16 bits [R328; 0x0000] -/
  unannounced : BitVec 16 := 0
  /-- `CD_CLKSTAT.LOCKED`, 1 bit [R345; 0] -/
  locked : Bool := false
  /-- `CD_CLKSTAT.DETLOST`, 1 bit [R345; 0] -/
  detLost : Bool := false
  /-- `CD_CLKSTAT.DET`, 1 bit [R345; 0] -/
  det : Bool := false
  /-- `CD_CLKSTAT.SLIPS`, 8 bits [R345; 0x00] -/
  slips : BitVec 8 := 0
  /-- `CD_CLKSTAT.ELASTIC`: the crossings elastic after a slip [R345; 0x00] -/
  elastic : List (BitVec 8) := []
  /-- `CD_CLKSTAT.LASTSLIP`, 8 bits [R345; 0xFF] -/
  lastSlip : BitVec 8 := 0xFF
  /-- `CD_THERM.TLOGIC`, 12 bits [R362; 0x000] -/
  tLogic : BitVec 12 := 0
  /-- `CD_THERM.TARRAY`, 12 bits [R362; 0x000] -/
  tArray : BitVec 12 := 0
  /-- `CD_THERM.CAPBY`, 2 bits [R362; 0b00] -/
  capBy : BitVec 2 := 0
  /-- The forecast cap in eighths, `CD_THERM.FORECAST` by presence [R357, R362; none] -/
  forecast : Option Nat := none
  /-- `CD_THERM.SPREAD`, 20 bits [R362; 0x0_0000] -/
  spread : BitVec 20 := 0
  /-- `CD_THERM.DEGRADED`, 5 bits [R362; 0x00] -/
  degraded : BitVec 5 := 0
  /-- No hot spot of a layer has a plausible reading: the cap is held at 4/8 [R349; no] -/
  sensorless : Bool := false
  /-- `CD_RETIRED.REGIONS`, 64 bits [R413; From flash: choice 4: 0] -/
  retRegions : BitVec 64 := 0
  /-- `CD_RETSTAT.CORES`, 11 bits [R413; From flash: choice 4: 0] -/
  retCores : BitVec 11 := 0
  /-- `CD_RETSTAT.RETIRED`, 1 bit [R413; From flash: choice 4: 0] -/
  retired : Bool := false
  /-- `CD_RETSTAT.PENDING`, 1 bit [R413; 0] -/
  retPending : Bool := false
  /-- The die answers: its straps passed and it is not silent [R24; no, until bring-up] -/
  alive : Bool := false
  /-- The die's transit has failed [R169, R177, R331; no] -/
  transitFailed : Bool := false
  /-- The die is in a die reset [R369; no] -/
  inReset : Bool := false
  /-- Clocks stopped [R331, R355; stopped until bring-up] -/
  clocks : Bool := false
  /-- Sync culverts lost, 0-2 [R204; 0] -/
  culvertsLost : Nat := 0
  /-- The partition's hold is in force at the die hub [R343; no] -/
  detHold : Bool := false
  /-- Members arrived in the current generation, by group: the sense bits of the die's tree [R202; none] -/
  arrivedMembers : Tbl (List CoreRef) := []
  /-- Debug stops that the runtimes of cores have reported to the die agent, oldest first [R76 step 4; none] -/
  stopReports : List CoreRef := []
  /-- Cores whose collector combining is disabled by a failed test [R366; none] -/
  noCombine : List (BitVec 10) := []
deriving DecidableEq, Repr

/-- R329: `CD_RGNn.STATE`. -/
inductive RegionState where
  | off | waiting | ramping | own | logic | dark
deriving DecidableEq, Repr

/-- R309-R329, R334, R346: one region's supply, caps and clock. -/
structure Region where
  /-- `CD_RGNn.STATE`, 3 bits [R329; off] -/
  state : RegionState := .off
  /-- `CD_RGNn.PHASES`, 8 bits [R329; From flash: choice 4: 0xFF] -/
  phases : BitVec 8 := 0xFF
  /-- `CD_RGNn.VOUT`, 10 bits, mV [R329; 0x000] -/
  vout : BitVec 10 := 0
  /-- `CD_RGNn.CAP`, 7 bits, 50 mA [R329; 0x00] -/
  cap : BitVec 7 := 0
  /-- The current draw at full duty, mA, as last measured [R322; choice 4: 0] -/
  draw : Nat := 0
  /-- The thermal cap, eighths [R351; 8/8] -/
  thermalCap : Nat := 8
  /-- The budget cap, eighths [R321; 8/8] -/
  budgetCap : Nat := 8
  /-- The switch to the logic rail is in progress: duty 0/8 [R323; no] -/
  transfer : Bool := false
  /-- `CD_RGNn.NBWAIT`, 1 bit [R329; 0] -/
  nbWait : Bool := false
  /-- Waiting for a neighbour at peak [R317; no] -/
  nbWaiting : Bool := false
  /-- `CD_RGNn.FLOOR`, 8 bits, 10 mV [R329; 0x00] -/
  floor : BitVec 8 := 0
  /-- The 20 mV notice boost is applied [R313; no] -/
  boost : Bool := false
  /-- Every live phase is kept enabled for a notice [R313; no] -/
  allPhases : Bool := false
  /-- `CD_FBn.STRETCHED`, 16 bits [R346; 0x0000] -/
  stretched : BitVec 16 := 0
  /-- `CD_FBn.DEBT`, eighths [R346; 0x00] -/
  debt : Nat := 0
  /-- `CD_FBn.ZONE`, 2 bits [R346; 0b01 clear] -/
  zone : BitVec 2 := 1
  /-- `CD_FBn.REPAID`, 16 bits [R346; 0x0000] -/
  repaid : BitVec 16 := 0
  /-- `CD_FBn.RED`, 16 bits [R346; 0x0000] -/
  red : BitVec 16 := 0
  /-- Cycles of the current 64-cycle window [R335; 0] -/
  winCycle : Nat := 0
  /-- Repayment cycles in the window [R335; 0] -/
  winRepaid : Nat := 0
deriving DecidableEq, Repr

/-- R181: `LNK_EDGEn`. -/
structure Edge where
  /-- STATE, 2 bits: 0 untrained, 1 active, 2 parked, 3 failed [R181; 0b00] -/
  state : BitVec 2 := 0
  /-- DIAG, 1 bit [R181; 0] -/
  diag : Bool := false
  /-- WEIR, 1 bit [R181; 0] -/
  weir : Bool := false
  /-- LATENCY, 5 bits [R181; 0x00] -/
  latency : BitVec 5 := 0
  /-- SPARES, 9 bits [R181; 0x000] -/
  spares : BitVec 9 := 0
  /-- EPOCH, 8 bits [R181; 0x00] -/
  epoch : BitVec 8 := 0
  /-- RETRIES, 16 bits [R181; 0x0000] -/
  retries : BitVec 16 := 0
  /-- A retrain is due [R372; no] -/
  retrainDue : Bool := false
  /-- An armed injection: failing attempts of the next flit [R394; none] -/
  inject : Option Nat := none
deriving DecidableEq, Repr

/-- R18: a row's site map. -/
structure SiteMap where
  /-- LCOL, 48 bits [R18; From flash: choice 4: identity] -/
  lcol : BitVec 48 := 0xBA9876543210
  /-- LEFTOUT, 4 bits [R18; From flash: choice 4: 0xC] -/
  leftOut : BitVec 4 := 0xC
  /-- EPOCH, 8 bits [R18; 0x00] -/
  epoch : BitVec 8 := 0
deriving DecidableEq, Repr

/-! ### Memory side -/

/-- R240: `CD_CULVGn`. -/
structure Culv where
  /-- LIVE, 8 bits [R240; 0x00] -/
  live : BitVec 8 := 0
  /-- STATE, 2 bits [R240; 0b00 down] -/
  state : BitVec 2 := 0
  /-- RELOCK: the channel that is relocking [R240; 0] -/
  relock : Option (BitVec 3) := none
  /-- A reset has cleared RELOCK while the channel goes on relocking [R7, R240; no] -/
  relockHidden : Bool := false
  /-- Channels that wait to relock, one at a time per group [R219; none] -/
  relockWait : List (BitVec 3) := []
  /-- RELOCKS, 16 bits [R240; 0x0000] -/
  relocks : BitVec 16 := 0
  /-- RETRIES, 16 bits [R240; 0x0000] -/
  retries : BitVec 16 := 0
  /-- Packets in the group on their way to the MSD, at most 16 READ_REQs among them [R222; none] -/
  inq : List Packet := []
deriving DecidableEq, Repr

/-- R234: the tag of a stored unit. -/
inductive UnitTag where
  | erased | header | raw
deriving DecidableEq, Repr

/-- R224: bytes accepted into a stack's write buffer. -/
structure HbmWrite where
  addr : Nat
  len : Nat
deriving DecidableEq, Repr

/-- R234: wrong bytes of a stored block. -/
structure HbmErr where
  bytes : Nat := 0
  injected : Bool := false
deriving DecidableEq, Repr

/-- R238: a row of a stack, with the region that holds it. -/
structure HbmRow where
  region : Nat
  bank : Nat
  row : Nat
deriving DecidableEq, Repr

/-- R238: a bad block that was found in a row, uncorrectable or corrected. -/
structure HbmFind where
  row : HbmRow
  ue : Bool
deriving DecidableEq, Repr

/-- R241: `MSD_STACKn` of one physical stack, with its write buffer, scrubber and repairs. -/
structure Stack where
  /-- STATE, 3 bits: 0 fused off, 1 training, 2 live, 3 retired [R241; 0b000] -/
  state : BitVec 3 := 0
  /-- RATE, 3 bits [R241; 0b000] -/
  rate : BitVec 3 := 0
  /-- CE, 16 bits [R241; 0x0000] -/
  ce : BitVec 16 := 0
  /-- UE, 8 bits [R241; 0x00] -/
  ue : BitVec 8 := 0
  /-- Rows under soft repair, of which SPPR gives the number [R238, R241; 0x00] -/
  soft : List HbmRow := []
  /-- How many of them a hard repair has reached [R238; 0] -/
  hardened : Nat := 0
  /-- Rows marked for repair after their region's next erase [R238; none] -/
  marked : List HbmRow := []
  /-- Bad blocks found, which the headworks has still to judge [R238; none] -/
  found : List HbmFind := []
  /-- Bad blocks that it has judged [R238; none] -/
  seen : List HbmFind := []
  /-- The write buffer, oldest first [R224; empty] -/
  wbuf : List HbmWrite := []
  /-- The next HBM address the scrubber reads [R237; choice 3: 0] -/
  scrubAt : Nat := 0
  /-- The request rate is halved [R350; no] -/
  throttled : Bool := false
  /-- Temperature, 1/16 degrees [R348; choice 4: 0] -/
  temp : Int := 0
  /-- An armed injection: bytes of the next block written [R394; none] -/
  inject : Option Nat := none
deriving DecidableEq, Repr

/-- R225-R227: a copy descriptor in an MSD's queue and how far it has got. -/
structure CopyJob where
  desc : BitVec 256
  srcX : BitVec 9
  srcY : BitVec 9
  part : BitVec 4
  job : BitVec 8
  flow : BitVec 16
  /-- Pieces on this MSD's own stacks that an engine has taken [R227; 0] -/
  done : Nat := 0
deriving DecidableEq, Repr

/-- One memory-side die. -/
structure Msd where
  /-- `MSD_SCRUB.HOURS`, 5 bits [R241; 0x0C] -/
  hours : BitVec 5 := 0x0C
  /-- `MSD_SCRUB.PASSES`, 16 bits [R241; 0x0000] -/
  passes : BitVec 16 := 0
  /-- The 16 key slots, 64 bytes each [R230; choice 3: empty] -/
  keys : Tbl (List Byte) := []
  /-- Copy queues, queue q of site key k at key 8k + q [R227; empty] -/
  queues : Tbl (List CopyJob) := []
  /-- The key of the queue whose piece was taken last [R227; choice 3: 0] -/
  turn : Nat := 0
  /-- Engines disabled by their test [R366; none] -/
  deadEngines : List (BitVec 6) := []
  /-- The MSD has failed as a unit [R311, R366; no] -/
  failed : Bool := false
  /-- The MSD takes the throttle of R350 [R350, R353; no] -/
  throttled : Bool := false
  /-- Straps, 16 bits and their three check bits [R26; Sampled: choice 4: 0] -/
  strap : BitVec 19 := 0
deriving DecidableEq, Repr

/-! ### Inter-panel -/

/-- The kinds of messages of the sync ring and of the control slots (R260). -/
inductive RingKind where
  | arrive | release | abort | digest | heartbeat
deriving DecidableEq, Repr

/-- R247: the key of a direction, its salt and its frame counter. -/
structure LinkKey where
  key : List Byte := []
  salt : Word := 0
  count : Nat := 0
deriving DecidableEq, Repr

/-- R246: a frame that this port sent: SEQ, the flits of its slots, and the message of its control slot. -/
structure TxFrame where
  seq : Word
  slots : List LinkSlot
  ctl : Option (RingKind × RingMsg)
deriving DecidableEq, Repr

/-- R268: `LNK_PORTn` and `LNK_PORTERRn`, and the port's link state. -/
structure Port where
  /-- FUSED, 1 bit [R268; Fuses: choice 4: 1 on the AZP-4800-144] -/
  fused : Bool := true
  /-- STATE, 3 bits: 0 down, 1 training, 2 up with 8 lanes, 3 up with 4 lanes, 4 parked, 5 failed [R268; 0b000] -/
  state : BitVec 3 := 0
  /-- KEYED, 1 bit [R268; 0] -/
  keyed : Bool := false
  /-- ATTROW, 4 bits [R268; 0x0] -/
  attRow : BitVec 4 := 0
  /-- ATTCOL, 4 bits [R268; 0x0] -/
  attCol : BitVec 4 := 0
  /-- EDGE, 2 bits [R268; 0b00] -/
  edge : BitVec 2 := 0
  /-- PEERPANEL, 16 bits [R268; 0xFFFF] -/
  peerPanel : BitVec 16 := 0xFFFF
  /-- PEERPORT, 6 bits [R268; 0x00] -/
  peerPort : BitVec 6 := 0
  /-- RETRIES, 16 bits [R268; 0x0000] -/
  retries : BitVec 16 := 0
  /-- FECCORR, 16 bits, units of 2^16 [R268; 0x0000] -/
  fecCorr : BitVec 16 := 0
  /-- Codewords corrected below one unit of FECCORR [R268; 0] -/
  fecPart : Nat := 0
  /-- TAGFAIL, 16 bits [R268; 0x0000] -/
  tagFail : BitVec 16 := 0
  /-- LANEFAIL, 16 bits [R268; 0x0000] -/
  laneFail : BitVec 16 := 0
  /-- Attempts of the frame expected next that have failed in a row, and those of them that failed the tag [R248; 0] -/
  fails : Nat := 0
  tagFails : Nat := 0
  /-- The keys of the two directions [R247; choice 3: none] -/
  tx : LinkKey := {}
  rx : LinkKey := {}
  /-- Credits in use toward the peer, by 4 channel kind + class [R251; 0] -/
  used : Tbl Nat := []
  /-- Credits to be returned with the next frame, so numbered [R246, R251; 0] -/
  owed : Tbl Nat := []
  /-- The SEQ expected next [R246, R248; choice 3: 0] -/
  rxSeq : Word := 0
  /-- The SEQ of the next frame sent [R246; choice 3: 0] -/
  txSeq : Word := 0
  /-- NAK is being returned [R248; no] -/
  nak : Bool := false
  /-- Flits waiting to cross, each with its channel and class [R251; none] -/
  txq : List LinkSlot := []
  /-- Frames sent and not yet acknowledged, oldest first: the replay buffer of 2 MiB [R248; empty] -/
  replay : List TxFrame := []
  /-- The frame from which the replay goes on [R248; none] -/
  resend : Option Word := none
  /-- The lanes in use after a failure: 0 all, 1 lanes 0-3, 2 lanes 4-7 [R249; 0] -/
  half : BitVec 2 := 0
  /-- The sealed group the port is keyed for [R426; none] -/
  sealedGroup : Option (BitVec 16) := none
  /-- An armed injection: target 3 or 4 and its count [R394; none] -/
  inject : Option (BitVec 8 × Nat) := none
  /-- Messages that wait for the control slot of the next frame, oldest first [R246, R262, R263; none] -/
  ctlOut : List (RingKind × RingMsg) := []
deriving DecidableEq, Repr

/-- R260, R269: the ring port. -/
structure Ring where
  /-- `HWD_RING.STATE`, 2 bits: 0 bypassed, 1 joining, 2 up, 3 down [R269; 0b00] -/
  state : BitVec 2 := 0
  /-- `HWD_RING.PANELS`, 7 bits [R269; 0x00] -/
  panels : BitVec 7 := 0
  /-- `HWD_RING.CIRCUIT`, 23 bits [R269; 0] -/
  circuit : BitVec 23 := 0
  /-- `HWD_RING.RESENDS`, 16 bits [R269; 0x0000] -/
  resends : BitVec 16 := 0
  /-- The next ring sequence number [R260; choice 3: 0] -/
  seq : Word := 0
  /-- Messages of this panel that have not come back round [R260; none] -/
  own : List (RingKind × RingMsg) := []
  /-- Messages forwarded, newest first [R260; none] -/
  forwarded : List (RingKind × RingMsg) := []
  /-- The (origin, sequence) pairs acted on, at most 256 [R260, R263; none] -/
  seen : List (BitVec 16 × Word) := []
  /-- The RING_JOINs that wait for a circuit [R267; none] -/
  joining : List Cmd := []
deriving DecidableEq, Repr

/-- R265, R266, R269: the shadow registers. -/
structure Shadow where
  /-- `HWD_SHADOW.ROLE`, 2 bits [R269; 0b00] -/
  role : BitVec 2 := 0
  /-- `HWD_SHADOW.PEER`, 16 bits [R269; 0x0000] -/
  peer : BitVec 16 := 0
  /-- `HWD_SHADOW.WINDOWS`, 22 bits [R269; 0] -/
  windows : BitVec 22 := 0
  /-- `HWD_SHADOW.MISMATCH`, 16 bits [R269; 0x0000] -/
  mismatch : BitVec 16 := 0
  /-- The peer's partition, the mirror port and the digest group [R267; 0] -/
  peerPart : BitVec 8 := 0
  mirrorPort : BitVec 8 := 0
  digestGroup : BitVec 8 := 0
  /-- The digest of outbound packets in the open window, 64 bits [R266; choice 3: 0] -/
  sum : Reg64 := 0
  /-- The shadow's own windows, by GEN, that wait for the primary's sum [R266; none] -/
  closed : List (BitVec 8 × Reg64) := []
  /-- The primary's sums, by GEN, that wait for the shadow's window [R266; none] -/
  peerSums : List (BitVec 8 × Reg64) := []
deriving DecidableEq, Repr

/-- R206, R264: a barrier group at the headworks hub. -/
structure BGroup where
  /-- `HWD_BGRPn.VALID`, 1 bit [R206; 0] -/
  valid : Bool := false
  /-- `HWD_BGRPn.PART`, 4 bits [R206; 0x0] -/
  part : BitVec 4 := 0
  /-- `HWD_BGRPn.GEN`, 8 bits [R206; 0x00] -/
  gen : BitVec 8 := 0
  /-- `HWD_BGRPn.DIES`, 8 bits [R206; 0x00] -/
  dies : BitVec 8 := 0
  /-- `HWD_BGRPn.PENDING`, 8 bits [R206; 0x00] -/
  pending : BitVec 8 := 0
  /-- `HWD_BGRPn.DETHOLD`, 1 bit [R206; 0] -/
  detHold : Bool := false
  /-- `HWD_BGRPn.FALLBACK`, 1 bit [R206; 0] -/
  fallback : Bool := false
  /-- `HWD_BGWAITn.LASTWAIT`, 32 bits [R264; 0] -/
  lastWait : Word := 0
  /-- `HWD_BGWAITn.MAXWAIT`, 32 bits [R264; 0] -/
  maxWait : Word := 0
  /-- `HWD_BGLASTn.DIEROW`, 4 bits [R264; 0x0] -/
  dieRow : BitVec 4 := 0
  /-- `HWD_BGLASTn.DIECOL`, 4 bits [R264; 0x0] -/
  dieCol : BitVec 4 := 0
  /-- `HWD_BGLASTn.PANEL`, 16 bits [R264; 0x0000] -/
  panel : BitVec 16 := 0
  /-- `HWD_BGLASTn.GENS`, 24 bits [R264; 0x00_0000] -/
  gens : BitVec 24 := 0
  /-- Die hubs whose arrival of the current generation the hub has, and those sent but not received [R202; none] -/
  arrivedDies : List Site := []
  sentDies : List Site := []
  /-- The times of the generation's first and last arrival so far, ticks [R264; 0] -/
  firstTick : BitVec 64 := 0
  lastTick : BitVec 64 := 0
  /-- Members to which a release travels [R202; none] -/
  releasing : List CoreRef := []
  /-- The group index within the job, and its multi-panel and digest flags [R293; 0] -/
  index : BitVec 8 := 0
  multi : Bool := false
  digest : Bool := false
  /-- A multi-panel group: panels whose ARRIVE is in [R262; none] -/
  panelsIn : List (BitVec 16) := []
  /-- The group's RELEASE has come before the shadow's own arrivals were complete [R265; no] -/
  releaseIn : Bool := false
deriving DecidableEq, Repr

/-! ### Partitions and jobs -/

/-- R285: the partition states; their codes are 0-7 in this order. -/
inductive PartState where
  | free | idle | loading | loaded | running | checkpoint | held | ending
deriving DecidableEq, Repr

/-- R293: a rectangle of placed cores, in logical coordinates after relocation. -/
structure CoreRec where
  x0 : Nat
  y0 : Nat
  w : Nat
  h : Nat
  entry : BitVec 19
  mask : BitVec 16
deriving DecidableEq, Repr

/-- R293: a binding record after relocation; `group` is the panel's barrier group. -/
structure BindRec where
  x0 : Nat
  y0 : Nat
  w : Nat
  h : Nat
  chan : BitVec 4
  group : BitVec 6
deriving DecidableEq, Repr

/-- R293: a segment record after relocation: its data is read again from host memory at step 4 of R295, from `at_` in the
image, and relocated at the listed (kind, byte offset) places. -/
structure SegRec where
  x0 : Nat
  y0 : Nat
  w : Nat
  h : Nat
  off : Nat
  at_ : Nat
  len : Nat
  relocs : List (Nat × Nat)
deriving DecidableEq, Repr

/-- R325: a phase record. -/
structure Phase where
  next : Nat
  dur : Nat
  pavg : Nat
  ppeak : Nat
  rpeak : Nat
deriving DecidableEq, Repr

/-- R284: an outstanding wait command. -/
inductive WaitKind where
  | job | checkpoint | log | event (mask : Word)
deriving DecidableEq, Repr

/-- R287, R302: why a job ended, as its replies report it. -/
structure JobEnd where
  status : BitVec 16
  x : BitVec 16 := 0xFFFF
  y : BitVec 16 := 0xFFFF
  code : BitVec 16 := 0
  count : Word := 0
  seq : Word := 0
  hook : Word := 0
deriving DecidableEq, Repr

/-- What a JOB_LOAD keeps from the image that passed its checks (R294), until the job ends. -/
structure JobImage where
  detreq : Bool := false
  sealed : Bool := false
  subn : Bool := false
  sat : Bool := false
  multi : Bool := false
  gran : BitVec 2 := 0
  digest : BitVec 512 := 0
  cores : List CoreRec := []
  binds : List BindRec := []
  segs : List SegRec := []
  flumes : List (BitVec 128) := []
  links : List LinkSpec := []
  advGroup : Option (BitVec 6) := none
  phases : List Phase := []
  ranges : List (BitVec 9 × BitVec 9) := []
deriving DecidableEq, Repr

/-- R253, R267: a partition's binding to a panel group. -/
structure GroupBinding where
  group : BitVec 16
  epoch : BitVec 16
  root : BitVec 16
  ports : List Byte
deriving DecidableEq, Repr

/-- R294, R399: a JOB_LOAD that waits for an engagement or a post-fault test; `reply` is gone with its queue pair. -/
structure LoadReq where
  h : Cmd
  addr : Reg64
  len : Word
  hold : Bool
deriving DecidableEq, Repr

/-- R422: a live seal offer. -/
structure SealOffer where
  seq : Word
  draw : Nat
  bytes : List Byte
deriving DecidableEq, Repr

/-- R423: what an accepted seal leaves with a partition. -/
structure Secrets where
  xtsKey : List Byte
  imageKey : List Byte
  linkSecret : List Byte
  digest : BitVec 512
  group : BitVec 16
  measure : List Byte
deriving DecidableEq, Repr

/-- R285: a partition. -/
structure Part where
  /-- The state [R285; Free] -/
  state : PartState := .free
  /-- The owner host die [R285; choice 3: host die 0] -/
  owner : Bool := false
  /-- Origin and shape in logical dies [R288; choice 3: 0] -/
  row : Nat := 0
  col : Nat := 0
  rows : Nat := 0
  cols : Nat := 0
  /-- HOLD of the load [R289; no] -/
  hold : Bool := false
  /-- The job's image [R294; none] -/
  img : JobImage := {}
  /-- The load that is in progress, to be answered when it ends [R295; none] -/
  loading : Option Cmd := none
  /-- Loads that wait for an engagement or a post-fault test [R294, R399; none] -/
  loadWait : List LoadReq := []
  /-- Where the image of the load in progress lies in host memory, and the SHA-512 of its chunks [R294; none] -/
  imageAt : Reg64 := 0
  imageLen : Nat := 0
  chunks : List (BitVec 512) := []
  /-- The checkpoint limit, ms [R289; 0] -/
  limit : Word := 0
  /-- How the current or last job ended [R287; none] -/
  ended : Option JobEnd := none
  /-- LOG records, oldest first, at most 1,024: X, Y, g1-g4 [R301; none] -/
  logs : List (BitVec 16 × BitVec 16 × List Word) := []
  /-- Panel-group binding: GROUP, EPOCH, root, tree ports [R253, R267; none] -/
  bound : Option GroupBinding := none
  /-- The phase of the power profile [R325; 0] -/
  phase : Nat := 0
  /-- The live seal offer: OFFERSEQ, draw number, offer bytes [R422; none] -/
  offer : Option SealOffer := none
  /-- Sealed secrets: XTS key, image key, link secret, image DIGEST, GROUP; and M_SEAL [R423; none] -/
  secrets : Option Secrets := none
  /-- The determinism hold at the headworks hub [R343; no] -/
  detHold : Bool := false
deriving DecidableEq, Repr

/-! ### Host interface -/

/-- R281: a reply. -/
structure Reply where
  tag : Word
  status : BitVec 16
  queue : BitVec 4
  part : BitVec 8
  intr : Bool
  sqHead : Nat
  detail : List Byte
deriving DecidableEq, Repr

/-- R278, R279: a queue pair. -/
structure QPair where
  valid : Bool := false
  sqBase : Reg64 := 0
  sqLog2 : Nat := 0
  rqBase : Reg64 := 0
  rqLog2 : Nat := 0
  /-- Head and tail of the submission queue, next reply entry, and the HEAD host software wrote [R279, R281; 0] -/
  head : Nat := 0
  tail : Nat := 0
  rqTail : Nat := 0
  rqHead : Nat := 0
  /-- Reply entries written and not yet freed [R283; 0] -/
  unfreed : Nat := 0
  phase : Bool := true
  /-- Replies held while the reply queue is full [R283; none] -/
  heldReplies : List Reply := []
  /-- Commands in execution: the head after their fetch and their 64 bytes [R279, R281; none] -/
  started : List (Nat × List Byte) := []
deriving DecidableEq, Repr

/-- R275-R277: one host die's aperture and queues. -/
structure HostIf where
  /-- `HWD_HAP_STATUS.READY`, 1 bit [R276; 0] -/
  ready : Bool := false
  /-- `HWD_HAP_STATUS.ONEMOD`, 1 bit [R276; 0] -/
  oneMod : Bool := false
  /-- `HWD_HAP_STATUS.ADMERR`, 1 bit [R276; 0] -/
  admErr : Bool := false
  /-- `HWD_HAP_DMAWIN` BASE, SIZE, LOCK [R276; 0] -/
  dmaBase : BitVec 28 := 0
  dmaSize : BitVec 28 := 0
  dmaLock : Bool := false
  /-- `HWD_HAP_ADMSQ`, 64 bits [R277; 0] -/
  admSq : Reg64 := 0
  /-- `HWD_HAP_ADMRQ`, 52 bits used [R277; 0] -/
  admRq : Reg64 := 0
  /-- `HWD_HAP_MSIADDR`, 64 bits [R277; 0] -/
  msiAddr : Reg64 := 0
  /-- `HWD_HAP_MSIDATA`, 32 bits [R277; 0] -/
  msiData : Word := 0
  /-- The 16 queue pairs [R278; none] -/
  queues : Tbl QPair := []
  /-- Both modules of the link have failed [R274; no] -/
  cut : Bool := false
  /-- Doorbell tails that were ignored and recorded [R279; 0] -/
  badTails : Nat := 0
deriving DecidableEq, Repr

/-! ### Faults, recorder, flash, security, panel -/

/-- R389: a fault record. -/
structure FaultRec where
  seq : Word
  source : BitVec 16
  cls : BitVec 3
  injected : Bool := false
  overflow : Bool := false
  cleared : Bool := false
  opened : Bool := true
  /-- A warm or more severe reset has completed since the record opened (R393). -/
  resetSince : Bool := false
  classMap : BitVec 8
  site : BitVec 16 := 0
  unit : BitVec 16 := 0
  part : BitVec 8 := 0xFF
  job : BitVec 8 := 0
  x : BitVec 16 := 0xFFFF
  y : BitVec 16 := 0xFFFF
  merges : BitVec 16 := 0
  localCount : BitVec 64 := 0
  part2 : BitVec 8 := 0xFF
  detail : List Byte := []
deriving DecidableEq, Repr

/-- R406: a recorder record. -/
structure RecRec where
  seq : Word
  kind : BitVec 8
  list : BitVec 8 := 0xFF
  perm : Bool := false
  site : BitVec 16 := 0
  unit : BitVec 16 := 0
  part : BitVec 8 := 0xFF
  job : BitVec 8 := 0
  invalid : BitVec 16 := 0xFFFF
  localCount : BitVec 64 := 0
  related : Word := 0
  suppressed : BitVec 16 := 0
  data : List Byte := []
  snaps : List Reg64 := []
deriving DecidableEq, Repr

/-- R412: `HWD_RECTRIGn`, and what R407 counts for it. -/
structure RecTrigReg where
  kind : BitVec 8 := 0
  enable : Bool := false
  list : BitVec 3 := 0
  filter : BitVec 16 := 0
  suppressed : BitVec 16 := 0
deriving DecidableEq, Repr

/-- R412: `HWD_RECSELm_k`. -/
structure RecSel where
  addr : BitVec 48 := 0
  valid : Bool := false
deriving DecidableEq, Repr

/-- R405-R412: the event recorder. -/
structure Recorder where
  /-- Permanent area, slots 0-255 in order [R405; empty] -/
  perm : List RecRec := []
  /-- Circulating area, newest last, slots 256-511 [R405; empty] -/
  circ : List RecRec := []
  /-- `HWD_REC.NEXT`, 9 bits [R411; 0x000] -/
  next : BitVec 9 := 0
  /-- `HWD_REC.PERMFULL`, 1 bit [R411; 0] -/
  permFull : Bool := false
  /-- `HWD_REC.SUPPRESSED`, 16 bits [R411; 0x0000] -/
  suppressed : BitVec 16 := 0
  /-- `HWD_RECTRIG0`-`31` [R412; 0] -/
  trig : Tbl RecTrigReg := []
  /-- `HWD_RECSELm_k`, key 16m + k [R412; 0] -/
  sel : Tbl RecSel := []
deriving DecidableEq, Repr

/-- R377, R378: a configuration image held in flash. -/
structure Cfg where
  seq : Word := 0
  svn : BitVec 8 := 0
  keys : Tbl Nat := []
  bytes : List Byte := []
deriving DecidableEq, Repr

/-- R359: thermal cycles of one die or stack, and the running state of their count. -/
structure Life where
  bin0 : Word := 0
  bin1 : Word := 0
  bin2 : Word := 0
  /-- Seconds with a hot spot above its throttle point, of which the life report gives whole hours (R360). -/
  hotSecs : Nat := 0
  highest : Int := 0
  started : Bool := false
  rising : Bool := true
  lo : Int := 0
  hi : Int := 0
deriving DecidableEq, Repr

/-- R276, R376, R417: a Velty image: the version and FWSVN that its manifest gives, and its bytes before the signature
block. -/
structure Firmware where
  version : Word := 0
  svn : BitVec 8 := 0
  bytes : List Byte := []
deriving DecidableEq, Repr

/-- R376, R398: what the flash holds. -/
structure Flash where
  /-- The Velty image [R276, R376; From flash: choice 4: version 0, FWSVN 0, no bytes] -/
  fw : Firmware := {}
  /-- Configuration slots A and B, factory defaults [R376; choice 4: empty slots, defaults of R378] -/
  slotA : Option Cfg := none
  slotB : Option Cfg := none
  factory : Cfg := {}
  /-- The retirement list: cores, regions, dies, weirs, stacks, phases, sensors, marked rows [R398; choice 4: empty] -/
  retCores : List (Site × BitVec 10) := []
  retRegions : List (Site × BitVec 6) := []
  retDies : List Site := []
  weirs : List Site := []
  retStacks : List (BitVec 5) := []
  phases : List (Site × BitVec 6 × BitVec 3) := []
  sensors : List (UnitRef × BitVec 5 × BitVec 2) := []
  /-- Retirements decided and waiting, with the source and the SEQ that decided them [R398, R401; none] -/
  pendingRet : List (RetUnit × BitVec 16 × Word) := []
  /-- Dies that a RETIRE command has named [R382, R402; choice 4: none] -/
  named : List Site := []
  /-- Every retirement made, with the source and the SEQ that decided it [R398; choice 4: none] -/
  retLog : List (RetUnit × BitVec 16 × Word) := []
  /-- Counted faults by unit, with the record's SEQ [R398; none] -/
  counted : List (RetUnit × Word) := []
  /-- Words that cores corrected, by 1024 site + core [R399; choice 4: none] -/
  corrected : Tbl Nat := []
  /-- The stored panel sequence number [R388; choice 4: 0] -/
  seq : Word := 0
  /-- Recorder mirror of the permanent area, and the fatal slot [R405; empty] -/
  mirror : List RecRec := []
  fatal : Option RecRec := none
  /-- The coolant samples of the fatal slot, newest first [R355, R405; none] -/
  fatalCool : List (BitVec 16 × Int × Int) := []
  /-- Sensors whose trip came alone, to be retired at the next bring-up [R355; none] -/
  tripped : List (UnitRef × BitVec 5 × BitVec 2) := []
  /-- Thermal counts by unit key, as last flushed [R359; 0] -/
  life : Tbl Life := []
deriving DecidableEq, Repr

/-- R427: a session. -/
structure Session where
  number : Word
  origin : Origin
  rights : BitVec 16
  minutes : BitVec 16
  authorised : Bool := false
  challenge : List Byte := []
deriving DecidableEq, Repr

/-- R430 and chapter 16: the root of trust's state. -/
structure Sec where
  /-- `HWD_SEC.FWC`, 8 bits [R430; Fuses: choice 4: 0] -/
  fwc : BitVec 8 := 0
  /-- `HWD_SEC.CFC`, 8 bits [R430; Fuses: choice 4: 0] -/
  cfc : BitVec 8 := 0
  /-- Owner slots written, SHA-512 of the owner keys, slot 0 first [R420; OTP: choice 4: none] -/
  owners : List (BitVec 512) := []
  /-- Open sessions, at most 4 [R427; none] -/
  sessions : List Session := []
  /-- Draws taken from the random source [chapter 16; 0] -/
  draws : Nat := 0
  /-- Identity private keys are in the key store [R414, R429; no, until bring-up] -/
  identity : Bool := false
deriving DecidableEq, Repr

/-- R373: the power states; PSTATE codes 0-3 in this order. -/
inductive PState where
  | run | idle | regionGated | standby
deriving DecidableEq, Repr

/-- The `PNL_` and `HWD_` registers and the panel-wide state. -/
structure Panel where
  /-- `PNL_ID.VARIANT`, 4 bits [R36; Fuses: choice 4: 0x0] -/
  variant : BitVec 4 := 0
  /-- `PNL_ID.REVISION`, 4 bits [R36; Straps: choice 4: 0x2] -/
  revision : BitVec 4 := 2
  /-- `PNL_ID.WINDOW_START`, 4 bits [R36; Fuses: choice 4: 0x0] -/
  windowStart : BitVec 4 := 0
  /-- `PNL_ID.PANEL_ID`, 16 bits [R36; 0xFFFF] -/
  panelId : BitVec 16 := 0xFFFF
  /-- `PNL_ID.PANEL_ID_LOCK`, 1 bit [R36; 0] -/
  idLock : Bool := false
  /-- `HWD_BOOT.STAGE`, 4 bits [R384; 0x0] -/
  stage : BitVec 4 := 0
  /-- `HWD_BOOT.READY`, 1 bit, and `HWD_HAP_STATUS.PANELREADY` [R384; 0] -/
  ready : Bool := false
  /-- `HWD_BOOT.LASTRESET`, 3 bits, and `HWD_HAP_STATUS.LASTRESET` [R384; 0b000] -/
  lastReset : BitVec 3 := 0
  /-- `HWD_BOOT.CFGSRC`, 2 bits [R384; 0b00] -/
  cfgSrc : BitVec 2 := 0
  /-- `HWD_BOOT.RECOVERY`, 1 bit [R384; 0] -/
  recovery : Bool := false
  /-- `HWD_BOOT.TESTED`, 1 bit [R384; 0] -/
  tested : Bool := false
  /-- `HWD_BOOT.PSTATE`, 2 bits [R384; Run] -/
  pstate : PState := .run
  /-- `HWD_BOOT.RETIRED_AT_TEST`, 16 bits [R384; 0x0000] -/
  retiredAtTest : BitVec 16 := 0
  /-- `HWD_BOOT.BOOTTIME`, 16 bits [R384; 0x0000] -/
  bootTime : BitVec 16 := 0
  /-- The running Velty image, and `HWD_HAP_STATUS.FWVER` [R276, R380; From flash: choice 4: version 0] -/
  fw : Firmware := {}
  /-- `HWD_HAP_STATUS.STOPPED`, 1 bit [R276; 0] -/
  stopped : Bool := false
  /-- Keys of the configuration in force that are not registers [R378; choice 4: defaults] -/
  sparePolicy : Nat := 0
  bootPState : Nat := 0
  testAtWarm : Nat := 0
  /-- `PNL_PWRLIM.LIMIT` as written, 16 bits [R327; From flash: choice 4: 23,000] -/
  limit : BitVec 16 := 23000
  /-- `PNL_PWRSTAT.POWER`, 16 bits [R327; 0x0000] -/
  power : BitVec 16 := 0
  /-- `PNL_PWRSTAT.VIN`, 12 bits, mV [R327; 0x000] -/
  vin : BitVec 12 := 0
  /-- `PNL_PWRSTAT.IIN`, 16 bits, A [R327; 0x0000] -/
  iin : BitVec 16 := 0
  /-- `PNL_PWRSTAT.COARSE`, 1 bit [R327; From flash: choice 4: 0] -/
  coarse : Bool := false
  /-- The limit is cut to 80% by a rail out of tolerance [R307; no] -/
  railCap : Bool := false
  /-- Every regulator is shut down by a fatal fault [R307, R331, R355; no] -/
  dead : Bool := false
  /-- The headworks holds itself in reset [R307, R442; no] -/
  hwdHeld : Bool := false
  /-- `PNL_COOL.FLOW`, 16 bits [R361; 0x0000] -/
  flow : BitVec 16 := 0
  /-- `PNL_COOL.TIN`, 12 bits [R361; 0x000] -/
  tin : BitVec 12 := 0
  /-- `PNL_COOL.TOUT`, 12 bits [R361; 0x000] -/
  tout : BitVec 12 := 0
  /-- `PNL_COOL.STATE`, 3 bits [R361; 0b000] -/
  coolState : BitVec 3 := 0
  /-- The last 16 samples of flow and coolant temperatures, newest first [R355; none] -/
  coolSamples : List (BitVec 16 × Int × Int) := []
  /-- The flow cap in eighths [R353; 8/8] -/
  flowCap : Nat := 8
  /-- Successive 1 ms samples in which the coolant met the condition of a clear, up to 10 s [R354; 0] -/
  coolGood : Nat := 0
  /-- Successive 1 ms samples of a coolant warning, modulo a minute [R352; 0] -/
  coolWarn : Nat := 0
  /-- Hot spot temperatures of every die in 1/16 degrees, spot h of a unit at key 32 unit + h; on a compute die logic 0-15,
  array 16-19 [R349; choice 4: 0] -/
  spots : Tbl Int := []
  /-- The previous sample of each sensor, sensor w of spot h of a unit at key 96 unit + 3h + w [R349; choice 4: none] -/
  sensors : Tbl (Option Int) := []
  /-- Hot spots whose spread has been recorded in the present job [R349; none] -/
  spreadTold : List (UnitRef × BitVec 5) := []
  /-- `HWD_HANGCFG.THRESH` as written, 14 bits [R411; From flash: choice 4: 100] -/
  thresh : BitVec 14 := 100
  /-- `HWD_HANGCFG.HANGS`, 16 bits [R411; 0x0000] -/
  hangs : BitVec 16 := 0
  /-- `HWD_REC.SEQ`: the next panel sequence number [R411; From flash: choice 4: 1] -/
  seq : Word := 1
  /-- `CD_HBMCFG.LIVE` of every die, 32 bits [R240; From flash: choice 4: 0 until bring-up] -/
  liveStacks : BitVec 32 := 0
  /-- PANEL_RST_N is low [R442; no] -/
  rstLow : Bool := false
  /-- The pair that holds each role 0-5 of R270 [R270; role r on pair r] -/
  roles : List (Option (BitVec 3)) := [some 0, some 1, some 2, some 3, some 4, some 5]
  /-- Pairs stopped by their comparator [R271; none] -/
  deadPairs : List (BitVec 3) := []
  /-- The queue that the next fetch of Velty's round robin serves first [R279; choice 3: 0] -/
  fetchNext : Nat := 0
  /-- The panel route table: local ports by DPANEL bits 11:0 [R250; choice 3: empty] -/
  routes : Tbl (List (BitVec 6)) := []
  /-- IODs and laser source dies that have failed as a unit, and host-die straps [R311; none] -/
  failedUnits : List UnitRef := []
  /-- A strap or fuse fault stopped the bring-up and is reported on the management port [R25, R363; no] -/
  strapFault : Bool := false
  /-- Straps of the IODs, 16 bits and three check bits by instance [R26; Sampled: choice 4: 0] -/
  iodStraps : Tbl (BitVec 19) := []
  /-- PLDM events that wait to be read; MGMT_ALERT_N is low while there is one [R303, R358; none] -/
  pldm : List (BitVec 16) := []
  /-- The coolant demand hint: predicted panel heat, W [R358; choice 4: 0] -/
  hint : Nat := 0
  /-- The time until that phase begins, ms [R358; choice 4: 0] -/
  hintMs : Nat := 0
  /-- The MCTP endpoint ID [R303; choice 4: 0] -/
  eid : BitVec 8 := 0
  /-- Transit-domain clock and freeboard of each die, by site key [R332, R346; as a region] -/
  transit : Tbl Region := []
  /-- Rows whose spare engagement is ordered and waits [R19, R402; none] -/
  engage : List (BitVec 4) := []
  /-- Links under a hold of a spare engagement, 4 × site + edge [R402; none] -/
  holds : List Nat := []
  /-- Regions switched on in the current wave [R315; none] -/
  wave : List (Site × BitVec 6) := []
deriving DecidableEq, Repr

/-! ### The machine -/

/-- R178, R370: a reset that takes its time: of a partition, or of a die, which exchanges digests with its neighbours. -/
inductive ResetJob where
  | levee (part : Nat) (h : Cmd)
  | die (site : Nat) (digestsMatch : BitVec 4) (h : Cmd)
deriving DecidableEq, Repr

/-- The whole panel, and the queue of commands that wait. -/
structure State where
  /-- The commands that wait, first in, first out [the block's own; empty] -/
  pending : List Instr := []
  /-- The model's own counter: free values drawn so far [choice 8: 0] -/
  free : Nat := 0
  /-- Every scratchpad and HBM byte by its panel address; an unlisted one is 0 [R29, R41, R141, R239; nothing listed] -/
  mem : List Host.Cell := []
  /-- Host-die memory, address a of host die h at 2^64 h + a [R272; choice 5: nothing listed] -/
  hostMem : List Host.Cell := []
  /-- Cores by 512 Y + X [R27, R40; as `Core`] -/
  cores : Tbl Core := []
  /-- Data-network routers by 512 Y + X [R147; as `Router`] -/
  routers : Tbl Router := []
  /-- Compute dies by physical site, 16 row + column [R11; as `Die`] -/
  dies : Tbl Die := []
  /-- Regions by 64 site + region [R309; as `Region`] -/
  regions : Tbl Region := []
  /-- Die edges by 4 site + edge [R181; as `Edge`] -/
  edges : Tbl Edge := []
  /-- The 12 site maps by row [R18; as `SiteMap`] -/
  rows : Tbl SiteMap := []
  /-- Culvert groups by 8 site + group [R240; as `Culv`] -/
  culv : Tbl Culv := []
  /-- The 8 memory-side dies [R10; as `Msd`] -/
  msds : Tbl Msd := []
  /-- The 32 HBM stacks [R241; as `Stack`] -/
  hbm : Tbl Stack := []
  /-- Tags of the 256-byte units by HBM address / 256 [R234; erased] -/
  tags : Tbl UnitTag := []
  /-- Wrong bytes of stored blocks by HBM address / 64 [R234, R394; none] -/
  hbmErr : Tbl HbmErr := []
  /-- The 72 bytes of blocks that stand in the stacks as a host gave them, by HBM address / 64 [R231; none] -/
  given : Tbl (List Byte) := []
  /-- Hard repairs of the stacks beside those they came with [R238, R241; none] -/
  hardRows : Tbl (List HbmRow) := []
  /-- The 64 inter-panel ports [R268; as `Port`] -/
  ports : Tbl Port := []
  /-- The sync ring port [R269] -/
  ring : Ring := {}
  /-- The shadow bindings of the partitions [R265, R269, R431; as `Shadow`] -/
  shadows : Tbl Shadow := []
  /-- The partition whose binding `HWD_SHADOW` shows: the last one bound [R269; choice 3: 0] -/
  shadowShown : Nat := 0
  /-- R256: at the end corners of link collectors, by 4096 part + flume: words from the upstream panel, and this panel's own
  results [none] -/
  linkIn : Tbl (List FlumeFlit) := []
  linkCol : Tbl (List FlumeFlit) := []
  /-- The 64 barrier groups [R206; as `BGroup`] -/
  groups : Tbl BGroup := []
  /-- The 16 partitions [R285; as `Part`] -/
  parts : Tbl Part := []
  /-- The two host dies' interfaces [R275; as `HostIf`] -/
  hosts : Tbl HostIf := []
  /-- Outstanding wait commands [R284; none] -/
  waiters : List (WaitKind × Cmd) := []
  /-- Commands taken from the management port and in execution [R303; none] -/
  mgmtStarted : List (List Byte × List Byte) := []
  /-- Replies sent on the management port, newest first, with their payload [R303; none] -/
  mgmtOut : List (Reply × List Byte) := []
  /-- Commands that have been fetched and not yet carried out, oldest first, with their 64 bytes [R279, R280; none] -/
  fetched : List (Cmd × List Byte) := []
  /-- Resets that are going on, oldest first [R178, R370; none] -/
  resets : List ResetJob := []
  /-- Control requests that hold a reply slot [R174; none] -/
  ctlOut : List CtlHdr := []
  /-- Control replies on their way: header, status, data [R173; none] -/
  ctlReplies : List (CtlHdr × BitVec 8 × Option Reg64) := []
  /-- Acknowledgements on their way [R158; none] -/
  acks : List AckMsg := []
  /-- Reports that have not reached the collector, oldest first [R388; none] -/
  reports : List Report := []
  /-- The fault records, oldest first, at most 4,096 [R391; none] -/
  faults : List FaultRec := []
  /-- The event recorder [R405] -/
  recorder : Recorder := {}
  /-- The flash [R376] -/
  flash : Flash := {}
  /-- The root of trust [chapter 16] -/
  sec : Sec := {}
  /-- Thermal cycle counts in the die agents, by unit key [R359; 0] -/
  life : Tbl Life := []
  /-- Panel-wide registers -/
  panel : Panel := {}
deriving DecidableEq, Repr

/-- The panel right after power-on, before bring-up: every field at the value its docstring gives. [DESIGN CHOICE, log 3; DESIGN CHOICE, log 4; DESIGN CHOICE, log 8] -/
def State.reset : State := {}

end Sys2Proof.Machine
end

