-- ==== Sys2Proof/Machine/Ops.lean ====
section
/-!
DEFINITION. The named operations that every family shares: sparse tables, bytes and fields of words, byte memory, the
panel's geometry (chapter 01), the units of the state by their keys, reports to the fault collector, and what a trap
and a hardware fault do to a core (R76, R78).
-/

namespace Sys2Proof.Machine

/-! ### Tables -/

/-- The entry of a table at a key, or the table's default. -/
def tget {α : Type} (d : α) : Tbl α → Nat → α
  | [], _ => d
  | (k', v) :: t, k => if k' = k then v else tget d t k

/-- A table without the entry of a key. -/
def tdel {α : Type} : Tbl α → Nat → Tbl α
  | [], _ => []
  | (k', v) :: t, k => if k' = k then tdel t k else (k', v) :: tdel t k

/-- A table with an entry put in its place in key order. -/
def tput {α : Type} : Tbl α → Nat → α → Tbl α
  | [], k, v => [(k, v)]
  | (k', v') :: t, k, v =>
    if k < k' then (k, v) :: (k', v') :: t
    else if k = k' then (k, v) :: t
    else (k', v') :: tput t k v

/-- A table with one entry changed; an entry equal to the default is not listed. -/
def tset {α : Type} [DecidableEq α] (d : α) (t : Tbl α) (k : Nat) (v : α) : Tbl α :=
  if v = d then tdel t k else tput t k v

/-- A table of lists with elements added at the end of one entry. -/
def tpush {α : Type} [DecidableEq α] (t : Tbl (List α)) (k : Nat) (vs : List α) : Tbl (List α) :=
  tset [] t k (tget [] t k ++ vs)

/-- A table with every entry changed by a function of its key. -/
def tmap {α : Type} [DecidableEq α] (d : α) (f : Nat → α → α) (t : Tbl α) : Tbl α :=
  t.foldl (fun t' e => tset d t' e.1 (f e.1 (tget d t e.1))) t

/-- A table without the entries that fail a test on their keys. -/
def tkeep {α : Type} (p : Nat → Bool) (t : Tbl α) : Tbl α := t.filter fun e => p e.1

/-! ### Words and bytes -/

/-- Bits `lo` to `lo + n - 1` of a number. -/
def bits (v lo n : Nat) : Nat := v / 2 ^ lo % 2 ^ n

/-- Bit `i` of a number. -/
def bit (v i : Nat) : Bool := v / 2 ^ i % 2 == 1

/-- One bit as a number. -/
def b2n (b : Bool) : Nat := if b then 1 else 0

/-- The low bytes of a number, least significant first (chapter 00, notation). -/
def bytesOf : Nat → Nat → List Byte
  | 0, _ => []
  | n + 1, v => BitVec.ofNat 8 v :: bytesOf n (v / 256)

/-- The number that little-endian bytes spell. -/
def natOf : List Byte → Nat
  | [] => 0
  | b :: bs => b.toNat + 256 * natOf bs

/-- `n` bytes from byte `lo` of a list, 0 past its end, as a number. -/
def fieldOf (bs : List Byte) (lo n : Nat) : Nat := natOf ((bs.drop lo).take n)

/-- A list with `bs` written over the bytes from `lo` on. -/
def patch (l : List Byte) (lo : Nat) (bs : List Byte) : List Byte :=
  l.take lo ++ bs ++ l.drop (lo + bs.length)

/-- A number clamped into a range. -/
def clamp (lo hi v : Nat) : Nat := max lo (min hi v)

/-- A counter that saturates. -/
def satInc {w : Nat} (v : BitVec w) (by_ : Nat := 1) : BitVec w :=
  BitVec.ofNat w (min (2 ^ w - 1) (v.toNat + by_))

/-- Addition of a signed 32-bit offset to a number; none when the sum leaves `0 ≤ sum < limit` (R56). -/
def addOff (v : Nat) (g : Word) (limit : Nat) : Option Nat :=
  let t := (v : Int) + g.toInt
  if 0 ≤ t ∧ t < (limit : Int) then some t.toNat else none

/-- Remove the first element equal to `a`. -/
def eraseOne {α : Type} [DecidableEq α] (a : α) : List α → List α
  | [] => []
  | b :: l => if b = a then l else b :: eraseOne a l

/-- The list cut into pieces of `n`, by fuel. -/
def pieces {α : Type} (n : Nat) : Nat → List α → List (List α)
  | 0, _ => []
  | _, [] => []
  | fuel + 1, l => l.take n :: pieces n fuel (l.drop n)

/-- The element at an index, or a default. -/
def nth {α : Type} (d : α) (l : List α) (i : Nat) : α := (l[i]?).getD d

/-! ### Byte memory -/

/-- The byte at an address; an unlisted one is 0 (R41, R141, R239). [DESIGN CHOICE, log 5] -/
def memGet (m : List Host.Cell) (a : Nat) : Byte := tget 0 m a

/-- Write one byte. -/
def memSet (m : List Host.Cell) (a : Nat) (b : Byte) : List Host.Cell := tset 0 m a b

/-- `n` bytes from an address. -/
def memRead (m : List Host.Cell) (a : Nat) : Nat → List Byte
  | 0 => []
  | n + 1 => memGet m a :: memRead m (a + 1) n

/-- Write bytes from an address on. -/
def memWrite (m : List Host.Cell) (a : Nat) : List Byte → List Host.Cell
  | [] => m
  | b :: bs => memWrite (memSet m a b) (a + 1) bs

/-- Forget every byte from `a` on for which the test holds: it reads as 0 again. -/
def memDrop (m : List Host.Cell) (p : Nat → Bool) : List Host.Cell := m.filter fun e => !p e.1

/-- Strictly rising addresses. -/
def keysRise {α : Type} : List (Nat × α) → Bool
  | [] => true
  | [_] => true
  | (a, _) :: (b, v) :: t => decide (a < b) && keysRise ((b, v) :: t)

/-- The canonical form of memory: rising addresses and no entry equal to what an unlisted address reads as. -/
def Memory.wf (m : List Host.Cell) : Bool := keysRise m && m.all fun e => e.2 != 0

/-! ### Geometry: chapter 01 -/

/-- R1: the variant's logical columns. A code that is not shipped is taken as the smallest. [DESIGN CHOICE, log 53] -/
def State.lcols (s : State) : Nat :=
  match s.panel.variant.toNat with
  | 0 => 12
  | 1 => 10
  | _ => 8

/-- R1: the variant's HBM stacks. -/
def State.stackCount (s : State) : Nat :=
  match s.panel.variant.toNat with
  | 0 => 32
  | 1 => 24
  | _ => 16

/-- R1: the variant's inter-panel ports. -/
def State.portCount (s : State) : Nat :=
  match s.panel.variant.toNat with
  | 0 => 64
  | 1 => 48
  | _ => 32

/-- R24, R311: a port's IOD has not failed. -/
def State.iodUp (s : State) (n : Nat) : Bool := !s.panel.failedUnits.contains ⟨2, BitVec.ofNat 4 (n / 8), 15⟩

/-- R27: whether the variant's grid has the core. -/
def State.coreOk (s : State) (c : CoreRef) : Bool :=
  decide (c.x.toNat < 32 * s.lcols) && decide (c.y.toNat < 384)

/-- R13: whether a physical site lies in the column window. -/
def State.siteOk (s : State) (d : Site) : Bool :=
  decide (d.row.toNat < 12) && decide (s.panel.windowStart.toNat ≤ d.col.toNat) &&
    decide (d.col.toNat ≤ s.panel.windowStart.toNat + s.lcols)

/-- The table key of a physical site. -/
def siteKey (d : Site) : Nat := 16 * d.row.toNat + d.col.toNat

/-- The site of a key. -/
def siteOfKey (k : Nat) : Site := ⟨BitVec.ofNat 4 (k / 16), BitVec.ofNat 4 k⟩

/-- The table key of a core: its logical coordinates (R28). -/
def coreKey (c : CoreRef) : Nat := 512 * c.y.toNat + c.x.toNat

/-- The core of a key. -/
def coreOfKey (k : Nat) : CoreRef := ⟨BitVec.ofNat 9 k, BitVec.ofNat 9 (k / 512)⟩

/-- R27: logical die row and column of a core, and its place in the die. -/
def dieRow (c : CoreRef) : Nat := c.y.toNat / 32
def dieCol (c : CoreRef) : Nat := c.x.toNat / 32

/-- R28: the core index within its die. -/
def coreIndex (c : CoreRef) : Nat := 32 * (c.y.toNat % 32) + c.x.toNat % 32

/-- R309: the region (4 x 4 cores, eight to a region row) of a core index. -/
def regionOfIndex (i : Nat) : Nat := 8 * (i / 32 / 4) + i % 32 / 4

/-- R18: LCOL of a row, field c. -/
def State.lcolField (s : State) (row col : Nat) : Nat :=
  bits (tget ({} : SiteMap) s.rows row).lcol.toNat (4 * col) 4

/-- R18, R19, R21: the site key that serves a logical die; none when the die does not exist or is absent, which a retired
die's position is until the spare is engaged. -/
def State.dieAt (s : State) (row col : Nat) : Option Nat :=
  if row < 12 ∧ col < s.lcols then
    let k := s.lcolField row col
    if k = 15 ∨ (tget ({} : Die) s.dies (16 * row + k)).retired then none else some (16 * row + k)
  else none

/-- R14, R21: the site key at a logical column's place in its row; the site of an absent die keeps its place. -/
def State.siteAt (s : State) (row col : Nat) : Option Nat :=
  if row < 12 ∧ col < s.lcols then
    let k := s.lcolField row col
    let place := s.panel.windowStart.toNat + col
    let left := (tget ({} : SiteMap) s.rows row).leftOut.toNat
    some (16 * row + (if k ≠ 15 then k else if place < left then place else place + 1))
  else none

/-- R14: the logical column at whose place a physical site stands. -/
def State.placeOf (s : State) (site : Nat) : Option Nat :=
  (List.range s.lcols).find? fun c => s.siteAt (site / 16) c == some site

/-- R12, R21: an absent die whose transit has failed: horizontal traffic passes it through its weir. -/
def State.bypassed (s : State) (row col : Nat) : Bool :=
  (s.dieAt row col).isNone &&
    (match s.siteAt row col with
      | some d => (tget ({} : Die) s.dies d).transitFailed
      | none => false)

/-- The logical column that a physical site serves. -/
def State.colOf (s : State) (site : Nat) : Option Nat :=
  (List.range s.lcols).find? fun c => s.lcolField (site / 16) c == site % 16

/-- The site key of the die of a core. -/
def State.dieOf (s : State) (c : CoreRef) : Option Nat := s.dieAt (dieRow c) (dieCol c)

/-- The core of an index on a physical site. -/
def State.coreAt (s : State) (site index : Nat) : Option CoreRef :=
  (s.colOf site).map fun col =>
    ⟨BitVec.ofNat 9 (32 * col + index % 32), BitVec.ofNat 9 (32 * (site / 16) + index / 32)⟩

/-- R389: a compute site in the layout of strap bits 15:5. -/
def siteWord (site : Nat) : BitVec 16 := BitVec.ofNat 16 (256 * site)

/-- R389: a unit in the layout of strap bits 15:5. -/
def unitWord (u : UnitRef) : BitVec 16 :=
  BitVec.ofNat 16 (4096 * u.row.toNat + 256 * u.col.toNat + 32 * u.kind.toNat)

/-- The table key of a unit; that of a compute die is its site's. -/
def unitKey (u : UnitRef) : Nat := 256 * u.kind.toNat + 16 * u.row.toNat + u.col.toNat

/-- R29: the panel address of a scratchpad byte. -/
def spAddr (c : CoreRef) (off : Nat) : Nat := 2 ^ 47 + c.x.toNat * 2 ^ 37 + c.y.toNat * 2 ^ 28 + off

/-- R127: the bank of a scratchpad offset. -/
def bankOf (off : Nat) : Nat := off / 64 % 16

/-- R127, R136: the 13-bit row index of a scratchpad offset. -/
def rowOf (off : Nat) : Nat := off / 64

/-! ### Units of the state -/

def State.core (s : State) (c : CoreRef) : Core := tget {} s.cores (coreKey c)
def State.setCore (s : State) (c : CoreRef) (k : Core) : State :=
  { s with cores := tset {} s.cores (coreKey c) k }
def State.router (s : State) (c : CoreRef) : Router := tget {} s.routers (coreKey c)
def State.setRouter (s : State) (c : CoreRef) (r : Router) : State :=
  { s with routers := tset {} s.routers (coreKey c) r }
def State.die (s : State) (k : Nat) : Die := tget {} s.dies k
def State.setDie (s : State) (k : Nat) (d : Die) : State := { s with dies := tset {} s.dies k d }
def State.region (s : State) (d n : Nat) : Region := tget {} s.regions (64 * d + n)
def State.setRegion (s : State) (d n : Nat) (r : Region) : State :=
  { s with regions := tset {} s.regions (64 * d + n) r }
def State.edge (s : State) (d n : Nat) : Edge := tget {} s.edges (4 * d + n)
def State.setEdge (s : State) (d n : Nat) (e : Edge) : State :=
  { s with edges := tset {} s.edges (4 * d + n) e }
def State.row (s : State) (n : Nat) : SiteMap := tget {} s.rows n
def State.setRow (s : State) (n : Nat) (m : SiteMap) : State := { s with rows := tset {} s.rows n m }
def State.culvert (s : State) (d n : Nat) : Culv := tget {} s.culv (8 * d + n)
def State.setCulvert (s : State) (d n : Nat) (g : Culv) : State :=
  { s with culv := tset {} s.culv (8 * d + n) g }
def State.msd (s : State) (n : Nat) : Msd := tget {} s.msds n
def State.setMsd (s : State) (n : Nat) (m : Msd) : State := { s with msds := tset {} s.msds n m }
def State.stack (s : State) (n : Nat) : Stack := tget {} s.hbm n
def State.setStack (s : State) (n : Nat) (k : Stack) : State := { s with hbm := tset {} s.hbm n k }

/-- The shadow binding of a partition. -/
def State.shadow (s : State) (n : Nat) : Shadow := tget {} s.shadows n
def State.setShadow (s : State) (n : Nat) (sh : Shadow) : State := { s with shadows := tset {} s.shadows n sh }
def State.port (s : State) (n : Nat) : Port := tget {} s.ports n
def State.setPort (s : State) (n : Nat) (p : Port) : State := { s with ports := tset {} s.ports n p }
def State.group (s : State) (n : Nat) : BGroup := tget {} s.groups n
def State.setGroup (s : State) (n : Nat) (g : BGroup) : State := { s with groups := tset {} s.groups n g }
def State.part (s : State) (n : Nat) : Part := tget {} s.parts n
def State.setPart (s : State) (n : Nat) (p : Part) : State := { s with parts := tset {} s.parts n p }
def State.host (s : State) (second : Bool) : HostIf := tget {} s.hosts (b2n second)
def State.setHost (s : State) (second : Bool) (h : HostIf) : State :=
  { s with hosts := tset {} s.hosts (b2n second) h }

/-- Change one core. -/
def State.onCore (s : State) (c : CoreRef) (f : Core → Core) : State := s.setCore c (f (s.core c))
/-- Change one die. -/
def State.onDie (s : State) (k : Nat) (f : Die → Die) : State := s.setDie k (f (s.die k))
/-- Change one partition. -/
def State.onPart (s : State) (n : Nat) (f : Part → Part) : State := s.setPart n (f (s.part n))
/-- Change the panel-wide state. -/
def State.onPanel (s : State) (f : Panel → Panel) : State := { s with panel := f s.panel }
/-- Take the next free value's number. [DESIGN CHOICE, log 8] -/
def State.tick (s : State) : State := { s with free := s.free + 1 }
/-- Write bytes at a panel address. -/
def State.store (s : State) (a : Nat) (bs : List Byte) : State := { s with mem := memWrite s.mem a bs }

/-- R285: whether a partition's rectangle holds a logical die. -/
def Part.holds (p : Part) (row col : Nat) : Bool :=
  decide (p.state ≠ .free) && decide (p.row ≤ row) && decide (row < p.row + p.rows) &&
    decide (p.col ≤ col) && decide (col < p.col + p.cols)

/-- The partition that holds a logical die. -/
def State.partOfDie (s : State) (row col : Nat) : Option Nat :=
  (List.range 16).find? fun n => (s.part n).holds row col

/-- The partition that holds a physical site. -/
def State.partOfSite (s : State) (site : Nat) : Option Nat :=
  (s.colOf site).bind fun col => s.partOfDie (site / 16) col

/-- The logical dies of a partition, row by row. -/
def Part.dies (p : Part) : List (Nat × Nat) :=
  (List.range p.rows).flatMap fun r => (List.range p.cols).map fun c => (p.row + r, p.col + c)

/-- The site keys of a partition's dies. -/
def State.partSites (s : State) (n : Nat) : List Nat :=
  (s.part n).dies.filterMap fun d => s.dieAt d.1 d.2

/-- Whether a core lies in a partition's rectangle. -/
def Part.hasCore (p : Part) (c : CoreRef) : Bool := p.holds (dieRow c) (dieCol c)

/-- Keys of the listed cores inside a partition's rectangle. -/
def State.partCores (s : State) (n : Nat) : List CoreRef :=
  (s.cores.map fun e => coreOfKey e.1).filter fun c => (s.part n).hasCore c

/-! ### Registers of a core (R40) -/

/-- g0 reads as zero. -/
def Core.getG (k : Core) (r : BitVec 5) : Word := if r = 0 then 0 else tget 0 k.g r.toNat
/-- A write to g0 is discarded. -/
def Core.setG (k : Core) (r : BitVec 5) (v : Word) : Core :=
  if r = 0 then k else { k with g := tset 0 k.g r.toNat v }
/-- Lane `l` of v`r`. -/
def Core.getV (k : Core) (r l : Nat) : Word := tget 0 k.v (32 * r + l)
def Core.setV (k : Core) (r l : Nat) (x : Word) : Core := { k with v := tset 0 k.v (32 * r + l) x }
/-- All lanes of v`r`, lane 0 first. -/
def Core.lanes (k : Core) (r : Nat) : List Word := (List.range 32).map fun l => k.getV r l
/-- Write the lanes of v`r` from lane `l` on. -/
def Core.setLanes (k : Core) (r : Nat) : Nat → List Word → Core
  | _, [] => k
  | l, x :: xs => Core.setLanes (k.setV r l x) r (l + 1) xs
def Core.getD (k : Core) (r : Nat) : BitVec 128 := tget 0 k.d r
def Core.setD (k : Core) (r : Nat) (x : BitVec 128) : Core := { k with d := tset 0 k.d r x }
def Core.counter (k : Core) (n : BitVec 6) : Counter := tget {} k.ccnt n.toNat
def Core.setCounter (k : Core) (n : BitVec 6) (c : Counter) : Core :=
  { k with ccnt := tset {} k.ccnt n.toNat c }
def Core.chan (k : Core) (n : BitVec 4) : SyncChan := tget {} k.sync n.toNat
def Core.setChan (k : Core) (n : BitVec 4) (c : SyncChan) : Core :=
  { k with sync := tset {} k.sync n.toNat c }
def Core.bank (k : Core) (n : Nat) : Bank := tget {} k.banks n
def Core.setBank (k : Core) (n : Nat) (b : Bank) : Core := { k with banks := tset {} k.banks n b }
def Core.endpoint (k : Core) (n : BitVec 3) : FlumeEp := tget {} k.ep n.toNat
def Core.setEndpoint (k : Core) (n : BitVec 3) (e : FlumeEp) : Core :=
  { k with ep := tset {} k.ep n.toNat e }
def Core.slot (k : Core) (n : BitVec 4) : AckSlot := tget {} k.slots n.toNat
def Core.setSlot (k : Core) (n : BitVec 4) (a : AckSlot) : Core :=
  { k with slots := tset {} k.slots n.toNat a }

/-- `CORE_PART` fields (R68). -/
def Core.orgRow (k : Core) : Nat := bits k.partReg.toNat 0 4
def Core.orgCol (k : Core) : Nat := bits k.partReg.toNat 4 4
def Core.partRows (k : Core) : Nat := bits k.partReg.toNat 8 4
def Core.partCols (k : Core) : Nat := bits k.partReg.toNat 12 4
def Core.partNo (k : Core) : BitVec 4 := BitVec.ofNat 4 (bits k.partReg.toNat 16 4)

/-- R31: a core of the own partition. -/
def Core.inPart (k : Core) (x y : Nat) : Bool :=
  decide (32 * k.orgCol ≤ x) && decide (x < 32 * (k.orgCol + k.partCols)) &&
    decide (32 * k.orgRow ≤ y) && decide (y < 32 * (k.orgRow + k.partRows))

/-- R395: the progress counter counts. -/
def Core.progressed (k : Core) : Core := { k with progress := k.progress + 1 }

/-- R145: the bank of an offset is powered, zeroised and reachable. -/
def Core.bankOn (k : Core) (off : Nat) : Bool := k.powered.getLsbD (bankOf off)

/-- Every bank that `len` bytes from `off` touch is reachable; the range lies in the scratchpad. -/
def Core.rangeOn (k : Core) (off len : Nat) : Bool :=
  decide (off + len ≤ 2 ^ 19) &&
    (List.range (min 16 ((off + len + 63) / 64 - off / 64))).all fun i =>
      k.powered.getLsbD ((off / 64 + i) % 16)

/-! ### Reports -/

/-- R388: a unit reports a fault; the die agent samples its transit counter. [DEDUCED, log 20] -/
def State.report (s : State) (r : Report) : State :=
  { s with reports := s.reports ++ [{ r with localCount := Config.localCount s.free }], free := s.free + 1 }

/-- The partition, or 0xFF for none, as records name it. -/
def partByte (p : Option Nat) : BitVec 8 := (p.map (BitVec.ofNat 8)).getD 0xFF

/-- The report of a die or of a unit of a die. -/
def State.dieReport (s : State) (site unit : Nat) (source : BitVec 16) : Report :=
  { source, site := siteWord site, unit := BitVec.ofNat 16 unit, part := partByte (s.partOfSite site),
    job := (s.die site).job }

/-- A list without repeats. -/
def distinct {α : Type} [DecidableEq α] : List α → List α
  | [] => []
  | a :: l => if a ∈ l then distinct l else a :: distinct l

/-- R389: a record names at most two partitions: a report for each pair; none named, 0xFF. -/
def State.reportParts (r : Report) : List (BitVec 8) → State → State
  | [], s => s.report { r with part := 0xFF }
  | [a], s => s.report { r with part := a }
  | [a, b], s => s.report { r with part := a, part2 := b }
  | a :: b :: rest, s => State.reportParts r rest (s.report { r with part := a, part2 := b })

/-- The report of a core. [DEDUCED, log 57] -/
def State.coreReport (s : State) (c : CoreRef) (source : BitVec 16) : Report :=
  let site := (s.dieOf c).getD 0
  { s.dieReport site (coreIndex c) source with
    part := partByte (s.partOfDie (dieRow c) (dieCol c))
    x := c.x.setWidth 16, y := c.y.setWidth 16 }

/-- R389: DETAIL of a class-4 source: status, then CODE. -/
def statusDetail (status code : BitVec 16) : List Byte := bytesOf 2 status.toNat ++ bytesOf 2 code.toNat

/-- A report that ends the partition's job with a status (R385 class 4). -/
def State.endReport (s : State) (c : CoreRef) (source status code : BitVec 16) : Report :=
  { s.coreReport c source with status, code, detail := statusDetail status code }

/-- R78: the core stops at once, discards its queued engine instructions and enters the faulted state. -/
def Core.faultStop (k : Core) : Core :=
  { k with mode := .faulted, wait := .none, halting := none, tq := [], nq := [], cq := [], copies := [],
           service := .none }

/-- R78: a hardware fault of a core, reported by its die agent. -/
def State.coreFault (s : State) (c : CoreRef) (r : Report) : State :=
  (s.onCore c Core.faultStop).report r

/-! ### Traps -/

/-- R76 steps 3 and 5: the trap CSRs, and a core that its runtime leaves trapped. -/
def Core.trapped (k : Core) (cause : BitVec 6) (val : Word) : Core :=
  { k with trapCause := cause, trapPc := k.pc.setWidth 32, trapVal := val, mode := .trapped, wait := .none }

/-- R76 step 5: the runtime's trap record: the physical and the logical core, the cause, `CORE_TRAPPC` and
`CORE_TRAPVAL`. It ends the job with 0x0310 (R77). -/
def State.trapRecord (s : State) (c : CoreRef) (cause : BitVec 6) (val : Word) : Report :=
  { s.endReport c 0x0104 0x0310 (cause.setWidth 16) with trapPc := (s.core c).pc.setWidth 32, trapVal := val }

/-- R76 step 5, R77: a trap of the program. -/
def State.trap (s : State) (c : CoreRef) (cause : BitVec 6) (val : Word) : State :=
  (s.onCore c fun k => k.trapped cause val).report (s.trapRecord c cause val)

/-- The trap causes of R75. -/
def causeIllegal : BitVec 6 := 0x01
def causeIAddr : BitVec 6 := 0x02
def causeMisaligned : BitVec 6 := 0x03
def causeAddress : BitVec 6 := 0x04
def causeCsr : BitVec 6 := 0x05
def causeUnbound : BitVec 6 := 0x06
def causeSyncOrder : BitVec 6 := 0x07
def causeDescriptor : BitVec 6 := 0x08
def causeService : BitVec 6 := 0x10
def causeDebug : BitVec 6 := 0x11

/-! ### Issue -/

/-- What an instruction at issue comes to. -/
inductive Issue where
  /-- It issues: the panel outside the core, the core, and the next PC. -/
  | done (s : State) (k : Core) (pc : BitVec 19)
  /-- It takes a trap (R75). -/
  | trap (cause : BitVec 6) (val : Word)
  /-- It waits (R63), the core's state changed as given. -/
  | wait (s : State) (k : Core) (w : WaitOn)
  /-- It does not issue in this cycle, and nothing changes. -/
  | stall
  /-- It ended the core's run in another way: the whole next state (R78, R74). -/
  | over (s : State)

/-- R73, R76, R69: the core can issue an instruction: it runs, or it is in its runtime with no service pending, or it
asks again for a place in an engine queue (R63). -/
def Core.canIssue (k : Core) : Bool :=
  k.halting == none &&
    (match k.mode with
     | .run => true
     | .runtime => decide (k.service = .none)
     | .wait => decide (k.wait = .tensorQueue ∨ k.wait = .netQueue ∨ k.wait = .copyQueue)
     | _ => false)

/-- R322: the current cap in eighths of the draw at full duty (`CAP` is in 50 mA); the logic rail limits nothing. -/
def Region.currentCap (r : Region) : Nat :=
  if r.state = .own ∧ 50 * r.cap.toNat < r.draw then 50 * r.cap.toNat * 8 / r.draw else 8

/-- R318, R319, R323: the region's duty, the lowest of its caps in eighths; 0 while it moves to the logic rail. -/
def Region.duty (r : Region) : Nat :=
  if r.transfer then 0 else min r.currentCap (min r.thermalCap r.budgetCap)

/-- R44, R310, R318: the core's clock runs: its die is clocked, its region is supplied, and the duty is not 0. -/
def State.clocked (s : State) (c : CoreRef) : Bool :=
  match s.dieOf c with
  | none => false
  | some d =>
    let r := s.region d (regionOfIndex (coreIndex c))
    (s.die d).clocks && decide (r.state = .own ∨ r.state = .logic) && decide (0 < r.duty)

/-- The core can issue an instruction now. -/
def State.mayIssue (s : State) (c : CoreRef) : Bool :=
  (s.core c).canIssue && !(s.core c).debugStop && s.clocked c

/-- R43: the instruction buffer uses the line of an offset: it becomes the most recently used. -/
def Core.touchLine (k : Core) (line : BitVec 13) : Core :=
  if k.ibuf.contains line then { k with ibuf := line :: eraseOne line k.ibuf } else k

/-- R69: an instruction that issues ends a wait on an engine queue. [DESIGN CHOICE, log 10] -/
def Core.issued (k : Core) : Core :=
  { k.touchLine (BitVec.ofNat 13 (k.pc.toNat / 64)) with
    mode := if k.mode = .wait then .run else k.mode
    wait := .none
    cycle := k.cycle + 1
    progress := k.progress + 1 }

/-- The next instruction's PC. [DESIGN CHOICE, log 12] -/
def nextPc (k : Core) : BitVec 19 := k.pc + 4

/-- Issue one instruction of a core: the checks of every instruction (a core that cannot issue leaves the panel as it
is; a fetch from an unused bank takes the instruction-address trap, R50), then its own effect. -/
def issue (c : CoreRef) (s : State) (body : State → Core → Issue) : Host.Outcome State Fault Refusal :=
  if s.coreOk c = false then .fault .noSuchUnit
  else
    let k := s.core c
    if s.mayIssue c = false then .next s
    else if k.mode ≠ .runtime ∧ k.bankOn k.pc.toNat = false then
      .next (s.trap c causeIAddr (k.pc.setWidth 32))
    else
      match body s k with
      | .done s' k' pc => .next (s'.setCore c { k'.issued with pc := pc })
      | .trap cause val => .next (s.trap c cause val)
      | .wait s' k' w => .next (s'.setCore c { k' with mode := .wait, wait := w })
      | .stall => .next s
      | .over s' => .next s'

/-- An event of one core's hardware that the grid must have. [DESIGN CHOICE, log 1] -/
def coreEvent (c : CoreRef) (s : State) (body : State → Core → State) : Host.Outcome State Fault Refusal :=
  if s.coreOk c = false then .fault .noSuchUnit else .next (body s (s.core c))

/-- An event of a physical site. [DESIGN CHOICE, log 1] -/
def siteEvent (d : Site) (s : State) (body : State → Nat → State) : Host.Outcome State Fault Refusal :=
  if s.siteOk d = false then .fault .noSuchUnit else .next (body s (siteKey d))

/-! ### Instruction words (R45), for CORE_TRAPVAL -/

/-- Format A. -/
def wordA (op : Nat) (f : FmtA) : Word :=
  BitVec.ofNat 32 (op * 2 ^ 26 + f.rd.toNat * 2 ^ 21 + f.rs1.toNat * 2 ^ 16 + f.rs2.toNat * 2 ^ 11 + f.func.toNat)
/-- Format I. -/
def wordI (op : Nat) (f : FmtI) : Word :=
  BitVec.ofNat 32 (op * 2 ^ 26 + f.rd.toNat * 2 ^ 21 + f.rs1.toNat * 2 ^ 16 + f.imm.toNat)
/-- Format B. -/
def wordB (op : Nat) (f : FmtB) : Word :=
  BitVec.ofNat 32 (op * 2 ^ 26 + f.r.toNat * 2 ^ 21 + f.off.toNat)
/-- Format T. -/
def wordT (op : Nat) (f : FmtT) : Word :=
  BitVec.ofNat 32 (op * 2 ^ 26 + f.da.toNat * 2 ^ 23 + f.db.toNat * 2 ^ 20 + f.acc.toNat * 2 ^ 18 +
    f.mode.toNat * 2 ^ 16 + f.gs.toNat * 2 ^ 11 + f.ctr.toNat * 2 ^ 5 + f.ce.toNat * 16 + f.zero.toNat)
/-- Format N. -/
def wordN (op : Nat) (f : FmtN) : Word :=
  BitVec.ofNat 32 (op * 2 ^ 26 + f.d.toNat * 2 ^ 23 + f.ctr.toNat * 2 ^ 17 + f.ce.toNat * 2 ^ 16 +
    f.gs.toNat * 2 ^ 11 + f.route.toNat * 2 ^ 9 + f.zero.toNat)
/-- Format S. -/
def wordS (op : Nat) (f : FmtS) : Word :=
  BitVec.ofNat 32 (op * 2 ^ 26 + f.rs.toNat * 2 ^ 21 + f.zero.toNat * 2 ^ 16 + f.imm.toNat)

end Sys2Proof.Machine
end

