-- ==== Sys2Proof/Machine/Flags.lean ====
section
/-!
DEFINITION. The sticky flags of `CORE_FPFLAGS` (R70, R91) and how they are set and cleared.
-/

namespace Sys2Proof.Machine

/-- A set of the six flags. -/
abbrev FpFlags := BitVec 6

def flInvalid : FpFlags := 0x01
def flOverflow : FpFlags := 0x02
def flUnderflow : FpFlags := 0x04
def flInexact : FpFlags := 0x08
def flNanSeen : FpFlags := 0x10
def flFlushed : FpFlags := 0x20
def flNone : FpFlags := 0

/-- A flag when its condition holds. -/
def flIf (c : Bool) (f : FpFlags) : FpFlags := if c then f else 0

/-- Flags stay set once raised (R91). -/
def Core.raise (k : Core) (f : FpFlags) : Core := { k with fpflags := k.fpflags ||| f }

/-- R5: a write of one clears a W1C bit. -/
def Core.clearFlags (k : Core) (f : FpFlags) : Core := { k with fpflags := k.fpflags &&& ~~~f }

/-- The union of the flags of several results. -/
def flUnion (l : List FpFlags) : FpFlags := l.foldl (· ||| ·) 0

end Sys2Proof.Machine
end

