-- ==== Sys2Proof/Machine/Float.lean ====
section
/-!
DEFINITION. Number formats and the arithmetic contract (chapter 03): decoding to exact values, the one rounding, and
the rules of the vector path, of writeback and of collectors. A finite value is exact: (-1)^neg * m * 2^e.
-/

namespace Sys2Proof.Machine

/-- R82: a decoded value. -/
inductive Fl where
  | nan
  | inf (neg : Bool)
  | zero (neg : Bool)
  | fin (neg : Bool) (m : Nat) (e : Int)
deriving DecidableEq, Repr

/-- R82: a format with sign, exponent and mantissa fields. -/
structure Fmt where
  eb : Nat
  mb : Nat
  bias : Nat
  /-- An exponent of all ones holds infinities and NaNs; otherwise minus zero is the NaN. -/
  ieee : Bool
  nan : Nat
deriving DecidableEq, Repr

def fmtFp4 : Fmt := ⟨2, 1, 1, false, 0x8⟩
def fmtFp8A : Fmt := ⟨4, 3, 7, false, 0x80⟩
def fmtFp8B : Fmt := ⟨5, 2, 15, true, 0x7F⟩
def fmtBf16 : Fmt := ⟨8, 7, 127, true, 0x7FC0⟩
def fmtF16 : Fmt := ⟨5, 10, 15, true, 0x7E00⟩
def fmtF32 : Fmt := ⟨8, 23, 127, true, 0x7FC00000⟩
def fmtAcc : Fmt := ⟨11, 30, 1023, true, 0x1FFE0000000⟩

/-- R82: the exponent of the last place of a subnormal code. -/
def Fmt.qmin (f : Fmt) : Int := 1 - (f.bias : Int) - f.mb

/-- The sign bit of a code. -/
def Fmt.sign (f : Fmt) (c : Nat) : Bool := bit c (f.eb + f.mb)

/-- R82: the value of a code. -/
def Fmt.decode (f : Fmt) (c : Nat) : Fl :=
  let neg := f.sign c
  let e := bits c f.mb f.eb
  let m := bits c 0 f.mb
  if f.ieee ∧ e = 2 ^ f.eb - 1 then (if m = 0 then .inf neg else .nan)
  else if e = 0 then
    if m = 0 then (if neg ∧ ¬ f.ieee then .nan else .zero neg) else .fin neg m f.qmin
  else .fin neg (2 ^ f.mb + m) (f.qmin + (e - 1 : Nat))

/-- R82: the largest finite code's magnitude bits. -/
def Fmt.maxCode (f : Fmt) : Nat :=
  if f.ieee then (2 ^ f.eb - 1) * 2 ^ f.mb - 1 else 2 ^ (f.eb + f.mb) - 1

/-- A code of a sign and magnitude bits. -/
def Fmt.code (f : Fmt) (neg : Bool) (mag : Nat) : Nat := b2n neg * 2 ^ (f.eb + f.mb) + mag

def Fmt.infCode (f : Fmt) (neg : Bool) : Nat := f.code neg ((2 ^ f.eb - 1) * 2 ^ f.mb)

/-- R88: `m * 2^e` as a multiple of 2^q, ties to even, and whether it is inexact. -/
def roundAt (m : Nat) (e q : Int) : Nat × Bool :=
  if q ≤ e then (m * 2 ^ (e - q).toNat, false)
  else
    let sh := (q - e).toNat
    let d := m / 2 ^ sh
    let r := m % 2 ^ sh
    let up := decide (2 ^ sh < 2 * r) || (decide (2 * r = 2 ^ sh) && d % 2 == 1)
    (d + b2n up, r != 0)

/-- The exponent of the last place of a `p`-bit significand of `m * 2^e`. -/
def lastPlace (m : Nat) (e : Int) (p : Nat) : Int := e + Nat.log2 m - (p - 1 : Nat)

/-- Magnitude bits of `n * 2^q`, with `n` at most 2^(mb+1) and `q` at least the format's least last place. -/
def Fmt.magnitude (f : Fmt) (n : Nat) (q : Int) : Nat :=
  if n < 2 ^ f.mb then n else ((q - f.qmin).toNat + 1) * 2 ^ f.mb + (n - 2 ^ f.mb)

/-- The magnitude bits of a value rounded under R88 with gradual underflow, and whether it is inexact. A value past
the largest finite one gives bits above `maxCode`. -/
def Fmt.roundMag (f : Fmt) (m : Nat) (e : Int) : Nat × Bool :=
  let q := max (lastPlace m e (f.mb + 1)) f.qmin
  let r := roundAt m e q
  (f.magnitude r.1 q, r.2)

/-- R88: the value rounded with an unbounded exponent is below the smallest normal. -/
def Fmt.tiny (f : Fmt) (m : Nat) (e : Int) : Bool :=
  let q := lastPlace m e (f.mb + 1)
  let r := (roundAt m e q).1
  let top := if r = 2 ^ (f.mb + 1) then q + f.mb + 1 else q + f.mb
  decide (top < f.qmin + f.mb)

/-- R82, R92: what a finite overflow gives. -/
def Fmt.overflowCode (f : Fmt) (sat neg : Bool) : Nat :=
  if sat || !f.ieee then f.code neg f.maxCode else f.infCode neg

/-! ### The vector path: R101-R106 -/

/-- R102: an FP32 operand as SUBN reads it, and its flags; a NaN raises NANSEEN (R89). -/
def operand32 (subn : Bool) (w : Word) : Fl × FpFlags :=
  match fmtF32.decode w.toNat with
  | .nan => (.nan, flNanSeen)
  | .fin neg m e =>
    if subn ∧ m < 2 ^ 23 then (.zero neg, flFlushed) else (.fin neg m e, 0)
  | x => (x, 0)

/-- R88, R92, R102: a result written to binary32 on the vector path or in a collector. -/
def result32 (subn sat : Bool) : Fl → Word × FpFlags
  | .nan => (BitVec.ofNat 32 fmtF32.nan, 0)
  | .inf neg => (BitVec.ofNat 32 (fmtF32.infCode neg), 0)
  | .zero neg => (BitVec.ofNat 32 (fmtF32.code neg 0), 0)
  | .fin neg m e =>
    let (mag, inexact) := fmtF32.roundMag m e
    if fmtF32.maxCode < mag then
      (BitVec.ofNat 32 (fmtF32.overflowCode sat neg), flOverflow ||| flInexact)
    else if fmtF32.tiny m e then
      if subn then (BitVec.ofNat 32 (fmtF32.code neg 0), flFlushed ||| flUnderflow ||| flInexact)
      else (BitVec.ofNat 32 (fmtF32.code neg mag), flIf inexact (flUnderflow ||| flInexact))
    else (BitVec.ofNat 32 (fmtF32.code neg mag), flIf inexact flInexact)

/-- A finite value's signed integer at exponent `q`, exact when `q ≤ e`. -/
def scaled (neg : Bool) (m : Nat) (e q : Int) : Int :=
  (if neg then -1 else 1) * ((m * 2 ^ (e - q).toNat : Nat) : Int)

/-- A signed integer times 2^q as a value; an exact zero has the sign given (R90). -/
def ofScaled (v q : Int) (zeroNeg : Bool) : Fl :=
  if v = 0 then .zero zeroNeg else .fin (decide (v < 0)) v.natAbs q

/-- R90: an exact sum of two values, and whether it is an invalid difference of infinities. -/
def flAdd : Fl → Fl → Fl × Bool
  | .nan, _ => (.nan, false)
  | _, .nan => (.nan, false)
  | .inf a, .inf b => if a = b then (.inf a, false) else (.nan, true)
  | .inf a, _ => (.inf a, false)
  | _, .inf b => (.inf b, false)
  | .zero a, .zero b => (.zero (a && b), false)
  | .zero _, y => (y, false)
  | x, .zero _ => (x, false)
  | .fin a m e, .fin b n g =>
    let q := min e g
    (ofScaled (scaled a m e q + scaled b n g q) q false, false)

/-- R90: an exact product, and whether it is an invalid 0 x infinity. -/
def flMul : Fl → Fl → Fl × Bool
  | .nan, _ => (.nan, false)
  | _, .nan => (.nan, false)
  | .inf _, .zero _ => (.nan, true)
  | .zero _, .inf _ => (.nan, true)
  | .inf a, .inf b => (.inf (a ^^ b), false)
  | .inf a, .fin b _ _ => (.inf (a ^^ b), false)
  | .fin a _ _, .inf b => (.inf (a ^^ b), false)
  | .zero a, .zero b => (.zero (a ^^ b), false)
  | .zero a, .fin b _ _ => (.zero (a ^^ b), false)
  | .fin a _ _, .zero b => (.zero (a ^^ b), false)
  | .fin a m e, .fin b n g => (.fin (a ^^ b) (m * n) (e + g), false)

/-- The value with its sign changed. -/
def flNeg : Fl → Fl
  | .nan => .nan
  | .inf a => .inf !a
  | .zero a => .zero !a
  | .fin a m e => .fin (!a) m e

/-- R101: lane results of VFADD, VFSUB, VFMUL and VFMA. -/
def vfadd (subn sat : Bool) (a b : Word) : Word × FpFlags :=
  let (x, fx) := operand32 subn a
  let (y, fy) := operand32 subn b
  let (z, inv) := flAdd x y
  let (w, fw) := result32 subn sat z
  (w, fx ||| fy ||| fw ||| flIf inv flInvalid)

/-- VFSUB. -/
def vfsub (subn sat : Bool) (a b : Word) : Word × FpFlags :=
  let (x, fx) := operand32 subn a
  let (y, fy) := operand32 subn b
  let (z, inv) := flAdd x (flNeg y)
  let (w, fw) := result32 subn sat z
  (w, fx ||| fy ||| fw ||| flIf inv flInvalid)

/-- VFMUL. -/
def vfmul (subn sat : Bool) (a b : Word) : Word × FpFlags :=
  let (x, fx) := operand32 subn a
  let (y, fy) := operand32 subn b
  let (z, inv) := flMul x y
  let (w, fw) := result32 subn sat z
  (w, fx ||| fy ||| fw ||| flIf inv flInvalid)

/-- VFMA: d + a x b with one rounding. -/
def vfma (subn sat : Bool) (d a b : Word) : Word × FpFlags :=
  let (v, fv) := operand32 subn d
  let (x, fx) := operand32 subn a
  let (y, fy) := operand32 subn b
  let (p, inv) := flMul x y
  let (z, inv') := flAdd v p
  let (w, fw) := result32 subn sat z
  (w, fv ||| fx ||| fy ||| fw ||| flIf (inv || inv') flInvalid)

/-- Whether x < y, for values that are not NaN; minus zero counts as plus zero (R90). -/
def flLt : Fl → Fl → Bool
  | .nan, _ => false
  | _, .nan => false
  | .inf a, .inf b => a && !b
  | .inf a, _ => a
  | _, .inf b => !b
  | .zero _, .zero _ => false
  | .zero _, .fin b _ _ => !b
  | .fin a _ _, .zero _ => a
  | .fin a m e, .fin b n g => let q := min e g; decide (scaled a m e q < scaled b n g q)

/-- Equality of values: not of NaNs, and of zeros whatever their signs. -/
def flEq (x y : Fl) : Bool := x ≠ .nan && y ≠ .nan && !flLt x y && !flLt y x

/-- Whether the sign bit of a value is set. -/
def flSign : Fl → Bool
  | .nan => false
  | .inf a => a
  | .zero a => a
  | .fin a _ _ => a

/-- R103: VFMIN and VFMAX. -/
def vfminmax (subn sat wantMax : Bool) (a b : Word) : Word × FpFlags :=
  let (x, fx) := operand32 subn a
  let (y, fy) := operand32 subn b
  if x = .nan ∨ y = .nan then (BitVec.ofNat 32 fmtF32.nan, fx ||| fy)
  else
    let less := flLt x y || (flEq x y && flSign x && !flSign y)
    let z := if less != wantMax then x else y
    ((result32 false sat z).1, fx ||| fy)

/-- R103: the comparisons: 0 VFCLT, 1 VFCLE, 2 VFCEQ. -/
def vfcmp (subn : Bool) (op : Nat) (a b : Word) : Word × FpFlags :=
  let (x, fx) := operand32 subn a
  let (y, fy) := operand32 subn b
  let t := match op with
    | 0 => flLt x y
    | 1 => flLt x y || flEq x y
    | _ => flEq x y
  (if t then 0xFFFFFFFF else 0, fx ||| fy)

/-- R103: VFABS and VFNEG change the sign bit only; a NaN gives the canonical NaN. -/
def vfsign (neg : Bool) (a : Word) : Word × FpFlags :=
  if fmtF32.decode a.toNat = .nan then (BitVec.ofNat 32 fmtF32.nan, flNanSeen)
  else (if neg then a ^^^ 0x80000000 else a &&& 0x7FFFFFFF, 0)

/-- R104: VCVTFI. -/
def vcvtfi (subn : Bool) (a : Word) : Word × FpFlags :=
  match operand32 subn a with
  | (.nan, f) => (0, f ||| flInvalid)
  | (.inf neg, f) => (if neg then 0x80000000 else 0x7FFFFFFF, f ||| flInvalid)
  | (.zero _, f) => (0, f)
  | (.fin neg m e, f) =>
    let (n, inexact) := roundAt m e 0
    let v : Int := if neg then -(n : Int) else n
    if v < -(2 ^ 31) then (0x80000000, f ||| flInvalid)
    else if 2 ^ 31 ≤ v then (0x7FFFFFFF, f ||| flInvalid)
    else (BitVec.ofInt 32 v, f ||| flIf inexact flInexact)

/-- R104: VCVTIF. -/
def vcvtif (subn sat : Bool) (a : Word) : Word × FpFlags := result32 subn sat (ofScaled a.toInt 0 false)

/-- R105: one level of the tree, and the flags of its additions. -/
def sumLevel (subn sat : Bool) : List Word → List Word × FpFlags
  | a :: b :: t =>
    let (w, f) := vfadd subn sat a b
    let (ws, fs) := sumLevel subn sat t
    (w :: ws, f ||| fs)
  | l => (l, 0)

/-- R105: VRSUM's five levels. -/
def vrsum (subn sat : Bool) (l : List Word) : Word × FpFlags :=
  let (l1, f1) := sumLevel subn sat l
  let (l2, f2) := sumLevel subn sat l1
  let (l3, f3) := sumLevel subn sat l2
  let (l4, f4) := sumLevel subn sat l3
  let (l5, f5) := sumLevel subn sat l4
  (l5.headD 0, f1 ||| f2 ||| f3 ||| f4 ||| f5)

/-! ### The tensor path: R93-R100 -/

/-- R93: a BF16, binary16 or binary32 operand: a subnormal code is zero of its sign. -/
def Fmt.decodeFlush (f : Fmt) (c : Nat) : Fl :=
  match f.decode c with
  | .fin neg m e => if m < 2 ^ f.mb ∧ 11 ≤ f.eb + f.mb then .zero neg else .fin neg m e
  | x => x

/-- R86: a value times the factor of a block scale; code 0xFF makes it a NaN. -/
def applyScale (s : Nat) : Fl → Fl
  | .fin neg m e => if s = 0xFF then .nan else .fin neg m (e + s - 127)
  | x => if s = 0xFF then .nan else x

/-- R98: one value written to a float format on the tensor path. [DEDUCED, log 34] -/
def Fmt.write (f : Fmt) (sat : Bool) (x : Fl) : Nat × FpFlags :=
  let small := decide (f.eb + f.mb < 11)
  match x with
  | .nan => (f.nan, flNanSeen)
  | .inf neg => if f.ieee then (f.infCode neg, 0) else (f.nan, flInvalid)
  | .zero neg => (if small then 0 else f.code neg 0, 0)
  | .fin neg m e =>
    let (mag, inexact) := f.roundMag m e
    if f.maxCode < mag then (f.overflowCode sat neg, flOverflow ||| flInexact)
    else if small then
      if mag = 0 then (0, flUnderflow ||| flInexact) else (f.code neg mag, flIf inexact flInexact)
    else if f.tiny m e then (f.code neg 0, 0)
    else (f.code neg mag, flIf inexact flInexact)

/-- The values with a NaN operand or an invalid product marked: R96's combine. -/
structure Combine where
  nan : Bool := false
  invalid : Bool := false
  posInf : Bool := false
  negInf : Bool := false
  sum : Int := 0
  /-- Every addend so far is minus zero. -/
  allNegZero : Bool := true

/-- Add one addend at the common exponent `q`. -/
def Combine.add (c : Combine) (q : Int) : Fl → Combine
  | .nan => c
  | .inf neg => { c with posInf := c.posInf || !neg, negInf := c.negInf || neg, allNegZero := false }
  | .zero neg => { c with allNegZero := c.allNegZero && neg }
  | .fin neg m e => { c with sum := c.sum + scaled neg m e q, allNegZero := false }

/-- The least exponent of the finite values of a list. -/
def minExp : List Fl → Int → Int
  | [], q => q
  | .fin _ _ e :: t, q => minExp t (min e q)
  | _ :: t, q => minExp t q

/-- R85: an exact value rounded once to the accumulator format; it never sets INEXACT (R96). -/
def roundAcc : Fl → BitVec 42 × FpFlags
  | .nan => (BitVec.ofNat 42 fmtAcc.nan, 0)
  | .inf neg => (BitVec.ofNat 42 (fmtAcc.infCode neg), 0)
  | .zero neg => (BitVec.ofNat 42 (fmtAcc.code neg 0), 0)
  | .fin neg m e =>
    let mag := (fmtAcc.roundMag m e).1
    if fmtAcc.maxCode < mag then (BitVec.ofNat 42 (fmtAcc.infCode neg), flOverflow)
    else if fmtAcc.tiny m e then (BitVec.ofNat 42 (fmtAcc.code neg 0), 0)
    else (BitVec.ofNat 42 (fmtAcc.code neg mag), 0)

/-- R96: combine an accumulator entry with the factor pairs of one K-group. -/
def combine (c : BitVec 42) (pairs : List (Fl × Fl)) : BitVec 42 × FpFlags :=
  let c0 := fmtAcc.decode c.toNat
  let prods := pairs.map fun p => flMul p.1 p.2
  let nan := c0 = .nan || pairs.any fun p => p.1 = .nan || p.2 = .nan
  let vals := c0 :: prods.map (·.1)
  let q := minExp vals 0
  let r := vals.foldl (fun a v => Combine.add a q v) {}
  let invalid := prods.any (·.2) || (r.posInf && r.negInf)
  let flags := flIf nan flNanSeen ||| flIf invalid flInvalid
  if nan || invalid then (BitVec.ofNat 42 fmtAcc.nan, flags)
  else if r.posInf || r.negInf then (BitVec.ofNat 42 (fmtAcc.infCode r.negInf), flags)
  else
    let (v, f) := roundAcc (ofScaled r.sum q r.allNegZero)
    (v, flags ||| f)

/-- R99: the largest finite magnitude of a scaled output's element format: FP4-S 6, FP8-A 480, FP8-B 57,344. -/
def Fmt.fmax (f : Fmt) : Nat := if f.eb = 2 then 6 else if f.eb = 4 then 480 else 57344

/-- R99: the code suits the largest magnitude: m 2^(127 - s) ≤ fmax. -/
def scaleFits (f : Fmt) (s : Nat) : Fl → Bool
  | .fin _ m e =>
    let t := e + 127 - s
    if 0 ≤ t then decide (m * 2 ^ t.toNat ≤ f.fmax) else decide (m ≤ f.fmax * 2 ^ (-t).toNat)
  | _ => true

/-- R99: the smallest code that suits every finite value of the block, 0xFE when none does. -/
def chooseScale (f : Fmt) (vals : List Fl) : Nat :=
  ((List.range 0xFF).find? fun s => vals.all (scaleFits f s)).getD 0xFE

/-- A value divided by a scale's factor. -/
def unscale (s : Nat) : Fl → Fl
  | .fin neg m e => .fin neg m (e + 127 - s)
  | x => x

/-- R99: one block: its scale, its element codes and its flags. -/
def Fmt.writeScaled (f : Fmt) (sat : Bool) (vals : List Fl) : Nat × List Nat × FpFlags :=
  let s := chooseScale f vals
  let out := vals.map fun v => f.write sat (unscale s v)
  (s, out.map (·.1), flUnion (out.map (·.2)))

/-- R121: the residue modulo 3 of a significand. -/
def residue3 (n : Nat) : BitVec 2 := BitVec.ofNat 2 (n % 3)

end Sys2Proof.Machine
end

