-- ==== Sys2Proof/Machine/Operands.lean ====
section
/-!
DEFINITION. Operand forms: effective addresses and their traps (R49, R50), the core's scratchpad behind its store buffer
and its ECC (R51, R58, R79, R136-R138), completion counters (R59, R163, R164), network and copy descriptors (R55-R57,
R225, R229), and HBM ranges (R213, R215).
-/

namespace Sys2Proof.Machine

/-! ### Immediates and addresses -/

/-- A sign-extended 16-bit immediate (R46). -/
def simm (i : BitVec 16) : Word := i.signExtend 32

/-- R49: the B-format target, PC + 4 off21. -/
def branchTarget (pc : BitVec 19) (off : BitVec 21) : Word := pc.setWidth 32 + (off.signExtend 32 <<< 2)

/-- R49: a target is word-aligned and inside the scratchpad. -/
def targetOk (t : Word) : Bool := decide (t.toNat % 4 = 0) && decide (t.toNat < 2 ^ 19)

/-- R50: the trap of a load or store of `size` bytes at an effective address, misaligned before address. -/
def eaTrap (k : Core) (ea : Word) (size : Nat) : Option (BitVec 6) :=
  if ea.toNat % size ≠ 0 then some causeMisaligned
  else if 2 ^ 19 ≤ ea.toNat ∨ k.rangeOn ea.toNat size = false then some causeAddress
  else none

/-! ### Completion counters -/

/-- R59, R60, R114, R164: the counter has fired. -/
def Counter.fired (c : Counter) : Bool :=
  c.armed && !c.overrun && decide (c.count = c.total) && decide (c.holds = 0)

/-- R164: COUNT is compared with TOTAL while the counter is armed. -/
def Counter.compare (c : Counter) : Counter :=
  if c.armed ∧ c.total.toNat < c.count.toNat then { c with overrun := true } else c

/-- R59 steps 1 and 2: the arming would raise TOTAL above 2^24 - 1. -/
def Counter.armTooMuch (c : Counter) (n : Nat) : Bool := decide (2 ^ 24 ≤ c.total.toNat + n)

/-- R59 steps 1 and 2, R163: add to TOTAL and set ARMED, or conflict. -/
def Counter.arm (c : Counter) (n : Nat) : Counter :=
  if c.decl.isSome then { c with overrun := true }
  else Counter.compare { c with total := BitVec.ofNat 24 (c.total.toNat + n), armed := true }

/-- R162, R164: add bytes to COUNT. -/
def Counter.addBytes (c : Counter) (n : Nat) : Counter :=
  if 2 ^ 24 ≤ c.count.toNat + n then { c with count := BitVec.ofNat 24 (2 ^ 24 - 1), overrun := true }
  else Counter.compare { c with count := BitVec.ofNat 24 (c.count.toNat + n) }

/-- R163: a packet with DECL = 1 meets its counter; none is a conflict. -/
def Counter.declare (c : Counter) (d : Decl) (total : BitVec 24) : Option Counter :=
  match c.decl with
  | some d' => if d' = d then some c else none
  | none => if c.armed then none else some { c with decl := some d, total, armed := true }

/-- R59 step 4, R163: what a completing WAITC does. -/
def Counter.consume (c : Counter) : Counter :=
  { c with count := c.count - c.total, total := 0, armed := false, decl := none }

/-- R164: the report of a counter that has just been overrun. -/
def State.overrunReport (s : State) (c : CoreRef) (n : BitVec 6) : Report :=
  s.endReport c 0x0105 0x0311 (n.setWidth 16)

/-- Change a counter of a core: progress counts (R395) when COUNT changes, and a new overrun is reported (R164). -/
def State.changeCounter (s : State) (c : CoreRef) (k : Core) (n : BitVec 6) (new : Counter) : State × Core :=
  let old := k.counter n
  let k1 := k.setCounter n new
  let k2 := if old.count = new.count then k1 else k1.progressed
  (if new.overrun && !old.overrun then s.report (s.overrunReport c n) else s, k2)

/-- R59 step 2: arm the counter of an engine instruction issued with ce = 1. -/
def State.armCounter (s : State) (c : CoreRef) (k : Core) (n : BitVec 6) (bytes : Nat) : State × Core :=
  s.changeCounter c k n ((k.counter n).arm bytes)

/-- R162: count bytes on a counter. -/
def State.countBytes (s : State) (c : CoreRef) (k : Core) (n : BitVec 6) (bytes : Nat) : State × Core :=
  s.changeCounter c k n ((k.counter n).addBytes bytes)

/-- Count when the instruction or packet names a counter. -/
def State.countIf (s : State) (c : CoreRef) (k : Core) (on : Bool) (n : BitVec 6) (bytes : Nat) : State × Core :=
  if on then s.countBytes c k n bytes else (s, k)

/-! ### The scratchpad -/

/-- The scalar port (R389 numbers the ports in the row order of R129). -/
def portScalar : Nat := 0
def portVector : Nat := 1
def portTensorRead : Nat := 2
def portTensorWrite : Nat := 3
def portCopy : Nat := 4
def portIngress : Nat := 5
def portEgress : Nat := 6
def portScrub : Nat := 7

/-- The outcome of a scratchpad access: the panel, the core, whether it went through, and the bytes read. -/
structure SpOut where
  s : State
  k : Core
  ok : Bool
  bytes : List Byte

/-- The store buffer seen over a byte (R51, R58): the youngest store that covers it. -/
def forwarded (stores : List RowWrite) (o : Nat) (b : Byte) : Byte :=
  stores.foldl (fun acc w =>
    if w.off.toNat ≤ o ∧ o < w.off.toNat + w.bytes.length then nth acc w.bytes (o - w.off.toNat) else acc) b

/-- Bytes as this core's program order sees them. -/
def spBytes (m : List Host.Cell) (c : CoreRef) (stores : List RowWrite) (off : Nat) : Nat → List Byte
  | 0 => []
  | n + 1 => forwarded stores off (memGet m (spAddr c off)) :: spBytes m c stores (off + 1) n

/-- The number of ones of a value below 2^n. -/
def onesOf (v : Nat) : Nat → Nat
  | 0 => 0
  | n + 1 => v % 2 + onesOf (v / 2) n

/-- R138: the check bits computed from the word as read, XOR the check bits as stored. -/
def EccErr.syndrome (e : EccErr) : BitVec 8 :=
  if e.data = 0 ∧ e.row = 0 then e.check else Config.secdedSyndrome e.data e.row ^^^ e.check

/-- R136: a single inverted bit of data or check bits is corrected; a row-address error never is. Three or more inverted
bits, of which the code promises nothing, count as uncorrectable. [DESIGN CHOICE, log 69] -/
def EccErr.correctable (e : EccErr) : Bool :=
  e.row == 0 && decide (onesOf e.data.toNat 64 + onesOf e.check.toNat 8 ≤ 1)

/-- R389: DETAIL of a scratchpad error: port, offset of the 64-bit word, syndrome. -/
def eccDetail (port word : Nat) (e : EccErr) : List Byte :=
  bytesOf 1 port ++ bytesOf 3 (8 * word) ++ bytesOf 1 e.syndrome.toNat

/-- The listed errors among the 64-bit words that `len` bytes from `off` touch. [DESIGN CHOICE, log 69] -/
def eccHits (k : Core) (off len : Nat) : Tbl EccErr :=
  k.ecc.filter fun e => decide (off / 8 ≤ e.1) && decide (8 * e.1 < off + len)

/-- R137: a corrected word: counted, its write-back queued, reported. -/
def eccCorrect (c : CoreRef) (port : Nat) (o : State × Core) (e : Nat × EccErr) : State × Core :=
  let b := o.2.bank (bankOf (8 * e.1))
  let k := { o.2 with ceCount := satInc o.2.ceCount }.setBank (bankOf (8 * e.1))
    { b with corrections := b.corrections ++ [BitVec.ofNat 19 (8 * e.1)] }
  (o.1.report { o.1.coreReport c 0x0103 with injected := e.2.injected, detail := eccDetail port e.1 e.2 }, k)

/-- R137, R138: the ECC check of the words that an access reads. Correctable words are corrected; an uncorrectable one
faults the core and lets no data out. -/
def eccCheck (s : State) (c : CoreRef) (k : Core) (port off len : Nat) : State × Core × Bool :=
  let hits := eccHits k off len
  let o := (hits.filter fun e => e.2.correctable).foldl (eccCorrect c port) (s, k)
  match hits.find? fun e => !e.2.correctable with
  | some e =>
    (o.1.report { o.1.coreReport c 0x0102 with injected := e.2.injected, detail := eccDetail port e.1 e.2 },
     { o.2 with ue := true }.faultStop, false)
  | none => (o.1, o.2, true)

/-- R130: ranks 1-4 leave a bank to a request of this port: no deferred write, no correction, no forced scrub waits
there, and no request of another port has waited longer than 64 cycles. -/
def Bank.opens (b : Bank) (port : Nat) : Bool :=
  b.deferred.isEmpty && b.corrections.isEmpty && !b.forced &&
    (match b.aged with
     | [] => true
     | p :: _ => p.toNat == port)

/-- How many banks `len` bytes from `off` touch, at most 16 (R127). -/
def bankCount (off len : Nat) : Nat := min 16 ((off + len + 63) / 64 - off / 64)

/-- R130: every bank that `len` bytes from `off` touch is open to the port; a vector access needs both of its banks. -/
def Core.opens (k : Core) (port off len : Nat) : Bool :=
  (List.range (bankCount off len)).all fun i => (k.bank ((off / 64 + i) % 16)).opens port

/-- R130: a grant ends the wait of the port's request that had waited 64 cycles at a bank. -/
def Core.granted (k : Core) (port off len : Nat) : Core :=
  { k with banks := tmap {} (fun n b =>
      if (List.range (bankCount off len)).any (fun i => (off / 64 + i) % 16 == n) then
        { b with aged := b.aged.filter fun p => p.toNat != port }
      else b) k.banks }

/-- Read bytes through a port, with the stores in flight that the reader sees. -/
def spReadOver (s : State) (c : CoreRef) (k : Core) (stores : List RowWrite) (port off len : Nat) : SpOut :=
  let (s', k', ok) := eccCheck s c (k.granted port off len) port off len
  ⟨s', k', ok, if ok then spBytes s.mem c stores off len else []⟩

/-- A read by the core or by its engines: every earlier store is seen (R51, R58). -/
def spRead (s : State) (c : CoreRef) (k : Core) (port off len : Nat) : SpOut :=
  spReadOver s c k k.stores port off len

/-- R43: a write invalidates the instruction-buffer lines that it reaches. -/
def Core.invalidate (k : Core) (off len : Nat) : Core :=
  { k with ibuf := k.ibuf.filter fun l =>
      !(decide (off / 64 ≤ l.toNat) && decide (64 * l.toNat < off + len)) }

/-- R128: the 64-bit words that a write covers only in part. [DESIGN CHOICE, log 69] -/
def partialWords (off len : Nat) : List Nat :=
  (if off % 8 = 0 ∧ 8 ≤ len then [] else [off / 8]) ++
    (if (off + len) % 8 = 0 ∨ (off + len) / 8 = off / 8 then [] else [(off + len) / 8])

/-- R137: a write reaches words first: their queued write-backs and stored errors are gone. -/
def Core.overwritten (k : Core) (off len : Nat) : Core :=
  let hit (o : Nat) : Bool := decide (off < o + 8) && decide (o < off + len)
  { k with
    ecc := tkeep (fun w => !hit (8 * w)) k.ecc
    banks := tmap {} (fun _ b => { b with corrections := b.corrections.filter fun o => !hit o.toNat }) k.banks }

/-- R394: a mask of one inverted check bit, or of two. -/
def injectedMask (n free : Nat) : BitVec 8 :=
  let i := (Config.injectedBits free).1 % 8
  let j := (i + 1 + (Config.injectedBits free).2 % 7) % 8
  if n ≤ 1 then 1 <<< i else 1 <<< i ||| 1 <<< j

/-- R394 target 0: an armed injection inverts check bits of the next word written through its port. -/
def Core.injectWrite (k : Core) (port off free : Nat) : Core :=
  match k.inject with
  | some (p, n) =>
    if p.toNat = port then
      { k with inject := none, ecc := tset {} k.ecc (off / 8) { check := injectedMask n free, injected := true } }
    else k
  | none => k

/-- Write bytes through a port: a partial word is read first (R128), and an uncorrectable one stops the write (R138). -/
def spWrite (s : State) (c : CoreRef) (k : Core) (port off : Nat) (bs : List Byte) : SpOut :=
  if bs = [] then ⟨s, k, true, []⟩
  else
    let bad := (partialWords off bs.length).foldl
      (fun (o : State × Core × Bool) w => if o.2.2 then eccCheck o.1 c o.2.1 port (8 * w) 8 else o) (s, k, true)
    if bad.2.2 = false then ⟨bad.1, bad.2.1, false, []⟩
    else
      let k0 := (bad.2.1.overwritten off bs.length).granted port off bs.length
      let k1 := (k0.invalidate off bs.length).injectWrite port off bad.1.free
      ⟨(bad.1.store (spAddr c off) bs).tick, k1, true, []⟩

/-- Finish an access of the panel's hardware: the core put back. -/
def SpOut.state (o : SpOut) (c : CoreRef) : State := o.s.setCore c o.k

/-! ### HBM: R212, R213, R215 -/

/-- The live physical stacks in ascending order. -/
def State.liveStacks (s : State) : List Nat :=
  (List.range 32).filter fun p => s.panel.liveStacks.getLsbD p

/-- R213: the region size for N live stacks. -/
def regionSize (n : Nat) : Nat := n * 96 * 2 ^ 20

/-- R215: the granule of a code. -/
def granule (g : BitVec 2) : Nat :=
  match g.toNat with
  | 0 => 2048
  | 1 => 16384
  | _ => 65536

/-- R213: the physical stack of an HBM address and the byte offset in it. -/
def State.hbmMap (s : State) (gran : BitVec 2) (a : Nat) : Option (Nat × Nat) :=
  let live := s.liveStacks
  let n := live.length
  if n = 0 ∨ n * 36 * 2 ^ 30 ≤ a then none
  else
    let g := granule gran
    let r := a / regionSize n
    let o := a % regionSize n
    some (nth 0 live (o / g % n), r * 96 * 2 ^ 20 + o / (g * n) * g + o % g)

/-- R215: every byte of the range lies in the die's HBM ranges. -/
def rangesHold (ranges : List (BitVec 9 × BitVec 9)) (n a len : Nat) : Bool :=
  decide (0 < n) && decide (0 < len) &&
    (List.range ((a + len - 1) / regionSize n + 1 - a / regionSize n)).all fun i =>
      ranges.any fun r =>
        decide (r.1.toNat ≤ a / regionSize n + i) && decide (a / regionSize n + i ≤ r.2.toNat)

/-- R215: HBM bytes that a core of the die may use. -/
def State.hbmAllowed (s : State) (site a len : Nat) : Bool :=
  rangesHold (s.die site).ranges s.liveStacks.length a len

/-! ### Panel addresses: R29-R35 -/

/-- R29: a decoded panel address. -/
inductive PAddr where
  | hbm (a : Nat)
  | sp (x y off : Nat)
  | reg (window row col off : Nat) (kind : Nat)
  | bad
deriving DecidableEq, Repr

/-- R29, R33: decode. -/
def decodeAddr (a : Nat) : PAddr :=
  match bits a 46 2 with
  | 0 => if bits a 41 5 = 0 then .hbm (bits a 0 41) else .bad
  | 2 => if bits a 19 9 = 0 then .sp (bits a 37 9) (bits a 28 9) (bits a 0 19) else .bad
  | 3 =>
    match bits a 44 2 with
    | 0 => if bits a 32 12 = 0 then .reg 0 (bits a 28 4) (bits a 24 4) (bits a 0 24) 0 else .bad
    | 1 => if bits a 35 9 = 0 then .reg 1 (bits a 28 4) (bits a 24 4) (bits a 0 24) (bits a 32 3) else .bad
    | 2 => if bits a 24 20 = 0 then .reg 2 0 0 (bits a 0 24) 0 else .bad
    | _ => .bad
  | _ => .bad

/-- R31: a scratchpad core that exists in a present die. -/
def State.spCoreOk (s : State) (x y : Nat) : Bool :=
  decide (x < 32 * s.lcols) && decide (y < 384) && (s.dieAt (y / 32) (x / 32)).isSome

/-- R67, R159: the CSR indices that the job register space shows. -/
def jobReadable (i : Nat) : Bool :=
  i == 0 || (2 ≤ i && i ≤ 5) || i == 0xC || (0x40 ≤ i && i < 0xC0)

/-- R35, R159: every byte of the range of a die window lies in a job-accessible register. -/
def jobRange (off len : Nat) : Bool :=
  decide (off + len ≤ 0x800000) &&
    (List.range ((off + len + 3) / 4 - off / 4)).all fun i =>
      let o := 4 * (off / 4 + i) % 0x2000
      decide (o < 4 * 0xC0) && jobReadable (o / 4)

/-! ### Network descriptors: R55 -/

/-- R55: the fields of a network descriptor. -/
structure NDesc where
  remote : Nat
  panel : Nat
  local_ : Nat
  length : Nat
  rctr : BitVec 6
  notify : Bool
  offPanel : Bool
  span : Nat
  dir : Bool
  axis : Bool
  decl : Bool
  reserved : Bool

/-- R55. -/
def netDesc (d : BitVec 128) : NDesc :=
  let v := d.toNat
  { remote := bits v 0 48, panel := bits v 48 16, local_ := bits v 64 19, length := bits v 84 20,
    rctr := BitVec.ofNat 6 (bits v 104 6), notify := bit v 110, offPanel := bit v 111, span := bits v 112 9,
    dir := bit v 121, axis := bit v 122, decl := bit v 123, reserved := bit v 83 || bits v 124 4 != 0 }

/-- R56: the width of the offset part of a panel address, by its space; 0 when there is none. -/
def offsetWidth (remote : Nat) : Nat :=
  match bits remote 46 2 with
  | 0 => 41
  | 2 => 19
  | 3 => 24
  | _ => 0

/-- R56: REMOTE after the offset; none when the sum leaves its field. [DEDUCED, log 67] -/
def effRemote (remote : Nat) (g : Word) : Option Nat :=
  let w := offsetWidth remote
  if w = 0 then some remote
  else (addOff (remote % 2 ^ w) g (2 ^ w)).map fun o => remote / 2 ^ w * 2 ^ w + o

/-- R57: an effective value's low 32 bits, whether or not the sum leaves its field. -/
def effLow (v : Nat) (g : Word) : Word := BitVec.ofNat 32 v + g

/-- R56: the n-th target of a SENDM, or the n-th core of a copy, along a row or column; none outside the grid's
coordinates. -/
def along (x y : Nat) (axis dir : Bool) (n : Nat) : Option (Nat × Nat) :=
  match axis, dir with
  | false, false => some (x + n, y)
  | false, true => if n ≤ x then some (x - n, y) else none
  | true, false => some (x, y + n)
  | true, true => if n ≤ y then some (x, y - n) else none

/-- R31: a target that the core may use. -/
def State.targetCore (s : State) (k : Core) (t : Option (Nat × Nat)) : Bool :=
  match t with
  | some (x, y) => s.spCoreOk x y && k.inPart x y
  | none => false

/-- Which network instruction. -/
def NOp.usesLength : NOp → Bool
  | .send | .sendm | .read => true
  | _ => false

/-- R29, R57: what R57 asks of an off-panel REMOTE at its source: a valid address, of a core for a SENDM, and of the
register space for a READ only; the far panel checks the rest. [DEDUCED, log 67] -/
def offPanelOk (op : NOp) (remote : Nat) : Bool :=
  match decodeAddr remote with
  | .sp _ _ _ => true
  | .hbm _ => decide (op ≠ .sendm)
  | .reg _ _ _ _ _ => decide (op = .read)
  | .bad => false

/-- R31, R35, R57, R215: REMOTE, after its offset, is an address that the core may use. [DEDUCED, log 67] -/
def State.remoteOk (s : State) (c : CoreRef) (k : Core) (op : NOp) (d : NDesc) (remote len : Nat) : Bool :=
  if d.offPanel then offPanelOk op remote
  else
    match decodeAddr remote with
    | .sp x y off =>
      decide (off + len ≤ 2 ^ 19) &&
        (if op = .sendm then
           (List.range d.span).all fun i => s.targetCore k (along x y d.axis d.dir i)
         else s.targetCore k (some (x, y)))
    | .hbm a =>
      decide (op ≠ .sendm) && (match s.dieOf c with | some site => s.hbmAllowed site a len | none => false)
    | .reg w row col off _ =>
      decide (op = .read) && decide (w = 0) && k.inPart (32 * col) (32 * row) &&
        (s.dieAt row col).isSome && jobRange off len
    | .bad => false

/-- R57: the check of a SEND, SENDM, READ or AADD at issue: the trap that stands first, or the effective LOCAL and
REMOTE. -/
def State.netCheck (s : State) (c : CoreRef) (k : Core) (op : NOp) (f : FmtN) (word : Word) :
    (BitVec 6 × Word) ⊕ (Nat × Nat) :=
  let d := netDesc (k.getD f.d.toNat)
  let g : Word := if op = .aadd then 0 else k.getG f.gs
  let len := if op.usesLength then d.length else 4
  let count := if d.notify ∧ op = .sendm then len * d.span else len
  let remoteLow := effLow d.remote g
  let loc := effLow d.local_ g
  if f.route = 3 ∨ f.zero ≠ 0 then .inl (causeIllegal, word)
  else if d.reserved ∨ (op.usesLength ∧ (d.length = 0 ∨ 524288 < d.length)) ∨
      (op = .sendm ∧ (d.span = 0 ∨ 384 < d.span)) ∨ (op.usesLength ∧ f.route = 2 ∧ 64 < d.length) ∨
      (op = .aadd ∧ f.ce = 1) ∨ (op ≠ .aadd ∧ f.ce = 1 ∧ (k.counter f.ctr).armTooMuch count) then
    .inl (causeDescriptor, word)
  else if op.usesLength ∧ loc.toNat % 4 ≠ 0 then .inl (causeMisaligned, loc)
  else if remoteLow.toNat % 4 ≠ 0 then .inl (causeMisaligned, remoteLow)
  else if op.usesLength ∧ d.length % 4 ≠ 0 then .inl (causeMisaligned, BitVec.ofNat 32 d.length)
  else
    match (if op.usesLength then addOff d.local_ g (2 ^ 19) else some 0), effRemote d.remote g with
    | none, _ => .inl (causeAddress, loc)
    | some l, r =>
      if op.usesLength ∧ k.rangeOn l d.length = false then .inl (causeAddress, loc)
      else
        match r with
        | none => .inl (causeAddress, remoteLow)
        | some rem =>
          if s.remoteOk c k op d rem len then .inr (l, rem) else .inl (causeAddress, BitVec.ofNat 32 rem)

/-- R57: the check of a CCOPY at issue. -/
def State.copyCheck (_s : State) (c : CoreRef) (k : Core) (f : FmtN) (word : Word) :
    (BitVec 6 × Word) ⊕ (Nat × Nat) :=
  let d := netDesc (k.getD f.d.toNat)
  let g := k.getG f.gs
  let loc := effLow d.local_ g
  let remoteLow := effLow d.remote g
  let own : Bool := decide (decodeAddr d.remote = .sp c.x.toNat c.y.toNat (bits d.remote 0 19))
  let src := addOff d.local_ g (2 ^ 19)
  let dst := addOff (bits d.remote 0 19) g (2 ^ 19)
  let overlap : Bool := match src, dst with
    | some a, some b => own && decide (a < b + d.length) && decide (b < a + d.length)
    | _, _ => false
  if f.route = 3 ∨ f.zero ≠ 0 then .inl (causeIllegal, word)
  else if d.reserved ∨ d.length = 0 ∨ 524288 < d.length ∨ overlap ∨ (f.route = 2 ∧ 64 < d.length) ∨
      (f.ce = 1 ∧ (k.counter f.ctr).armTooMuch d.length) then .inl (causeDescriptor, word)
  else if loc.toNat % 4 ≠ 0 then .inl (causeMisaligned, loc)
  else if remoteLow.toNat % 4 ≠ 0 then .inl (causeMisaligned, remoteLow)
  else if d.length % 4 ≠ 0 then .inl (causeMisaligned, BitVec.ofNat 32 d.length)
  else
    match src, dst with
    | none, _ => .inl (causeAddress, loc)
    | some _, none => .inl (causeAddress, remoteLow)
    | some a, some b =>
      if k.rangeOn a d.length = false then .inl (causeAddress, loc)
      else if own ∧ k.rangeOn b d.length then .inr (a, b)
      else .inl (causeAddress, remoteLow)

/-! ### Copy descriptors: R225 -/

/-- R225: the fields of a copy descriptor. -/
structure CDesc where
  saddr : Nat
  haddr : Nat
  line : Nat
  lines : Nat
  hstride : Nat
  sstride : Nat
  lpc : Nat
  ncore : Nat
  axis : Bool
  dir : Bool
  kind : Nat
  ctr : BitVec 6
  ctrEn : Bool
  rctr : BitVec 6
  rctrEn : Bool
  queue : BitVec 3
  reserved : Bool

/-- R225. -/
def copyDesc (d : BitVec 256) : CDesc :=
  let v := d.toNat
  { saddr := bits v 0 48, haddr := bits v 64 41, line := bits v 112 16, lines := bits v 128 13,
    hstride := bits v 144 32, sstride := bits v 176 19, lpc := bits v 196 8, ncore := bits v 204 9,
    axis := bit v 213, dir := bit v 214, kind := bits v 215 2, ctr := BitVec.ofNat 6 (bits v 217 6),
    ctrEn := bit v 223, rctr := BitVec.ofNat 6 (bits v 224 6), rctrEn := bit v 230,
    queue := BitVec.ofNat 3 (bits v 231 3),
    reserved := bits v 48 16 != 0 || bits v 105 7 != 0 || bits v 141 3 != 0 || bit v 195 || bits v 234 22 != 0 }

/-- R225: the 256 bits with HADDR and the offset part of SADDR changed. -/
def CDesc.withAddrs (d : BitVec 256) (saddr haddr : Nat) : BitVec 256 :=
  let v := d.toNat
  BitVec.ofNat 256 (v - bits v 0 48 - bits v 64 41 * 2 ^ 64 + saddr + haddr * 2 ^ 64)

/-- R226: the destination core's step and line number within it, of line l. -/
def CDesc.place (d : CDesc) (l : Nat) : Nat × Nat := if d.lpc = 0 then (0, l) else (l / d.lpc, l % d.lpc)

/-- R229: the bytes that any one destination core gets. -/
def CDesc.perCore (d : CDesc) : Nat := 64 * d.line * (if d.lpc = 0 then d.lines else min d.lpc d.lines)

/-- R31, R229: every destination core and byte of a LOAD is one that the core may use. -/
def State.copyDestOk (s : State) (k : Core) (d : CDesc) (saddr : Nat) : Bool :=
  match decodeAddr saddr with
  | .sp x y off =>
    (List.range ((d.place (d.lines - 1)).1 + 1)).all (fun i => s.targetCore k (along x y d.axis d.dir i)) &&
      decide (off + ((if d.lpc = 0 then d.lines else min d.lpc d.lines) - 1) * d.sstride + 64 * d.line ≤ 2 ^ 19)
  | _ => false

/-- R229: every HBM byte lies in the partition's ranges. -/
def State.copyHbmOk (s : State) (c : CoreRef) (d : CDesc) (haddr : Nat) : Bool :=
  match s.dieOf c with
  | some site => (List.range d.lines).all fun l => s.hbmAllowed site (haddr + l * d.hstride) (64 * d.line)
  | none => false

/-- R57, R229: the check of a CPQ at issue: a trap, or the descriptor to post. -/
def State.cpqCheck (s : State) (c : CoreRef) (k : Core) (f : FmtN) (word : Word) :
    (BitVec 6 × Word) ⊕ BitVec 256 :=
  let raw : BitVec 256 := k.getD (f.d.toNat + 1) ++ k.getD f.d.toNat
  let d := copyDesc raw
  let g := k.getG f.gs
  let load : Bool := d.kind == 0
  let soff := bits d.saddr 0 19
  let hLow := effLow d.haddr g
  let sLow := effLow d.saddr g
  if f.route = 3 ∨ f.zero ≠ 0 ∨ f.d.toNat % 2 = 1 then .inl (causeIllegal, word)
  else if d.reserved ∨ 2 ≤ d.kind ∨ (¬ load ∧ bits d.saddr 32 16 ≠ 0) ∨ d.line = 0 ∨ 1024 < d.line ∨ d.lines = 0 ∨
      4096 < d.lines ∨ d.ncore = 0 ∨ 384 < d.ncore ∨ (d.lpc = 0 ∧ 1 < d.ncore) ∨
      (d.lpc ≠ 0 ∧ d.lpc * d.ncore < d.lines) ∨ (load ∧ d.rctrEn ∧ 2 ^ 24 ≤ d.perCore) ∨
      f.ce = 1 ∨ (d.ctrEn ∧ 2 ^ 24 ≤ 64 * d.line * d.lines) then .inl (causeDescriptor, word)
  else if hLow.toNat % 64 ≠ 0 then .inl (causeMisaligned, hLow)
  else if d.hstride % 64 ≠ 0 then .inl (causeMisaligned, BitVec.ofNat 32 d.hstride)
  else if d.sstride % 64 ≠ 0 then .inl (causeMisaligned, BitVec.ofNat 32 d.sstride)
  else if load ∧ sLow.toNat % 64 ≠ 0 then .inl (causeMisaligned, sLow)
  else
    match addOff d.haddr g (2 ^ 41), (if load then addOff soff g (2 ^ 19) else some soff) with
    | none, _ => .inl (causeAddress, hLow)
    | some _, none => .inl (causeAddress, sLow)
    | some h, some so =>
      let saddr := d.saddr - soff + so
      if s.copyHbmOk c d h = false then .inl (causeAddress, BitVec.ofNat 32 h)
      else if load ∧ s.copyDestOk k d saddr = false then .inl (causeAddress, BitVec.ofNat 32 saddr)
      else .inr (CDesc.withAddrs raw saddr h)

end Sys2Proof.Machine
end

