-- ==== Sys2Proof/Machine/Scalar.lean ====
section
/-!
DEFINITION. The integer, branch and memory instructions (R48-R51): one meaning for each.
-/

namespace Sys2Proof.Machine

/-! ### Shared forms -/

/-- An instruction that writes one general register and goes on. -/
def writeG (s : State) (k : Core) (rd : BitVec 5) (v : Word) : Issue := .done s (k.setG rd v) (nextPc k)

/-- R45, R48: an immediate instruction g[rd] := op g[rs1] imm. -/
def immOp (f : FmtI) (op : Word → BitVec 16 → Word) (s : State) (k : Core) : Issue :=
  writeG s k f.rd (op (k.getG f.rs1) f.imm)

/-- R48: one shift; the kind 0 SLL, 1 SRL, 2 SRA. -/
def shiftOp (kind : Nat) (a : Word) (n : Nat) : Word :=
  match kind with
  | 0 => a <<< n
  | 1 => a >>> n
  | _ => a.sshiftRight n

/-- The number of leading zeros among the low `n` bits. -/
def clzFrom (a : Word) : Nat → Nat
  | 0 => 0
  | n + 1 => if a.getLsbD n then 0 else 1 + clzFrom a n

/-- The number of ones among the low `n` bits. -/
def popFrom (a : Word) : Nat → Nat
  | 0 => 0
  | n + 1 => b2n (a.getLsbD n) + popFrom a n

/-- R48: OPA by func; none where the code is not listed. -/
def opaOp (func : Nat) (a b : Word) : Option Word :=
  match func with
  | 0x00 => some (a + b)
  | 0x01 => some (a - b)
  | 0x02 => some (a &&& b)
  | 0x03 => some (a ||| b)
  | 0x04 => some (a ^^^ b)
  | 0x05 => some (shiftOp 0 a (b.toNat % 32))
  | 0x06 => some (shiftOp 1 a (b.toNat % 32))
  | 0x07 => some (shiftOp 2 a (b.toNat % 32))
  | 0x08 => some (if a.toInt < b.toInt then 1 else 0)
  | 0x09 => some (if a.toNat < b.toNat then 1 else 0)
  | 0x0A => some (a * b)
  | 0x0B => some (BitVec.ofInt 32 (a.toInt * b.toInt / 2 ^ 32))
  | 0x0C => some (BitVec.ofNat 32 (a.toNat * b.toNat / 2 ^ 32))
  | 0x0D => some (if a.toInt < b.toInt then a else b)
  | 0x0E => some (if a.toInt < b.toInt then b else a)
  | 0x0F => some (if a.toNat < b.toNat then a else b)
  | 0x10 => some (if a.toNat < b.toNat then b else a)
  | 0x11 => some (BitVec.ofNat 32 (clzFrom a 32))
  | 0x12 => some (BitVec.ofNat 32 (popFrom a 32))
  | _ => none

/-- R48: the unary codes, whose rs2 must be g0. -/
def opaUnary (func : Nat) : Bool := func == 0x11 || func == 0x12

/-- R49: a jump to a target, or the instruction-address trap with the link left unchanged. -/
def jumpTo (s : State) (k : Core) (t : Word) : Issue :=
  if targetOk t then .done s k (t.setWidth 19) else .trap causeIAddr t

/-- R49: a conditional branch on g[rs] compared with zero as a signed value. -/
def branchIf (f : FmtB) (cond : Int → Bool) (s : State) (k : Core) : Issue :=
  if cond (k.getG f.r).toInt then jumpTo s k (branchTarget k.pc f.off) else .done s k (nextPc k)

/-- R49: the return address that JAL and JALR write: PC + 4 as a 32-bit value. -/
def linkWord (k : Core) : Word := k.pc.setWidth 32 + 4

/-- R50: the effective address. -/
def loadEa (k : Core) (f : FmtI) : Word := k.getG f.rs1 + simm f.imm

/-- R50, R130: a load of `size` bytes, and what it does with them; it stalls while a request of a higher rank waits at a
bank that it reads. -/
def loadOp (c : CoreRef) (f : FmtI) (port size : Nat) (put : Core → Nat → Core) (s : State) (k : Core) : Issue :=
  match eaTrap k (loadEa k f) size with
  | some cause => .trap cause (loadEa k f)
  | none =>
    let o := spRead s c k port (loadEa k f).toNat size
    if k.opens port (loadEa k f).toNat size = false then .stall
    else if o.ok then .done o.s (put o.k (natOf o.bytes)) (nextPc k) else .over (o.state c)

/-- R50, R79: a store of bytes, through the 4-entry store buffer; with the buffer full it does not issue. -/
def storeOp (f : FmtI) (size : Nat) (bs : List Byte) (s : State) (k : Core) : Issue :=
  match eaTrap k (loadEa k f) size with
  | some cause => .trap cause (loadEa k f)
  | none =>
    if 4 ≤ k.stores.length then .stall
    else .done s { k with stores := k.stores ++ [{ off := (loadEa k f).setWidth 19, bytes := bs }] } (nextPc k)

/-! ### The instructions -/

/-- ADDI (R48). -/
def execAddi (c : CoreRef) (f : FmtI) (s : State) : Host.Outcome State Fault Refusal :=
  issue c s (immOp f fun a i => a + simm i)

/-- ANDI (R48): the immediate is zero-extended. -/
def execAndi (c : CoreRef) (f : FmtI) (s : State) : Host.Outcome State Fault Refusal :=
  issue c s (immOp f fun a i => a &&& i.setWidth 32)

/-- ORI (R48): the immediate is zero-extended. -/
def execOri (c : CoreRef) (f : FmtI) (s : State) : Host.Outcome State Fault Refusal :=
  issue c s (immOp f fun a i => a ||| i.setWidth 32)

/-- XORI (R48): the immediate is zero-extended. -/
def execXori (c : CoreRef) (f : FmtI) (s : State) : Host.Outcome State Fault Refusal :=
  issue c s (immOp f fun a i => a ^^^ i.setWidth 32)

/-- SLTI (R48). -/
def execSlti (c : CoreRef) (f : FmtI) (s : State) : Host.Outcome State Fault Refusal :=
  issue c s (immOp f fun a i => if a.toInt < (simm i).toInt then 1 else 0)

/-- SLTIU (R48): the immediate is sign-extended, then compared unsigned. -/
def execSltiu (c : CoreRef) (f : FmtI) (s : State) : Host.Outcome State Fault Refusal :=
  issue c s (immOp f fun a i => if a.toNat < (simm i).toNat then 1 else 0)

/-- SHI (R48): imm16 bits 15:14 choose the shift, bits 13:5 are zero. -/
def execShi (c : CoreRef) (f : FmtI) (s : State) : Host.Outcome State Fault Refusal :=
  issue c s fun s k =>
    if bits f.imm.toNat 14 2 = 3 ∨ bits f.imm.toNat 5 9 ≠ 0 then .trap causeIllegal (wordI 0x08 f)
    else writeG s k f.rd (shiftOp (bits f.imm.toNat 14 2) (k.getG f.rs1) (bits f.imm.toNat 0 5))

/-- LUI (R48): rs1 must be zero. -/
def execLui (c : CoreRef) (f : FmtI) (s : State) : Host.Outcome State Fault Refusal :=
  issue c s fun s k =>
    if f.rs1 ≠ 0 then .trap causeIllegal (wordI 0x09 f)
    else writeG s k f.rd (f.imm.setWidth 32 <<< 16)

/-- OPA (R48). -/
def execOpa (c : CoreRef) (f : FmtA) (s : State) : Host.Outcome State Fault Refusal :=
  issue c s fun s k =>
    if opaUnary f.func.toNat ∧ f.rs2 ≠ 0 then .trap causeIllegal (wordA 0x01 f)
    else
      match opaOp f.func.toNat (k.getG f.rs1) (k.getG f.rs2) with
      | some v => writeG s k f.rd v
      | none => .trap causeIllegal (wordA 0x01 f)

/-- BEQZ (R49). -/
def execBeqz (c : CoreRef) (f : FmtB) (s : State) : Host.Outcome State Fault Refusal :=
  issue c s (branchIf f fun v => v == 0)

/-- BNEZ (R49). -/
def execBnez (c : CoreRef) (f : FmtB) (s : State) : Host.Outcome State Fault Refusal :=
  issue c s (branchIf f fun v => v != 0)

/-- BLTZ (R49). -/
def execBltz (c : CoreRef) (f : FmtB) (s : State) : Host.Outcome State Fault Refusal :=
  issue c s (branchIf f fun v => decide (v < 0))

/-- BGEZ (R49). -/
def execBgez (c : CoreRef) (f : FmtB) (s : State) : Host.Outcome State Fault Refusal :=
  issue c s (branchIf f fun v => decide (0 ≤ v))

/-- BLEZ (R49). -/
def execBlez (c : CoreRef) (f : FmtB) (s : State) : Host.Outcome State Fault Refusal :=
  issue c s (branchIf f fun v => decide (v ≤ 0))

/-- BGTZ (R49). -/
def execBgtz (c : CoreRef) (f : FmtB) (s : State) : Host.Outcome State Fault Refusal :=
  issue c s (branchIf f fun v => decide (0 < v))

/-- JAL (R49). -/
def execJal (c : CoreRef) (f : FmtB) (s : State) : Host.Outcome State Fault Refusal :=
  issue c s fun s k =>
    if targetOk (branchTarget k.pc f.off) then jumpTo s (k.setG f.r (linkWord k)) (branchTarget k.pc f.off)
    else .trap causeIAddr (branchTarget k.pc f.off)

/-- JALR (R49): the target is read before the link is written. -/
def execJalr (c : CoreRef) (f : FmtI) (s : State) : Host.Outcome State Fault Refusal :=
  issue c s fun s k =>
    if targetOk (loadEa k f) then jumpTo s (k.setG f.rd (linkWord k)) (loadEa k f)
    else .trap causeIAddr (loadEa k f)

/-- LW (R50). -/
def execLw (c : CoreRef) (f : FmtI) (s : State) : Host.Outcome State Fault Refusal :=
  issue c s (loadOp c f portScalar 4 fun k v => k.setG f.rd (BitVec.ofNat 32 v))

/-- LH (R50): sign-extended. -/
def execLh (c : CoreRef) (f : FmtI) (s : State) : Host.Outcome State Fault Refusal :=
  issue c s (loadOp c f portScalar 2 fun k v => k.setG f.rd ((BitVec.ofNat 16 v).signExtend 32))

/-- LHU (R50): zero-extended. -/
def execLhu (c : CoreRef) (f : FmtI) (s : State) : Host.Outcome State Fault Refusal :=
  issue c s (loadOp c f portScalar 2 fun k v => k.setG f.rd (BitVec.ofNat 32 v))

/-- LB (R50): sign-extended. -/
def execLb (c : CoreRef) (f : FmtI) (s : State) : Host.Outcome State Fault Refusal :=
  issue c s (loadOp c f portScalar 1 fun k v => k.setG f.rd ((BitVec.ofNat 8 v).signExtend 32))

/-- LBU (R50): zero-extended. -/
def execLbu (c : CoreRef) (f : FmtI) (s : State) : Host.Outcome State Fault Refusal :=
  issue c s (loadOp c f portScalar 1 fun k v => k.setG f.rd (BitVec.ofNat 32 v))

/-- SW (R50): bits 25:21 name the register that supplies the data. -/
def execSw (c : CoreRef) (f : FmtI) (s : State) : Host.Outcome State Fault Refusal :=
  issue c s fun s k =>
    storeOp f 4 (bytesOf 4 (k.getG f.rd).toNat) s k

/-- SH (R50): bits 25:21 name the register that supplies the data. -/
def execSh (c : CoreRef) (f : FmtI) (s : State) : Host.Outcome State Fault Refusal :=
  issue c s fun s k =>
    storeOp f 2 (bytesOf 2 (k.getG f.rd).toNat) s k

/-- SB (R50): bits 25:21 name the register that supplies the data. -/
def execSb (c : CoreRef) (f : FmtI) (s : State) : Host.Outcome State Fault Refusal :=
  issue c s fun s k =>
    storeOp f 1 (bytesOf 1 (k.getG f.rd).toNat) s k

/-- DLD (R51): rd bits 4:3 must be zero (R46). -/
def execDld (c : CoreRef) (f : FmtI) (s : State) : Host.Outcome State Fault Refusal :=
  issue c s fun s k =>
    if 8 ≤ f.rd.toNat then .trap causeIllegal (wordI 0x2E f)
    else loadOp c f portScalar 16 (fun k v => k.setD f.rd.toNat (BitVec.ofNat 128 v)) s k

/-- DST (R51): rd bits 4:3 must be zero (R46). -/
def execDst (c : CoreRef) (f : FmtI) (s : State) : Host.Outcome State Fault Refusal :=
  issue c s fun s k =>
    if 8 ≤ f.rd.toNat then .trap causeIllegal (wordI 0x2F f)
    else storeOp f 16 (bytesOf 16 (k.getD f.rd.toNat).toNat) s k

/-- R51: a descriptor with quarter q replaced. -/
def setQuarter (d : BitVec 128) (q : Nat) (v : Word) : BitVec 128 :=
  BitVec.ofNat 128 (d.toNat - bits d.toNat (32 * q) 32 * 2 ^ (32 * q) + v.toNat * 2 ^ (32 * q))

/-- DMOV (R51): func 0-3 writes a quarter of d[rd], func 4-7 reads one of d[rs1]. -/
def execDmov (c : CoreRef) (f : FmtA) (s : State) : Host.Outcome State Fault Refusal :=
  issue c s fun s k =>
    if f.rs2 ≠ 0 ∨ 8 ≤ f.func.toNat ∨ (f.func.toNat < 4 ∧ 8 ≤ f.rd.toNat) ∨
        (4 ≤ f.func.toNat ∧ 8 ≤ f.rs1.toNat) then .trap causeIllegal (wordA 0x30 f)
    else if f.func.toNat < 4 then
      .done s (k.setD f.rd.toNat (setQuarter (k.getD f.rd.toNat) f.func.toNat (k.getG f.rs1))) (nextPc k)
    else writeG s k f.rd (BitVec.ofNat 32 (bits (k.getD f.rs1.toNat).toNat (32 * (f.func.toNat - 4)) 32))

end Sys2Proof.Machine
end

