-- ==== Sys2Proof/Machine/Tensor.lean ====
section
/-!
DEFINITION. The tensor engine (chapter 04): descriptors, the checks at issue, the queue, and what each instruction has
done when it completes.
-/

namespace Sys2Proof.Machine

/-- R109: the fields of a tensor descriptor. -/
structure TDesc where
  base : Int
  fmt : Nat
  scaled : Bool
  order : Bool
  stride : Nat
  sbase : Int
  sstride : Nat
  len : Nat
  lines : Nat
  reserved : Bool

/-- R109. -/
def tensorDesc (d : BitVec 128) : TDesc :=
  let v := d.toNat
  { base := bits v 0 19, fmt := bits v 20 4, scaled := bit v 24, order := bit v 25, stride := bits v 32 19,
    sbase := bits v 64 19, sstride := bits v 84 12, len := bits v 96 13, lines := bits v 112 5,
    reserved := bit v 19 || bits v 26 6 != 0 || bits v 51 13 != 0 || bit v 83 || bits v 109 3 != 0 ||
      bits v 117 11 != 0 }

/-- R53: g[gs] is added to BASE and to SBASE. -/
def TDesc.shift (d : TDesc) (g : Word) : TDesc := { d with base := d.base + g.toInt, sbase := d.sbase + g.toInt }

/-- The descriptor with BASE and SBASE after the offset of R53, as captured at issue. -/
def TDesc.capture (d : TDesc) (raw : BitVec 128) : BitVec 128 :=
  let v := raw.toNat
  BitVec.ofNat 128 (v - bits v 0 19 - bits v 64 19 * 2 ^ 64 + d.base.toNat % 2 ^ 19 +
    (if d.scaled then d.sbase.toNat % 2 ^ 19 else bits v 64 19) * 2 ^ 64)

/-- R110: bits per element. -/
def fmtBits (f : Nat) : Nat :=
  match f with
  | 0 => 4
  | 1 | 2 | 3 => 8
  | 4 | 5 => 16
  | _ => 32

/-- R110: the float format of a code; codes 3 and 7 are INT8 and INT32. -/
def fmtOf (f : Nat) : Fmt :=
  match f with
  | 0 => fmtFp4
  | 1 => fmtFp8A
  | 2 => fmtFp8B
  | 4 => fmtBf16
  | 5 => fmtF16
  | _ => fmtF32

def isInt (f : Nat) : Bool := f == 3 || f == 7

/-- R111: bytes of a line's elements. -/
def TDesc.lineBytes (d : TDesc) : Nat := d.len * fmtBits d.fmt / 8
/-- R111: bytes of a line's scale run. -/
def TDesc.scaleBytes (d : TDesc) : Nat := if d.scaled then d.len / 32 else 0

/-- R111: the element ranges of the lines. -/
def TDesc.elemRanges (d : TDesc) : List (Int × Nat) :=
  (List.range d.lines).map fun l => (d.base + (l * d.stride : Nat), d.lineBytes)
/-- R111: the scale ranges of the lines. -/
def TDesc.scaleRanges (d : TDesc) : List (Int × Nat) :=
  if d.scaled then (List.range d.lines).map fun l => (d.sbase + (l * d.sstride : Nat), d.scaleBytes) else []
def TDesc.ranges (d : TDesc) : List (Int × Nat) := d.elemRanges ++ d.scaleRanges

/-- Two byte ranges overlap. -/
def overlap (a b : Int × Nat) : Bool := decide (a.1 < b.1 + b.2) && decide (b.1 < a.1 + a.2)
/-- Some two of the ranges overlap. -/
def selfOverlap : List (Int × Nat) → Bool
  | [] => false
  | a :: t => t.any (overlap a) || selfOverlap t
/-- A range of the one list overlaps a range of the other. -/
def anyOverlap (a b : List (Int × Nat)) : Bool := a.any fun x => b.any (overlap x)

/-- R113: the first byte of a range that is outside the scratchpad or in an unused bank. -/
def badByte (k : Core) (r : Int × Nat) : Option Int :=
  if r.2 = 0 then none
  else if r.1 < 0 ∨ 2 ^ 19 ≤ r.1 then some r.1
  else
    let o := r.1.toNat
    match (List.range ((o + r.2 - 1) / 64 + 1 - o / 64)).find? fun i =>
        decide (2 ^ 13 ≤ o / 64 + i) || !k.powered.getLsbD ((o / 64 + i) % 16) with
    | none => none
    | some i => some (if i = 0 then (o : Int) else ((o / 64 + i) * 64 : Nat))

/-- R112: what SCALED may be for a format. -/
def scaledOk (d : TDesc) : Bool :=
  if d.fmt = 0 then d.scaled else if d.fmt = 1 ∨ d.fmt = 2 then true else !d.scaled

/-- R108: the operand pairs of TMMA. -/
def mmaPairOk (a b : Nat) : Bool :=
  (a == 0 && b == 0) || ((a == 1 || a == 2) && (b == 1 || b == 2)) || (a == 3 && b == 3) || (a == 4 && b == 4) ||
    (a == 5 && b == 5)

/-- R96: the K-group length. -/
def kGroup (f : Nat) : Nat := if f = 4 ∨ f = 5 then 8 else 32

/-- R109, R110, R112: fields every used descriptor must have. -/
def TDesc.basicOk (d : TDesc) : Bool :=
  !d.reserved && decide (d.fmt < 8) && scaledOk d && decide (1 ≤ d.len ∧ d.len ≤ 4096) &&
    decide (1 ≤ d.lines ∧ d.lines ≤ 16) && (!d.scaled || d.len % 32 == 0)

/-- R112, R113: the descriptor values of each instruction. -/
def tFieldsOk (op : TOp) (acc : Nat) (a b : TDesc) : Bool :=
  match op with
  | .tmma =>
    a.basicOk && b.basicOk && mmaPairOk a.fmt b.fmt && !a.order && !b.order && decide (a.len = b.len) &&
      decide (a.lines = 16) && decide (b.lines = 16) && (!(a.scaled || b.scaled) || a.len % 32 == 0)
  | .tload =>
    a.basicOk && decide (4 ≤ a.fmt) && decide (a.len = 16) && decide (a.lines = 16)
  | .tstore =>
    a.basicOk && decide (a.len = if a.scaled then 32 else 16) && decide (a.lines = 16) &&
      (!a.scaled || acc % 2 == 0)
  | .tcvt =>
    a.basicOk && b.basicOk && !isInt a.fmt && !isInt b.fmt && !a.order && !b.order && decide (a.len = b.len) &&
      decide (a.lines = b.lines) && (!(a.scaled || b.scaled) || a.len % 32 == 0)

/-- The kind of a tile, tracked at issue (R94). -/
def Core.tileKind (k : Core) (t : Nat) : TileKind := tget .clear k.kind t
def Core.setKind (k : Core) (t : Nat) (x : TileKind) : Core := { k with kind := tset .clear k.kind t x }

/-- The tiles that a TSTORE reads (R111). -/
def storeTiles (acc : Nat) (scaled : Bool) : List Nat := if scaled then [acc, acc + 1] else [acc]

/-- R94: the kind that a format gives a tile. -/
def kindOf (f : Nat) : TileKind := if isInt f then .int else .float

/-- R94, R98: the instruction suits the kinds of its tiles. -/
def tKindOk (k : Core) (op : TOp) (acc : Nat) (a : TDesc) : Bool :=
  match op with
  | .tmma => k.tileKind acc = .clear || k.tileKind acc = kindOf a.fmt
  | .tstore => (storeTiles acc a.scaled).all fun t => k.tileKind t = .clear || k.tileKind t = kindOf a.fmt
  | _ => true

/-- R117: the byte ranges read and written. -/
def tRanges (op : TOp) (mode : Nat) (a b : TDesc) : List (Int × Nat) × List (Int × Nat) :=
  match op with
  | .tmma => (a.ranges ++ b.ranges, [])
  | .tload => (if mode = 1 then [] else a.ranges, [])
  | .tstore => ([], a.ranges)
  | .tcvt => (a.ranges, b.ranges)

/-- R114: the bytes counted. -/
def tBytes (op : TOp) (mode : Nat) (a b : TDesc) : Nat :=
  match op with
  | .tmma => 16 * (a.lineBytes + a.scaleBytes + b.lineBytes + b.scaleBytes)
  | .tload => if mode = 1 then 0 else 16 * a.lineBytes
  | .tstore => 16 * (a.lineBytes + a.scaleBytes)
  | .tcvt => b.lines * (b.lineBytes + b.scaleBytes)

/-- R53: the modes that are legal. -/
def tModeOk (op : TOp) (mode : Nat) : Bool :=
  match op with
  | .tload | .tstore => decide (mode < 2)
  | _ => mode == 0

/-- R113: the trap of a tensor instruction at issue. [DEDUCED, log 77] -/
def tCheck (k : Core) (op : TOp) (f : FmtT) (word : Word) : Option (BitVec 6 × Word) :=
  let g := k.getG f.gs
  let a := (tensorDesc (k.getD f.da.toNat)).shift g
  let b := (tensorDesc (k.getD f.db.toNat)).shift g
  let mode := f.mode.toNat
  let usesA : Bool := !(op == TOp.tload && mode == 1)
  let usesB : Bool := op == TOp.tmma || op == TOp.tcvt
  let (reads, writes) := tRanges op mode a b
  let used := (if usesA then [a] else []) ++ (if usesB then [b] else [])
  if tModeOk op mode = false ∨ f.zero ≠ 0 then some (causeIllegal, word)
  else if (usesA ∧ tFieldsOk op f.acc.toNat a b = false) ∨ tKindOk k op f.acc.toNat a = false ∨
      selfOverlap writes ∨ anyOverlap reads writes ∨
      (f.ce = 1 ∧ (k.counter f.ctr).armTooMuch (tBytes op mode a b)) then some (causeDescriptor, word)
  else
    match used.find? fun d => decide (d.base.emod 16 ≠ 0 ∨ d.stride % 16 ≠ 0) with
    | some d => some (causeMisaligned, BitVec.ofInt 32 d.base)
    | none => ((reads ++ writes).findSome? (badByte k)).map fun o => (causeAddress, BitVec.ofInt 32 o)

/-- R94: the kinds after a tensor instruction has issued. -/
def tKinds (k : Core) (op : TOp) (mode acc : Nat) (a : TDesc) : Core :=
  match op with
  | .tmma => k.setKind acc (kindOf a.fmt)
  | .tload => k.setKind acc (if mode = 1 then .clear else kindOf a.fmt)
  | .tstore => if mode = 1 then (storeTiles acc a.scaled).foldl (fun k t => k.setKind t .clear) k else k
  | .tcvt => k

/-- R114: a TLOAD of mode 0b01 holds its counter from issue. -/
def Core.hold (k : Core) (n : BitVec 6) : Core :=
  k.setCounter n { k.counter n with holds := (k.counter n).holds + 1 }

/-- R53, R54, R112-R114: issue of a tensor instruction into the 8-entry queue. -/
def tIssue (c : CoreRef) (op : TOp) (f : FmtT) (word : Word) (s : State) (k : Core) : Issue :=
  match tCheck k op f word with
  | some (cause, val) => .trap cause val
  | none =>
    if 8 ≤ k.tq.length then .wait s k .tensorQueue
    else
      let g := k.getG f.gs
      let ra := k.getD f.da.toNat
      let rb := k.getD f.db.toNat
      let a := (tensorDesc ra).shift g
      let b := (tensorDesc rb).shift g
      let mode := f.mode.toNat
      let bytes := tBytes op mode a b
      let t : TInstr :=
        { op, da := a.capture ra, db := b.capture rb, acc := f.acc, mode := f.mode, ctr := f.ctr, ce := f.ce = 1,
          sat := k.sat, bytes, word, pc := k.pc }
      let k1 := tKinds k op mode f.acc.toNat a
      let (s2, k2) := if f.ce = 1 then s.armCounter c k1 f.ctr bytes else (s, k1)
      let k3 := if f.ce = 1 ∧ op = .tload ∧ mode = 1 then k2.hold f.ctr else k2
      .done s2 { k3 with tq := k3.tq ++ [t] } (nextPc k)

/-- TLOAD (R53). -/
def execTload (c : CoreRef) (f : FmtT) (s : State) : Host.Outcome State Fault Refusal :=
  issue c s (tIssue c .tload f (wordT 0x24 f))

/-- TMMA (R53, R96, R108). -/
def execTmma (c : CoreRef) (f : FmtT) (s : State) : Host.Outcome State Fault Refusal :=
  issue c s (tIssue c .tmma f (wordT 0x25 f))

/-- TSTORE (R53, R98). -/
def execTstore (c : CoreRef) (f : FmtT) (s : State) : Host.Outcome State Fault Refusal :=
  issue c s (tIssue c .tstore f (wordT 0x26 f))

/-- TCVT (R53, R100). -/
def execTcvt (c : CoreRef) (f : FmtT) (s : State) : Host.Outcome State Fault Refusal :=
  issue c s (tIssue c .tcvt f (wordT 0x27 f))

/-! ### The engine -/

/-- R117: the tiles that an instruction reads and writes. -/
def tTiles (t : TInstr) : List Nat × List Nat :=
  let a := t.acc.toNat
  match t.op with
  | .tmma => ([a], [a])
  | .tload => ([], [a])
  | .tstore =>
    let l := storeTiles a (tensorDesc t.da).scaled
    (l, if t.mode = 1 then l else [])
  | .tcvt => ([], [])

/-- R117: `j` starts only when the earlier `i` has completed: `i` writes a tile that `j` uses (a TMMA may start on a
TMMA's tile before it completes), or a byte range of one that writes overlaps one of the other. -/
def tWaits (i j : TInstr) : Bool :=
  let (_, wi) := tTiles i
  let (rj, wj) := tTiles j
  let (bri, bwi) := tRanges i.op i.mode.toNat (tensorDesc i.da) (tensorDesc i.db)
  let (brj, bwj) := tRanges j.op j.mode.toNat (tensorDesc j.da) (tensorDesc j.db)
  let tiles := wi.any fun t => rj.contains t || wj.contains t
  (tiles && !(i.op == TOp.tmma && j.op == TOp.tmma)) || anyOverlap bwi (brj ++ bwj) || anyOverlap bri bwj

/-- R119: a TLOAD of mode 0b01, which completes one cycle after it starts. -/
def TInstr.isClear (t : TInstr) : Bool := t.op == TOp.tload && t.mode == 1

/-- R117-R119: `j` completes after the earlier `i`: it waited for it, it writes a tile that `i` reads, or it works on the
same resource (the MAC array or the transfer path), whose occupancies and latencies keep completions in order but for a
TLOAD of mode 0b01, which may pass what is in its last cycles. [DEDUCED, log 68] -/
def tAfter (i j : TInstr) : Bool :=
  tWaits i j || (tTiles i).1.any (fun t => (tTiles j).2.contains t) ||
    ((i.op == TOp.tmma) == (j.op == TOp.tmma) && !(j.isClear && !i.isClear))

/-- R117: mark the next instruction of the queue started when nothing ahead of it holds it. -/
def startNext (before : List TInstr) : List TInstr → Option (List TInstr)
  | [] => none
  | t :: rest =>
    if t.started then startNext (before ++ [t]) rest
    else if before.any (fun i => tWaits i t) then none
    else some (before ++ { t with started := true } :: rest)

/-- TENSOR_START (R117). -/
def execTensorStart (c : CoreRef) (s : State) : Host.Outcome State Fault Refusal :=
  coreEvent c s fun s k =>
    if s.clocked c = false ∨ k.mode = .faulted then s
    else
      match startNext [] k.tq with
      | some q => s.setCore c { k with tq := q }
      | none => s

/-- The code of element e of a line's bytes (R83, R110, R111). -/
def elemCode (f : Nat) (line : List Byte) (e : Nat) : Nat :=
  if f = 0 then bits (nth 0 line (e / 2)).toNat (4 * (e % 2)) 4
  else fieldOf line (e * (fmtBits f / 8)) (fmtBits f / 8)

/-- The bytes of element codes (R83, R110). -/
def packCodes (f : Nat) (codes : List Nat) : List Byte :=
  if f = 0 then (pieces 2 codes.length codes).map fun p => BitVec.ofNat 8 (nth 0 p 0 + 16 * nth 0 p 1)
  else codes.flatMap fun v => bytesOf (fmtBits f / 8) v

/-- R93: element e as a value, with its scale. -/
def elemVal (d : TDesc) (line scales : List Byte) (e : Nat) : Fl :=
  let x := (fmtOf d.fmt).decodeFlush (elemCode d.fmt line e)
  if d.scaled then applyScale (nth 0 scales (e / 32)).toNat x else x

/-- The values of a line. -/
def lineVals (d : TDesc) (l : List Byte × List Byte) : List Fl :=
  (List.range d.len).map (elemVal d l.1 l.2)

/-- Read the element and scale bytes of `n` lines from line `l` on, through the tensor read port. -/
def readLines (c : CoreRef) (d : TDesc) : Nat → Nat → State → Core → State × Core × Bool × List (List Byte × List Byte)
  | _, 0, s, k => (s, k, true, [])
  | l, n + 1, s, k =>
    let o := spRead s c k portTensorRead (d.base.toNat + l * d.stride) d.lineBytes
    if o.ok = false then (o.s, o.k, false, [])
    else
      let p := spRead o.s c o.k portTensorRead (d.sbase.toNat + l * d.sstride) d.scaleBytes
      if p.ok = false then (p.s, p.k, false, [])
      else
        let (s', k', ok, ls) := readLines c d (l + 1) n p.s p.k
        (s', k', ok, (o.bytes, p.bytes) :: ls)

/-- The residue stored beside an entry (R121): of the significand, or of the INT32 value. [DESIGN CHOICE, log 78] -/
def entryOf (kind : TileKind) (v : BitVec 42) : AccEntry :=
  match kind with
  | .int => ⟨v, BitVec.ofNat 2 (((BitVec.ofNat 32 v.toNat).toInt.emod 3).toNat)⟩
  | _ =>
    let e := bits v.toNat 30 11
    ⟨v, residue3 ((if e = 0 then 0 else 2 ^ 30) + bits v.toNat 0 30)⟩

/-- The key of entry (i, j) of tile t. -/
def accKey (t i j : Nat) : Nat := 256 * t + 16 * i + j

def Core.getAcc (k : Core) (t i j : Nat) : BitVec 42 := (tget {} k.acc (accKey t i j)).val
def Core.setAcc (k : Core) (kind : TileKind) (t i j : Nat) (v : BitVec 42) : Core :=
  { k with acc := tset {} k.acc (accKey t i j) (entryOf kind v) }

/-- R94: every entry +0. -/
def Core.clearTile (k : Core) (t : Nat) : Core := { k with acc := tkeep (fun e => e / 256 != t) k.acc }

/-- R96: one entry through the K-groups. -/
def mmaEntry (v : BitVec 42) : List (List (Fl × Fl)) → BitVec 42 × FpFlags
  | [] => (v, 0)
  | g :: gs =>
    let (v', f) := combine v g
    let (w, fs) := mmaEntry v' gs
    (w, f ||| fs)

/-- R96: an integer entry: INT8 products added into INT32, wrapping. -/
def mmaInt (v : BitVec 42) (a b : List Byte) : BitVec 42 :=
  let sum := (a.zip b).foldl (fun (t : Int) p => t + p.1.toInt * p.2.toInt) (BitVec.ofNat 32 v.toNat).toInt
  (BitVec.ofInt 32 sum).setWidth 42

/-- R96: what a TMMA makes of its tile over its first `groups` K-groups. -/
def mmaTile (k : Core) (t : TInstr) (a b : TDesc) (la lb : List (List Byte × List Byte)) (groups : Nat) :
    Core × FpFlags :=
  let n := kGroup a.fmt
  let va := la.map (lineVals a)
  let vb := lb.map (lineVals b)
  let cells := (List.range 16).flatMap fun i => (List.range 16).map fun j => (i, j)
  cells.foldl (fun (o : Core × FpFlags) p =>
    let v := o.1.getAcc t.acc.toNat p.1 p.2
    if isInt a.fmt then
      (o.1.setAcc .int t.acc.toNat p.1 p.2
        (mmaInt v (((nth ([], []) la p.1).1).take (n * groups)) (((nth ([], []) lb p.2).1).take (n * groups))), o.2)
    else
      let pairs := ((nth [] va p.1).zip (nth [] vb p.2)).take (n * groups)
      let (w, f) := mmaEntry v (pieces n pairs.length pairs)
      (o.1.setAcc .float t.acc.toNat p.1 p.2 w, o.2 ||| f)) (k, 0)

/-- R93, R94: a TLOAD value in the tile. -/
def loadEntry (f : Nat) (code : Nat) : BitVec 42 :=
  if isInt f then BitVec.ofNat 42 code else (roundAcc ((fmtOf f).decodeFlush code)).1

/-- R111: the tile place of element e of line l. -/
def tilePlace (order : Bool) (l e : Nat) : Nat × Nat := if order then (e, l) else (l, e)

/-- R111: a TLOAD's lines in the tile. -/
def loadTile (k : Core) (t : TInstr) (a : TDesc) (ls : List (List Byte × List Byte)) : Core :=
  (List.range ls.length).foldl (fun k l =>
    (List.range 16).foldl (fun k e =>
      let (i, j) := tilePlace a.order l e
      k.setAcc (kindOf a.fmt) t.acc.toNat i j (loadEntry a.fmt (elemCode a.fmt (nth ([], []) ls l).1 e))) k) k

/-- R98: one entry written to an unscaled format. -/
def storeEntry (f : Nat) (sat : Bool) (v : BitVec 42) : Nat × FpFlags :=
  let n := (BitVec.ofNat 32 v.toNat).toInt
  if f = 7 then (bits v.toNat 0 32, 0)
  else if f = 3 then
    if n < -128 then (0x80, flOverflow ||| flInexact) else if 127 < n then (0x7F, flOverflow ||| flInexact) else (bits v.toNat 0 8, 0)
  else (fmtOf f).write sat (fmtAcc.decode v.toNat)

/-- R98, R99, R111: the element and scale bytes of line l of a TSTORE. -/
def storeLine (k : Core) (t : TInstr) (a : TDesc) (l : Nat) : List Byte × List Byte × FpFlags :=
  let row (u : Nat) := (List.range 16).map fun e =>
    let p := tilePlace a.order l e
    k.getAcc u p.1 p.2
  if a.scaled then
    let vals := (row t.acc.toNat ++ row (t.acc.toNat + 1)).map fun v => fmtAcc.decode v.toNat
    let (sc, codes, fl) := (fmtOf a.fmt).writeScaled t.sat vals
    (packCodes a.fmt codes, [BitVec.ofNat 8 sc], fl)
  else
    let out := (row t.acc.toNat).map (storeEntry a.fmt t.sat)
    (packCodes a.fmt (out.map (·.1)), [], flUnion (out.map (·.2)))

/-- R100: the bytes of a converted line. -/
def cvtLine (sat : Bool) (a b : TDesc) (l : List Byte × List Byte) : List Byte × List Byte × FpFlags :=
  let vals := lineVals a l
  if b.scaled then
    let out := (pieces 32 vals.length vals).map ((fmtOf b.fmt).writeScaled sat)
    (packCodes b.fmt (out.flatMap (·.2.1)), out.map (fun o => BitVec.ofNat 8 o.1), flUnion (out.map (·.2.2)))
  else
    let out := vals.map ((fmtOf b.fmt).write sat)
    (packCodes b.fmt (out.map (·.1)), [], flUnion (out.map (·.2)))

/-- Write the lines of an output, elements then scales, through the tensor write port. -/
def writeLines (c : CoreRef) (d : TDesc) : Nat → List (List Byte × List Byte × FpFlags) → State → Core → SpOut
  | _, [], s, k => ⟨s, k, true, []⟩
  | l, x :: xs, s, k =>
    let o := spWrite s c k portTensorWrite (d.base.toNat + l * d.stride) x.1
    if o.ok = false then o
    else
      let p := spWrite o.s c o.k portTensorWrite (d.sbase.toNat + l * d.sstride) x.2.1
      if p.ok = false then p else writeLines c d (l + 1) xs p.s (p.k.raise x.2.2)

/-- What a tensor instruction computes over its first `limit` groups or lines: the core afterwards, its scratchpad
written and its flags raised. -/
def tCompute (c : CoreRef) (t : TInstr) (limit : Nat) (s : State) (k : Core) : SpOut :=
  let a := tensorDesc t.da
  let b := tensorDesc t.db
  match t.op with
  | .tload =>
    if t.mode = 1 then ⟨s, k.clearTile t.acc.toNat, true, []⟩
    else
      let (s', k', ok, ls) := readLines c a 0 (min limit 16) s k
      if ok then ⟨s', loadTile k' t a ls, true, []⟩ else ⟨s', k', false, []⟩
  | .tmma =>
    let (s1, k1, ok1, la) := readLines c a 0 16 s k
    if ok1 = false then ⟨s1, k1, false, []⟩
    else
      let (s2, k2, ok2, lb) := readLines c b 0 16 s1 k1
      if ok2 = false then ⟨s2, k2, false, []⟩
      else
        let (k3, fl) := mmaTile k2 t a b la lb limit
        ⟨s2, k3.raise fl, true, []⟩
  | .tstore =>
    let o := writeLines c a 0 ((List.range (min limit 16)).map (storeLine k t a)) s k
    if o.ok ∧ t.mode = 1 ∧ 16 ≤ limit then
      { o with k := (storeTiles t.acc.toNat a.scaled).foldl Core.clearTile o.k }
    else o
  | .tcvt =>
    let (s1, k1, ok1, ls) := readLines c a 0 (min limit a.lines) s k
    if ok1 = false then ⟨s1, k1, false, []⟩ else writeLines c b 0 (ls.map (cvtLine t.sat a b)) s1 k1

/-- R453: a check that the instruction runs. -/
def checkRuns (t : TInstr) (check : Nat) : Bool :=
  match t.op with
  | .tmma => check == 0 || check == 1 || check == 3 || check == 4
  | .tload => t.mode == 0 && (check == 2 || check == 3)
  | .tstore => check == 2 || check == 3 || check == 4
  | .tcvt => check == 2 || check == 3

/-- R389, R453: DETAIL of source 0x0101. -/
def residueDetail (t : TInstr) (f : ResidueFail) : List Byte :=
  let tile := if t.op = .tcvt then 0xFF else t.acc.toNat + b2n (f.second && t.op == TOp.tstore && (tensorDesc t.da).scaled)
  bytesOf 1 tile ++ bytesOf 1 f.check.toNat ++ bytesOf 2 f.line.toNat ++ bytesOf 4 t.word.toNat ++
    bytesOf 4 t.pc.toNat

/-- R114: the hold of a TLOAD of mode 0b01 ends. -/
def Core.unhold (k : Core) (n : BitVec 6) : Core :=
  k.setCounter n { k.counter n with holds := (k.counter n).holds - 1 }

/-- R121, R453: an accumulator entry that a tensor instruction reads and whose stored residue is wrong: the check of its
first K-group, or of its first line. -/
def staleEntry (k : Core) (t : TInstr) : Option ResidueFail :=
  let d := tensorDesc t.da
  let kind := if isInt d.fmt then TileKind.int else .float
  let bad (tile i j : Nat) : Bool :=
    let x := tget {} k.acc (accKey tile i j)
    (entryOf kind x.val).res != x.res
  let a := t.acc.toNat
  match t.op with
  | .tmma =>
    if (List.range 16).any fun i => (List.range 16).any fun j => bad a i j then some ⟨4, 0, false⟩ else none
  | .tstore =>
    (List.range 16).findSome? fun l =>
      let on (tile : Nat) : Bool := (List.range 16).any fun e => bad tile (tilePlace d.order l e).1 (tilePlace d.order l e).2
      if on a then some ⟨4, BitVec.ofNat 16 l, false⟩
      else if d.scaled && on (a + 1) then some ⟨4, BitVec.ofNat 16 l, true⟩ else none
  | _ => none

/-- R130: every bank row that the instruction reads or writes is open to its port. -/
def tOpens (k : Core) (t : TInstr) : Bool :=
  let (reads, writes) := tRanges t.op t.mode.toNat (tensorDesc t.da) (tensorDesc t.db)
  reads.all (fun r => k.opens portTensorRead r.1.toNat r.2) && writes.all fun r => k.opens portTensorWrite r.1.toNat r.2

/-- R115: the completion of the instruction at place `i` of the queue: no earlier one may hold it back (R117). -/
def tComplete (c : CoreRef) (i : Nat) (fail : Option ResidueFail) (s : State) (k : Core) : State :=
  match k.tq[i]? with
  | none => s
  | some t =>
    let before := k.tq.take i
    if t.started = false ∨ before.any (fun e => tAfter e t) ∨ tOpens k t = false then s
    else
      match (staleEntry k t).or (fail.filter fun f => checkRuns t f.check.toNat) with
      | some f =>
        let o := tCompute c t f.line.toNat s k
        let s1 := o.s.setCore c o.k
        s1.coreFault c { s1.coreReport c 0x0101 with detail := residueDetail t f }
      | none =>
        let o := tCompute c t 4096 s k
        if o.ok = false then o.state c
        else
          let k1 := { o.k with tq := o.k.tq.eraseIdx i }
          let k2 := if t.ce ∧ t.op = .tload ∧ t.mode = 1 then k1.unhold t.ctr else k1
          let (s3, k3) := o.s.countIf c k2 t.ce t.ctr t.bytes
          s3.setCore c { k3 with progress := k.progress + 1 }

/-- TENSOR_COMPLETE (R115, R122). -/
def execTensorComplete (c : CoreRef) (entry : BitVec 3) (fail : Option ResidueFail) (s : State) :
    Host.Outcome State Fault Refusal :=
  coreEvent c s (tComplete c entry.toNat fail)

end Sys2Proof.Machine
end

