-- ==== Sys2Proof/Machine/LinkCodes.lean ====
section
/-!
DEFINITION. Link compression (R257-R259): a block of 32 elements as its scale byte and 32 codes, and its decoding.
-/

namespace Sys2Proof.Machine

/-- R257: the element format of a compressed stream, its bytes for an element, and the wire format. -/
def linkElem (c : LinkCode) : Fmt := if c.wide then fmtF32 else fmtBf16
def linkSize (c : LinkCode) : Nat := if c.wide then 4 else 2
def wireFmt : LinkWire → Fmt
  | .fp8b => fmtFp8B
  | .fp4s => fmtFp4

/-- R257: the bytes of a block of 32 elements; R258: the bytes in which it travels. -/
def linkBlock (c : LinkCode) : Nat := 32 * (linkSize c)
def wireBlock (c : LinkCode) : Nat :=
  match c.wire with
  | .fp8b => 33
  | .fp4s => 17

/-- R88, R258: a value rounded to a format, subnormals kept, and the flags. -/
def Fmt.roundKept (f : Fmt) (sat : Bool) : Fl → Nat × FpFlags
  | .nan => (f.nan, 0)
  | .inf neg => (f.infCode neg, 0)
  | .zero neg => (f.code neg 0, 0)
  | .fin neg m e =>
    let (mag, inexact) := f.roundMag m e
    if f.maxCode < mag then (f.overflowCode sat neg, flOverflow ||| flInexact)
    else (f.code neg mag, flIf inexact (if f.tiny m e then flUnderflow ||| flInexact else flInexact))

/-- R258: a value times a scale's factor. -/
def rescale (s : Nat) : Fl → Fl
  | .fin neg m e => .fin neg m (e - 127 + s)
  | x => x

/-- R99, R258: one block encoded: the elements are read exactly. -/
def encodeBlock (c : LinkCode) (bs : List Byte) : List Byte × FpFlags :=
  let vals := (pieces (linkSize c) bs.length bs).map fun b => (linkElem c).decode (natOf b)
  let (s, codes, flags) := (wireFmt c.wire).writeScaled false vals
  (bytesOf 1 s ++
    (match c.wire with
      | .fp8b => codes.flatMap fun v => bytesOf 1 v
      | .fp4s => (pieces 2 codes.length codes).map fun p => BitVec.ofNat 8 (nth 0 p 0 + 16 * nth 0 p 1)), flags)

/-- R258: one block decoded, each element exactly and then rounded to the element format. -/
def decodeBlockOf (c : LinkCode) (sat : Bool) (bs : List Byte) : List Byte × FpFlags :=
  let s := fieldOf bs 0 1
  let codes : List Nat := match c.wire with
    | .fp8b => (bs.drop 1).map fun (b : Byte) => b.toNat
    | .fp4s => (bs.drop 1).flatMap fun (b : Byte) => [b.toNat % 16, b.toNat / 16]
  let out := codes.map fun v => (linkElem c).roundKept sat (rescale s ((wireFmt c.wire).decode v))
  (out.flatMap fun v => bytesOf (linkSize c) v.1, flUnion (out.map (·.2)))

/-- R258: the bytes of a stream, block by block. -/
def encodeStream (c : LinkCode) (bs : List Byte) : List Byte × FpFlags :=
  let out := (pieces (linkBlock c) bs.length bs).map (encodeBlock c)
  (out.flatMap (·.1), flUnion (out.map (·.2)))
def decodeStream (c : LinkCode) (sat : Bool) (bs : List Byte) : List Byte × FpFlags :=
  let out := (pieces (wireBlock c) bs.length bs).map (decodeBlockOf c sat)
  (out.flatMap (·.1), flUnion (out.map (·.2)))

end Sys2Proof.Machine
end

