-- ==== Sys2Proof/Machine/Packets.lean ====
section
/-!
DEFINITION. Packets of the data network: the header word and its CRC (R154), how an instruction is cut into packets
(R156, R157), and the answers of R167.
-/

namespace Sys2Proof.Machine

/-! ### Opcodes (R155) and status codes (R167) -/

def opWrite : BitVec 4 := 1
def opWriteNotify : BitVec 4 := 2
def opReadReq : BitVec 4 := 3
def opReadResp : BitVec 4 := 4
def opAtomicAdd : BitVec 4 := 5
def opRowcast : BitVec 4 := 6
def opColcast : BitVec 4 := 7
def opReduce : BitVec 4 := 8
def opCompletion : BitVec 4 := 9

/-- R155: the codes that are assigned. -/
def opcodeOk (o : BitVec 4) : Bool := decide (1 ≤ o.toNat) && decide (o.toNat ≤ 9)

/-! ### The header (R154) -/

/-- R154: bits 479:0 of the header. -/
def pktHeader (p : Packet) : Nat :=
  p.opcode.toNat + p.vc.toNat * 2 ^ 4 + b2n p.last * 2 ^ 6 + b2n p.decl * 2 ^ 7 + p.ctr.toNat * 2 ^ 8 +
    b2n p.ctrEn * 2 ^ 14 + b2n p.offPanel * 2 ^ 15 + p.len.toNat * 2 ^ 16 + p.part.toNat * 2 ^ 28 +
    p.dest.toNat * 2 ^ 32 + p.dpanel.toNat * 2 ^ 80 + p.srcX.toNat * 2 ^ 96 + p.srcY.toNat * 2 ^ 105 +
    p.ackSlot.toNat * 2 ^ 114 + b2n p.notify * 2 ^ 118 + p.route.toNat * 2 ^ 120 + p.job.toNat * 2 ^ 128 +
    p.spanel.toNat * 2 ^ 136 + p.flow.toNat * 2 ^ 152 + p.flowTotal.toNat * 2 ^ 168 + p.status.toNat * 2 ^ 192 +
    p.rlocal.toNat * 2 ^ 200 + p.span.toNat * 2 ^ 219 + p.dir.toNat * 2 ^ 228 + p.part2.toNat * 2 ^ 232 +
    p.linkTag.toNat * 2 ^ 352

/-- One bit of the reflected CRC-32 (R154). -/
def crcBit (c : BitVec 32) : BitVec 32 := if c.getLsbD 0 then (c >>> 1) ^^^ 0xEDB88320 else c >>> 1

/-- One byte of the CRC. -/
def crcByte (c : BitVec 32) (b : Byte) : BitVec 32 :=
  crcBit (crcBit (crcBit (crcBit (crcBit (crcBit (crcBit (crcBit (c ^^^ b.setWidth 32))))))))

/-- R154: the IEEE 802.3 frame check sequence. -/
def crc32 (bs : List Byte) : BitVec 32 := bs.foldl crcByte 0xFFFFFFFF ^^^ 0xFFFFFFFF

/-- R154: HCRC over bytes 0-59 of the header. -/
def pktCrc (p : Packet) : BitVec 32 := crc32 (bytesOf 60 (pktHeader p))

/-- A packet with its HCRC. -/
def pktSeal (p : Packet) : Packet := { p with hcrc := pktCrc p }

/-- R166 step 1: HCRC and OPCODE. -/
def pktHeaderOk (p : Packet) : Bool := decide (p.hcrc = pktCrc p) && opcodeOk p.opcode

/-- R151, R154, R170: the router rewrites the VC field; HCRC, which covers that field and which every later router checks,
follows it. [DEDUCED, log 21] -/
def pktOnChannel (p : Packet) (vc : BitVec 2) : Packet := pktSeal { p with vc }

/-- R157: payload flits: at least one, and one for a READ_REQ. -/
def pktFlits (p : Packet) : Nat :=
  if p.opcode = opReadReq then 1 else max 1 ((p.len.toNat + 63) / 64)

/-- R152: the flits of a packet, the header first. -/
def pktAllFlits (p : Packet) : List Flit := (List.range (pktFlits p + 1)).map fun i => ⟨p, i⟩

/-! ### Cutting (R156) -/

/-- R156: pieces of at most 2,048 bytes, cut at every 2,048-byte boundary of the address: (offset from the start,
length), by fuel. -/
def cuts (a : Nat) : Nat → Nat → Nat → List (Nat × Nat)
  | 0, _, _ => []
  | fuel + 1, done, len =>
    if len = 0 then []
    else
      let n := min len (2048 - (a + done) % 2048)
      (done, n) :: cuts a fuel (done + n) (len - n)

/-- R156: the pieces of `len` bytes at address `a`. -/
def cutRange (a len : Nat) : List (Nat × Nat) := cuts a (len / 2048 + 2) 0 len

/-- R149: the channel of a packet of an instruction's route. -/
def routeVc (opcode : BitVec 4) (route : BitVec 2) : BitVec 2 :=
  if opcode = opReadReq then 1
  else if route = 2 then 3
  else if opcode = opRowcast ∨ opcode = opColcast ∨ route = 0 then 1
  else 0

/-- The header fields that every packet of a core's instruction carries (R154, R156). -/
def State.packetBase (s : State) (c : CoreRef) (k : Core) (n : NInstr) (opcode : BitVec 4) : Packet :=
  let d := netDesc (n.desc.setWidth 128)
  { opcode, vc := routeVc opcode n.route, part := k.partNo, part2 := k.partNo, home := k.partNo, link := n.link, srcX := c.x, srcY := c.y,
    route := n.route, job := ((s.dieOf c).map fun x => (s.die x).job).getD 0, spanel := s.panel.panelId,
    flow := n.flow, offPanel := d.offPanel, dpanel := if d.offPanel then BitVec.ofNat 16 d.panel else 0 }

/-! ### Answers (R167) -/

/-- R167: the answer to a packet that is sunk: a READ_RESP with LEN = 0 or a COMPLETION with CTR_EN = 0, to the source
core, with the packet's PART and JOB. ACKs go another way. -/
def pktAnswer (p : Packet) (status : BitVec 8) : Packet :=
  let resp := decide (p.opcode = opReadReq)
  pktSeal {
    opcode := if resp then opReadResp else opCompletion
    vc := if resp ∧ p.route ≠ 2 then 0 else 3
    part := p.part, part2 := p.part, job := p.job, status, home := p.home
    dest := BitVec.ofNat 48 (spAddr ⟨p.srcX, p.srcY⟩ (if resp then p.rlocal.toNat else 0))
    route := if resp ∧ p.route = 0 then 1 else p.route
    offPanel := p.offPanel, dpanel := p.spanel, spanel := p.dpanel
    srcX := BitVec.ofNat 9 (bits p.dest.toNat 37 9), srcY := BitVec.ofNat 9 (bits p.dest.toNat 28 9)
    flow := p.flow, last := p.last }

/-- R161, R222: a COMPLETION that counts bytes at a core. [DEDUCED, log 37] -/
def completionTo (p : Packet) (ctr : BitVec 6) (ctrEn : Bool) (bytes : Nat) : Packet :=
  pktSeal {
    opcode := opCompletion, vc := 3, part := p.part, part2 := p.part, job := p.job, ctr, ctrEn, home := p.home
    dest := BitVec.ofNat 48 (spAddr ⟨p.srcX, p.srcY⟩ 0), payload := bytesOf 4 bytes, offPanel := p.offPanel
    dpanel := p.spanel, spanel := p.dpanel, srcX := p.srcX, srcY := p.srcY, flow := p.flow
    last := p.last, route := p.route }

/-- The core that a packet's DEST names (R29). -/
def pktTarget (p : Packet) : CoreRef :=
  ⟨BitVec.ofNat 9 (bits p.dest.toNat 37 9), BitVec.ofNat 9 (bits p.dest.toNat 28 9)⟩

/-- The source core. -/
def pktSource (p : Packet) : CoreRef := ⟨p.srcX, p.srcY⟩

/-- R149: the buffer of a channel at an input, within a die or behind an edge. -/
def vcSpace (vc : Nat) (edge : Bool) : Nat :=
  match vc, edge with
  | 0, false => 6
  | 1, false => 6
  | 2, false => 8
  | 3, false => 2
  | 3, true => 4
  | _, _ => 16

def Router.buf (r : Router) (inp vc : Nat) : List Flit := tget [] r.inb (4 * inp + vc)
def Router.setBuf (r : Router) (inp vc : Nat) (l : List Flit) : Router :=
  { r with inb := tset [] r.inb (4 * inp + vc) l }

/-- R149: flits that wait for an input enter its buffer while it has room. [DEDUCED, log 21] -/
def Router.refill (r : Router) (inp vc : Nat) : Router :=
  let key := 4 * inp + vc
  match tget [] r.wait key with
  | [] => r
  | w =>
    let n := vcSpace vc false - (r.buf inp vc).length
    { r.setBuf inp vc (r.buf inp vc ++ w.take n) with wait := tset [] r.wait key (w.drop n) }

/-- R149: a packet comes to a router's local (4), culvert (5) or link (6) input. [DEDUCED, log 21] -/
def State.enter (s : State) (c : CoreRef) (inp : Nat) (p : Packet) : State :=
  let r := s.router c
  s.setRouter c (({ r with wait := tpush r.wait (4 * inp + p.vc.toNat) (pktAllFlits p) }).refill inp p.vc.toNat)

/-- A packet of a core comes to its router's local input. -/
def State.inject (s : State) (c : CoreRef) (p : Packet) : State := s.enter c 4 p

/-- R156: a packet that an instruction sends, and not an answer of the core. -/
def pktIssued (c : CoreRef) (n : NInstr) (p : Packet) : Bool :=
  p.flow == n.flow && p.srcX == c.x && p.srcY == c.y && p.opcode != opReadResp && p.opcode != opCompletion

/-- R156: the queue entry of an instruction is free when its last flit has entered the network: a flume's flits have been
taken, a packet's have entered the local input. [DEDUCED, log 21] -/
def State.freeSent (s : State) (c : CoreRef) : State :=
  let k := s.core c
  match k.nq with
  | n :: rest =>
    let left : Bool := match n.flume with
      | some (ep, _) => (tget [] k.flumeOut ep.toNat).isEmpty
      | none => (List.range 4).all fun vc => (tget [] (s.router c).wait (16 + vc)).all fun f => !pktIssued c n f.p
    if n.sent && left then s.setCore c { k with nq := rest, progress := k.progress + 1 } else s
  | [] => s

end Sys2Proof.Machine
end

