-- ==== Sys2Proof/Machine/Registers.lean ====
section
/-!
DEFINITION. What the registers read as: the CSR map (R65-R72), the register blocks of cores, dies, MSDs and IODs and the
panel window (R33-R36), each packed from the state that it shows.
-/

namespace Sys2Proof.Machine

/-- Fields (position, value) of a register in one number. -/
def packFields (l : List (Nat × Nat)) : Nat := (l.map fun e => e.2 * 2 ^ e.1).sum

/-- Fields in a 64-bit register. -/
def reg64 (l : List (Nat × Nat)) : Reg64 := BitVec.ofNat 64 (packFields l)

/-! ### Cores -/

/-- R69: `CORE_STATUS.STATE`. -/
def CoreMode.code : CoreMode → Nat
  | .halted => 0
  | .run => 1
  | .wait => 2
  | .runtime => 3
  | .trapped => 4
  | .faulted => 5

/-- R69, R227: WAITKIND and WAITON. -/
def Core.waitCodes (k : Core) : Nat × Nat :=
  if k.mode = .wait then
    match k.wait with
    | .none => (0, 0)
    | .counter n => (1, n.toNat)
    | .sync ch => (2, ch.toNat)
    | .tensorQueue => (3, 0)
    | .netQueue =>
      (3, match k.nq with
        | n :: _ => if n.op = .cpq ∧ 4 ≤ k.copies.length then 3 else 1
        | [] => 1)
    | .copyQueue => (3, 2)
  else (0, 0)

/-- R68: `CORE_ID`. -/
def coreId (c : CoreRef) : Word := BitVec.ofNat 32 (c.x.toNat + c.y.toNat * 2 ^ 16)

/-- R68: `CORE_PART`. -/
def Core.partCsr (k : Core) : Word :=
  BitVec.ofNat 32 (packFields [(0, k.partReg.toNat), (20, b2n k.sealed), (21, b2n k.detreq)])

/-- R69: `CORE_STATUS`, with the die's determinism-lost flag. -/
def Core.statusCsr (k : Core) (detLost : Bool) : Word :=
  BitVec.ofNat 32
    (packFields [(0, k.mode.code), (3, k.waitCodes.2), (9, k.waitCodes.1), (11, b2n detLost)])

/-- R71: `CORE_SYNCn`. -/
def SyncChan.csr (h : SyncChan) : Word :=
  BitVec.ofNat 32 (packFields
    [(0, b2n h.bound), (1, b2n h.arrived), (2, b2n h.released), (8, h.group.toNat), (16, h.gen.toNat)])

/-- R71: `CORE_CCTn`. -/
def Counter.csr (t : Counter) : Word :=
  BitVec.ofNat 32 (packFields [(0, t.total.toNat), (24, b2n t.armed), (25, b2n t.fired), (26, b2n t.overrun)])

/-- R67: the value of a CSR index that holds a register; `CORE_CYCLE` is read from the sample given. -/
def State.csr (s : State) (c : CoreRef) (k : Core) (cycle : BitVec 64) (i : Nat) : Option Word :=
  if i = 0 then some (coreId c)
  else if i = 1 then some k.partCsr
  else if i = 2 then some (k.statusCsr (((s.dieOf c).map fun d => (s.die d).detLost).getD false))
  else if i = 3 then some (BitVec.ofNat 32 (packFields [(0, k.exitCode.toNat), (16, b2n k.exitValid)]))
  else if i = 4 then some (cycle.setWidth 32)
  else if i = 5 then some (BitVec.ofNat 32 (cycle.toNat / 2 ^ 32))
  else if i = 8 then some (BitVec.ofNat 32 (packFields [(0, b2n k.subn), (1, b2n k.sat)]))
  else if i = 9 then some (k.fpflags.setWidth 32)
  else if i = 0xC then
    some (BitVec.ofNat 32 (packFields [(0, k.tq.length), (4, k.nq.length), (9, k.cq.length)]))
  else if i = 0x10 then some (k.trapCause.setWidth 32)
  else if i = 0x11 then some k.trapPc
  else if i = 0x12 then some k.trapVal
  else if 0x13 ≤ i ∧ i < 0x17 then some (tget 0 k.rtScratch (i - 0x13))
  else if 0x20 ≤ i ∧ i < 0x30 then some (k.chan (BitVec.ofNat 4 (i - 0x20))).csr
  else if 0x40 ≤ i ∧ i < 0x80 then some (k.counter (BitVec.ofNat 6 (i - 0x40))).csr
  else if 0x80 ≤ i ∧ i < 0xC0 then some ((k.counter (BitVec.ofNat 6 (i - 0x80))).count.setWidth 32)
  else none

/-- R44: the cycles of a running core's clock that passed without a step of the model are counted when the counter is
sampled; a clock that is stopped or gated adds none. [DESIGN CHOICE, log 10] -/
def State.elapse (s : State) (c : CoreRef) : State :=
  if s.clocked c then
    (s.onCore c fun k => { k with cycle := k.cycle + Config.elapsedCycles s.free }).tick
  else s

/-- R145: `CORE_SPSTATE`. -/
def Core.spstate (k : Core) : Reg64 :=
  reg64 [(0, k.powered.toNat), (16, k.zeroising.toNat), (32, k.ceCount.toNat), (48, b2n k.ue)]

/-- R413: `CORE_HANG`. -/
def Core.hangReg (k : Core) : Reg64 := reg64 [(0, k.progress.toNat), (32, k.still.toNat)]

/-- R188: `CORE_FLEPn`. -/
def FlumeEp.reg (e : FlumeEp) : Reg64 :=
  reg64 [(0, b2n e.valid), (1, e.role.toNat), (4, e.flume.toNat), (16, e.ctr.toNat), (22, e.base.toNat),
    (35, e.size.toNat), (48, e.pos.toNat)]

/-- The 32-bit word at a byte offset of a core's 8 KiB block (R34, R67, R145, R188, R413); unassigned words read as
zero. -/
def State.coreWord (s : State) (c : CoreRef) (off : Nat) : Word :=
  let k := s.core c
  let half (r : Reg64) : Word := if off % 8 = 0 then r.setWidth 32 else BitVec.ofNat 32 (r.toNat / 2 ^ 32)
  if off < 0x1000 then (s.csr c k k.cycle (off / 4)).getD 0
  else if off < 0x1008 then half k.spstate
  else if off < 0x1010 then half k.hangReg
  else if 0x1100 ≤ off ∧ off < 0x1140 then half (k.endpoint (BitVec.ofNat 3 ((off - 0x1100) / 8))).reg
  else 0

/-! ### Compute dies -/

/-- R179. -/
def NetState.code : NetState → Nat
  | .idle => 0
  | .loading => 1
  | .running => 2
  | .reset => 3

/-- R329. -/
def RegionState.code : RegionState → Nat
  | .off => 0
  | .waiting => 1
  | .ramping => 2
  | .own => 3
  | .logic => 4
  | .dark => 5

/-- R329: LIMITBY, in the order of R319 where caps are equal. -/
def Region.limitBy (r : Region) : Nat :=
  if r.transfer then 4
  else if r.duty = 8 then 0
  else if r.currentCap = r.duty then 1
  else if r.thermalCap = r.duty then 2
  else 3

/-- R329: `CD_RGNn`. -/
def Region.reg (r : Region) : Reg64 :=
  reg64 [(0, r.state.code), (3, r.phases.toNat), (11, r.vout.toNat), (21, r.cap.toNat), (28, r.duty),
    (32, r.limitBy), (35, b2n r.nbWait), (36, r.floor.toNat)]

/-- R346: `CD_FBn`. -/
def Region.fbReg (r : Region) : Reg64 :=
  reg64 [(0, r.stretched.toNat), (16, min 255 r.debt), (24, r.zone.toNat), (26, r.repaid.toNat), (48, r.red.toNat)]

/-- R181: `LNK_EDGEn`. -/
def Edge.reg (e : Edge) : Reg64 :=
  reg64 [(0, e.state.toNat), (2, b2n e.diag), (3, b2n e.weir), (4, e.latency.toNat), (9, e.spares.toNat),
    (24, e.epoch.toNat), (32, e.retries.toNat)]

/-- R240: `CD_CULVGn`. -/
def Culv.reg (g : Culv) : Reg64 :=
  reg64 [(0, g.live.toNat), (8, g.state.toNat), (10, b2n (g.relock.isSome && !g.relockHidden)), (16, g.relocks.toNat), (32, g.retries.toNat)]

/-- The regions of a die, in order. -/
def State.regionsOf (s : State) (d : Nat) : List Region := (List.range 64).map fun n => s.region d n

/-- How many regions of a die are in a state. -/
def State.regionCount (s : State) (d : Nat) (st : RegionState) : Nat :=
  ((s.regionsOf d).filter fun r => r.state = st).length

/-- R322: the live phases of a region. -/
def Region.livePhases (r : Region) : Nat := ((List.range 8).filter fun i => r.phases.getLsbD i).length

/-- R323, R328: `CD_PWRSTAT`; a region with three or more lost phases is on the logic rail. -/
def State.pwrstat (s : State) (d : Nat) : Reg64 :=
  let die := s.die d
  let fall := ((s.regionsOf d).filter fun r => r.state = .logic ∨ (r.state ≠ .dark ∧ r.livePhases ≤ 5)).length
  let rail := if die.logicFailed then 3 else if s.panel.coarse then 2 else if 0 < fall then 1 else 0
  reg64 [(0, die.power.toNat), (12, die.budget.toNat), (24, min 127 fall), (31, min 127 (s.regionCount d .dark)),
    (38, rail), (40, die.unannounced.toNat)]

/-- R362: `CD_THERM`; CAP is the lowest thermal cap of the die's regions, less one. -/
def State.therm (s : State) (d : Nat) : Reg64 :=
  let die := s.die d
  let cap := ((s.regionsOf d).map fun r => r.thermalCap).foldl min 8
  reg64 [(0, die.tLogic.toNat), (12, die.tArray.toNat), (24, cap - 1), (27, die.capBy.toNat),
    (29, b2n die.forecast.isSome), (32, die.spread.toNat), (52, die.degraded.toNat)]

/-- R240: the registers that hold one HBM range. -/
def rangeReg (r : Option (BitVec 9 × BitVec 9)) : Reg64 :=
  match r with
  | some (a, b) => reg64 [(0, a.toNat), (16, b.toNat), (31, 1)]
  | none => 0

/-- The die-level register at an 8-aligned offset of a compute die window; unassigned offsets read as zero. -/
def State.dieReg (s : State) (d off : Nat) : Reg64 :=
  let die := s.die d
  let o := off - 0x800000
  if o = 0 then reg64 [(0, die.strap.toNat), (16, die.strapOk.toNat)]
  else if o = 0x100 then reg64 [(0, die.forceLog2.toNat), (16, die.scrubPasses.toNat)]
  else if o = 0x300 then
    reg64 [(0, die.part.toNat), (4, b2n die.assigned), (8, die.job.toNat), (16, die.net.code)]
  else if o = 0x308 then
    reg64 [(0, die.discarded.toNat), (16, die.escapes.toNat), (32, die.parityErr.toNat), (48, die.hcrcErr.toNat)]
  else if 0x400 ≤ o ∧ o < 0x420 then (s.edge d ((o - 0x400) / 8)).reg
  else if o = 0x500 then
    reg64 [(0, s.panel.liveStacks.toNat), (32, s.liveStacks.length), (38, die.gran.toNat)]
  else if 0x508 ≤ o ∧ o < 0x528 then rangeReg die.ranges[(o - 0x508) / 8]?
  else if 0x540 ≤ o ∧ o < 0x580 then (s.culvert d ((o - 0x540) / 8)).reg
  else if o = 0x600 then s.pwrstat d
  else if 0x700 ≤ o ∧ o < 0x900 then (s.region d ((o - 0x700) / 8)).reg
  else if o = 0x900 then
    reg64 [(0, b2n die.locked), (1, b2n die.detLost), (2, b2n die.det), (8, die.slips.toNat),
      (16, min 255 die.elastic.length), (24, die.lastSlip.toNat)]
  else if o = 0xB00 then s.therm d
  else if o = 0xC00 then die.retRegions
  else if o = 0xC08 then
    reg64 [(0, die.retCores.toNat), (11, ((List.range 64).filter fun i => die.retRegions.getLsbD i).length),
      (18, b2n die.retired), (19, b2n die.retPending)]
  else if 0x1000 ≤ o ∧ o < 0x1200 then (s.region d ((o - 0x1000) / 8)).fbReg
  else if o = 0x1200 then (tget {} s.panel.transit d).fbReg
  else 0

/-- The 64-bit word at an 8-aligned offset of a compute die window (R34). -/
def State.dieWindow (s : State) (d off : Nat) : Reg64 :=
  if off < 0x800000 then
    match s.coreAt d (off / 0x2000) with
    | some c => s.coreWord c (off % 0x2000 + 4) ++ s.coreWord c (off % 0x2000)
    | none => 0
  else s.dieReg d off

/-! ### MSDs and IODs -/

/-- R241: `MSD_STACKn`. -/
def Stack.reg (k : Stack) (hppr : Nat) : Reg64 :=
  reg64 [(0, k.state.toNat), (3, k.rate.toNat), (8, k.ce.toNat), (24, k.ue.toNat), (32, min 255 k.soft.length),
    (40, min 255 hppr)]

/-- R241: `MSD_STACKn` of physical stack `p`, its hard repairs among it. -/
def State.stackReg (s : State) (p : Nat) : Reg64 :=
  (s.stack p).reg ((Config.hardRepairs p).toNat + (tget [] s.hardRows p).length)

/-- The register at an offset of an MSD's window (R26, R241). -/
def State.msdReg (s : State) (m off : Nat) : Reg64 :=
  if off = 0x800000 then reg64 [(0, (s.msd m).strap.toNat)]
  else if 0x800100 ≤ off ∧ off < 0x800120 then
    let n := (off - 0x800100) / 8
    s.stackReg (4 * m + n)
  else if off = 0x800200 then reg64 [(0, (s.msd m).hours.toNat), (16, (s.msd m).passes.toNat)]
  else 0

/-- R268: `LNK_PORTn`. -/
def Port.reg (p : Port) : Reg64 :=
  reg64 [(0, b2n p.fused), (1, p.state.toNat), (4, b2n p.keyed), (5, p.attRow.toNat), (9, p.attCol.toNat),
    (13, p.edge.toNat), (16, p.peerPanel.toNat), (32, p.peerPort.toNat)]

/-- R268: `LNK_PORTERRn`. -/
def Port.errReg (p : Port) : Reg64 :=
  reg64 [(0, p.retries.toNat), (16, p.fecCorr.toNat), (32, p.tagFail.toNat), (48, p.laneFail.toNat)]

/-- The register at an offset of an IOD's window (R26, R268): IOD i holds ports 8i to 8i + 7. -/
def State.iodReg (s : State) (i off : Nat) : Reg64 :=
  if off = 0x800000 then reg64 [(0, (tget 0 s.panel.iodStraps i).toNat)]
  else if 0x800100 ≤ off ∧ off < 0x800140 then (s.port (8 * i + (off - 0x800100) / 8)).reg
  else if 0x800180 ≤ off ∧ off < 0x8001C0 then (s.port (8 * i + (off - 0x800180) / 8)).errReg
  else 0

/-! ### The panel window -/

/-- R206: `HWD_BGRPn`. -/
def BGroup.reg (g : BGroup) : Reg64 :=
  reg64 [(0, b2n g.valid), (1, g.part.toNat), (8, g.gen.toNat), (16, g.dies.toNat), (24, g.pending.toNat),
    (32, b2n g.detHold), (33, b2n g.fallback)]

/-- R264: `HWD_BGLASTn`. -/
def BGroup.lastReg (g : BGroup) : Reg64 :=
  reg64 [(0, g.dieRow.toNat), (4, g.dieCol.toNat), (8, g.panel.toNat), (24, g.gens.toNat)]

/-- R391, R392: an uncleared record that holds FAULT_N low. -/
def FaultRec.holds (r : FaultRec) : Bool := !r.cleared && (r.cls == 1 || r.cls == 2 || r.cls == 3)

/-- R392: FAULT_N is low. -/
def State.faultLow (s : State) : Bool := s.faults.any FaultRec.holds || s.panel.stage == 0xF

/-- R441, R444: whether FAULT_N, READY_N and MGMT_ALERT_N are high; without the standby rail the first two float high. -/
def State.statusPins (s : State) : Bool × Bool × Bool :=
  (s.panel.hwdHeld || !s.faultLow, s.panel.hwdHeld || !s.panel.ready, s.panel.pldm.isEmpty)

/-- R373: PSTATE. -/
def PState.code : PState → Nat
  | .run => 0
  | .idle => 1
  | .regionGated => 2
  | .standby => 3

/-- R36: `PNL_ID`. -/
def Panel.idReg (p : Panel) : Reg64 :=
  reg64 [(0, p.variant.toNat), (4, p.revision.toNat), (8, p.windowStart.toNat), (16, p.panelId.toNat),
    (32, b2n p.idLock)]

/-- R384: `HWD_BOOT`. -/
def Panel.bootReg (p : Panel) : Reg64 :=
  reg64 [(0, p.stage.toNat), (4, b2n p.ready), (5, p.lastReset.toNat), (8, p.cfgSrc.toNat), (10, b2n p.recovery),
    (11, b2n p.tested), (12, p.pstate.code), (16, p.retiredAtTest.toNat), (32, p.bootTime.toNat)]

/-- R327: `PNL_PWRSTAT`. -/
def State.panelPwrstat (s : State) : Reg64 :=
  let p := s.panel
  reg64 [(0, p.power.toNat), (16, p.vin.toNat), (28, p.iin.toNat), (44, b2n p.coarse),
    (45, b2n (s.regions.any fun e => e.2.budgetCap < 8)),
    (46, min 255 ((s.regions.filter fun e => e.2.state = .waiting).length))]

/-- R361: `PNL_COOL`. -/
def Panel.coolReg (p : Panel) : Reg64 :=
  reg64 [(0, p.flow.toNat), (16, p.tin.toNat), (28, p.tout.toNat), (40, p.coolState.toNat)]

/-- R411: `HWD_FAULT`. -/
def State.faultReg (s : State) : Reg64 :=
  let open_ := s.faults.filter FaultRec.holds
  reg64 [(0, open_.length), (13, (open_.map fun r => r.cls.toNat).foldl max 0), (16, b2n s.faultLow),
    (17, ((s.faults.getLast?).map fun r => r.seq.toNat).getD 0)]

/-- R411: `HWD_REC`. -/
def State.recReg (s : State) : Reg64 :=
  reg64 [(0, s.recorder.next.toNat), (9, b2n s.recorder.permFull), (16, s.recorder.suppressed.toNat),
    (32, s.panel.seq.toNat)]

/-- R430: `HWD_SEC`. -/
def State.secReg (s : State) : Reg64 :=
  let sealed := packFields ((List.range 16).map fun n =>
    (n, b2n ((s.part n).img.sealed && decide ((s.part n).state ≠ .free ∧ (s.part n).state ≠ .idle))))
  reg64 [(0, s.sec.fwc.toNat), (8, s.sec.cfc.toNat), (16, s.sec.owners.length - 1), (18, b2n (!s.sec.owners.isEmpty)),
    (20, s.sec.sessions.length), (24, sealed)]

/-- The register at an 8-aligned offset of the panel window; unassigned offsets read as zero. -/
def State.panelReg (s : State) (o : Nat) : Reg64 :=
  let p := s.panel
  if o = 0 then p.idReg
  else if o = 0x100 then p.bootReg
  else if 0x1000 ≤ o ∧ o < 0x1060 then
    let r := s.row ((o - 0x1000) / 8)
    reg64 [(0, r.lcol.toNat), (48, r.leftOut.toNat), (52, r.epoch.toNat)]
  else if 0x2000 ≤ o ∧ o < 0x2200 then (s.group ((o - 0x2000) / 8)).reg
  else if 0x2400 ≤ o ∧ o < 0x2600 then
    let g := s.group ((o - 0x2400) / 8)
    reg64 [(0, g.lastWait.toNat), (32, g.maxWait.toNat)]
  else if 0x2600 ≤ o ∧ o < 0x2800 then (s.group ((o - 0x2600) / 8)).lastReg
  else if o = 0x2800 then
    reg64 [(0, s.ring.state.toNat), (2, s.ring.panels.toNat), (9, s.ring.circuit.toNat), (32, s.ring.resends.toNat)]
  else if o = 0x2808 then
    let sh := s.shadow s.shadowShown
    reg64 [(0, sh.role.toNat), (2, sh.peer.toNat), (18, sh.windows.toNat), (40, sh.mismatch.toNat)]
  else if o = 0x3000 then reg64 [(0, p.limit.toNat)]
  else if o = 0x3008 then s.panelPwrstat
  else if o = 0x3100 then p.coolReg
  else if o = 0x3200 then s.faultReg
  else if o = 0x3208 then reg64 [(0, p.thresh.toNat), (16, p.hangs.toNat)]
  else if o = 0x3210 then s.recReg
  else if o = 0x3300 then s.secReg
  else if 0x3400 ≤ o ∧ o < 0x3500 then
    let t := tget {} s.recorder.trig ((o - 0x3400) / 8)
    reg64 [(0, t.kind.toNat), (8, b2n t.enable), (9, t.list.toNat), (16, t.filter.toNat)]
  else if 0x3800 ≤ o ∧ o < 0x3C00 then
    let e := tget {} s.recorder.sel ((o - 0x3800) / 8)
    reg64 [(0, e.addr.toNat), (63, b2n e.valid)]
  else 0

/-! ### Any register -/

/-- R33: where a register address leads; none where no window or unit answers. -/
inductive RegPlace where
  | die (site off : Nat)
  | msd (m off : Nat)
  | iod (i off : Nat)
  | panel (off : Nat)
  | bad
deriving DecidableEq, Repr

/-- R33, R35: the place of a panel address. -/
def State.regPlace (s : State) (a : Nat) : RegPlace :=
  match decodeAddr a with
  | .reg 0 row col off _ =>
    match s.dieAt row col with
    | some d => .die d off
    | none => .bad
  | .reg 1 row col off kind =>
    if kind = 0 then (if s.siteOk ⟨BitVec.ofNat 4 row, BitVec.ofNat 4 col⟩ then .die (16 * row + col) off else .bad)
    else if kind = 1 ∧ row < 8 ∧ col = 15 then .msd row off
    else if kind = 2 ∧ row < 8 ∧ col = 15 then .iod row off
    else .bad
  | .reg 2 _ _ off _ => .panel off
  | _ => .bad

/-- The 64-bit word at an 8-aligned place. -/
def State.regAt (s : State) : RegPlace → Reg64
  | .die d off => s.dieWindow d off
  | .msd m off => s.msdReg m off
  | .iod i off => s.iodReg i off
  | .panel off => s.panelReg off
  | .bad => 0

/-- The bytes of the register space from an address on. -/
def State.regBytes (s : State) (a : Nat) : Nat → List Byte
  | 0 => []
  | n + 1 =>
    BitVec.ofNat 8 ((s.regAt (s.regPlace (a / 8 * 8))).toNat / 2 ^ (8 * (a % 8))) :: s.regBytes (a + 1) n

/-- R34: the core whose 8 KiB block holds a place of the register space. -/
def State.blockCore (s : State) : RegPlace → Option CoreRef
  | .die d off => if off < 0x800000 then s.coreAt d (off / 0x2000) else none
  | _ => none

/-- R44: a read of `n` bytes from a register address samples the cycle counters of the cores whose blocks it touches. -/
def State.sampleRegs (s : State) (a n : Nat) : State :=
  (List.range ((a % 0x2000 + n + 0x1FFF) / 0x2000)).foldl (fun s i =>
    match s.blockCore (s.regPlace (a / 0x2000 * 0x2000 + 0x2000 * i)) with
    | some c => s.elapse c
    | none => s) s

end Sys2Proof.Machine
end

