-- ==== Sys2Proof/Machine/Sha512.lean ====
section
/-!
DEFINITION. SHA-512 (FIPS 180-4), which the manual names for the image DIGEST and its chunks (R292, R294) and for
measurements and owner keys (R420, R421).
-/

namespace Sys2Proof.Machine

/-- The first eighty primes. -/
def shaPrimes : List Nat :=
  [2, 3, 5, 7, 11, 13, 17, 19, 23, 29, 31, 37, 41, 43, 47, 53, 59, 61, 67, 71, 73, 79, 83, 89, 97, 101, 103, 107, 109, 113] ++
  [127, 131, 137, 139, 149, 151, 157, 163, 167, 173, 179, 181, 191, 193, 197, 199, 211, 223, 227, 229, 233, 239, 241] ++
  [251, 257, 263, 269, 271, 277, 281, 283, 293, 307, 311, 313, 317, 331, 337, 347, 349, 353, 359, 367, 373, 379, 383] ++
  [389, 397, 401, 409]

/-- The `n` low binary digits of the integer k-th root of `v`, above those already found. -/
def rootBits (k v : Nat) : Nat → Nat → Nat
  | 0, r => r
  | n + 1, r => rootBits k v n (if (r + 2 ^ n) ^ k ≤ v then r + 2 ^ n else r)

/-- The first 64 bits of the fractional part of the k-th root of a prime. -/
def rootFraction (k p : Nat) : Nat := rootBits k (p * 2 ^ (64 * k)) 70 0 % 2 ^ 64

/-- The round constants, and the initial hash value. -/
def shaK : List Nat := shaPrimes.map (rootFraction 3)
def shaInit : List Nat := (shaPrimes.take 8).map (rootFraction 2)

/-- 64-bit words as numbers: sum, rotation right, complement. -/
def add64 (a b : Nat) : Nat := (a + b) % 2 ^ 64
def rotr64 (n x : Nat) : Nat := x / 2 ^ n + x % 2 ^ n * 2 ^ (64 - n)
def not64 (x : Nat) : Nat := 2 ^ 64 - 1 - x

def shaBig0 (x : Nat) : Nat := (rotr64 28 x).xor ((rotr64 34 x).xor (rotr64 39 x))
def shaBig1 (x : Nat) : Nat := (rotr64 14 x).xor ((rotr64 18 x).xor (rotr64 41 x))
def shaSmall0 (x : Nat) : Nat := (rotr64 1 x).xor ((rotr64 8 x).xor (x / 2 ^ 7))
def shaSmall1 (x : Nat) : Nat := (rotr64 19 x).xor ((rotr64 61 x).xor (x / 2 ^ 6))
def shaCh (x y z : Nat) : Nat := (x.land y).xor ((not64 x).land z)
def shaMaj (x y z : Nat) : Nat := (x.land y).xor ((x.land z).xor (y.land z))

/-- The message schedule, newest word first, by fuel. -/
def shaSchedule : Nat → List Nat → List Nat
  | 0, w => w
  | n + 1, w =>
    shaSchedule n
      (add64 (add64 (shaSmall1 (nth 0 w 1)) (nth 0 w 6)) (add64 (shaSmall0 (nth 0 w 14)) (nth 0 w 15)) :: w)

/-- One round: the eight working variables a to h, a constant and a schedule word. -/
def shaRound (v : List Nat) (kw : Nat × Nat) : List Nat :=
  match v with
  | [a, b, c, d, e, f, g, h] =>
    let t1 := add64 h (add64 (shaBig1 e) (add64 (shaCh e f g) (add64 kw.1 kw.2)))
    let t2 := add64 (shaBig0 a) (shaMaj a b c)
    [add64 t1 t2, a, b, c, add64 d t1, e, f, g]
  | _ => v

/-- A big-endian number. -/
def beNat (bs : List Byte) : Nat := bs.foldl (fun a b => 256 * a + b.toNat) 0

/-- One block of 128 bytes. -/
def shaBlock (h : List Nat) (b : List Byte) : List Nat :=
  let w := (shaSchedule 64 ((pieces 8 16 b).map beNat).reverse).reverse
  List.zipWith add64 h ((shaK.zip w).foldl shaRound h)

/-- The padded message. -/
def shaPad (bs : List Byte) : List Byte :=
  bs ++ [0x80] ++ List.replicate ((239 - bs.length % 128) % 128) 0 ++ (bytesOf 16 (8 * bs.length)).reverse

/-- The 64 bytes of the digest. -/
def sha512 (bs : List Byte) : List Byte :=
  let p := shaPad bs
  ((pieces 128 p.length p).foldl shaBlock shaInit).flatMap fun w => (bytesOf 8 w).reverse

/-- A digest as the number that its bytes spell, least significant first. -/
def digestOf (bs : List Byte) : BitVec 512 := BitVec.ofNat 512 (natOf (sha512 bs))

/-- RFC 2104: HMAC with SHA-512. -/
def hmac512 (key msg : List Byte) : List Byte :=
  let k := if 128 < key.length then sha512 key else key
  let pad (x : Byte) : List Byte := (k ++ List.replicate (128 - k.length) 0).map (· ^^^ x)
  sha512 (pad 0x5C ++ sha512 (pad 0x36 ++ msg))

/-- RFC 5869: the blocks of an expansion, by fuel. -/
def hkdfBlocks (prk info : List Byte) : Nat → Nat → List Byte → List Byte
  | 0, _, _ => []
  | fuel + 1, i, last =>
    let t := hmac512 prk (last ++ info ++ bytesOf 1 i)
    t ++ hkdfBlocks prk info fuel (i + 1) t

/-- R414, R423: HKDF with SHA-512: salt, input key, information, length. -/
def hkdfSha512 (salt ikm info : List Byte) (len : Nat) : List Byte :=
  (hkdfBlocks (hmac512 salt ikm) info ((len + 63) / 64) 1 []).take len

end Sys2Proof.Machine
end

