-- ==== Sys2Proof/Machine/Ports.lean ====
section
/-!
DEFINITION. What waits at a port for its link: the port of a packet and its attachment (R242, R250), link channels and their
flits (R246, R251), link tags (R252), and what a port takes in (R257, R265, R266).
-/

namespace Sys2Proof.Machine

/-- The core at coordinates. -/
def coreXY (x y : Nat) : CoreRef := ⟨BitVec.ofNat 9 x, BitVec.ofNat 9 y⟩

/-! ### Places -/

/-- Whether an HBM byte lies in some of the ranges. -/
def inRanges (ranges : List (BitVec 9 × BitVec 9)) (n a : Nat) : Bool :=
  decide (0 < n) && ranges.any fun r => decide (r.1.toNat ≤ a / regionSize n) && decide (a / regionSize n ≤ r.2.toNat)

/-- A partition whose job runs, its regions open. -/
def PartState.runs : PartState → Bool
  | .running => true
  | .checkpoint => true
  | .held => true
  | .ending => true
  | _ => false

/-- The running job that owns an HBM address. -/
def State.hbmOwner (s : State) (a : Nat) : Option Nat :=
  (List.range 16).find? fun n => (s.part n).state.runs && inRanges (s.part n).img.ranges s.liveStacks.length a

/-- The partition to which a packet's DEST belongs. -/
def State.destPart (s : State) (p : Packet) : Option Nat :=
  match decodeAddr p.dest.toNat with
  | .hbm a => s.hbmOwner a
  | .sp x y _ => s.partOfDie (y / 32) (x / 32)
  | .reg 0 row col _ _ => s.partOfDie row col
  | _ => none

/-- A packet that goes to another panel. -/
def State.leaves (s : State) (p : Packet) : Bool := p.offPanel && decide (p.dpanel ≠ s.panel.panelId)

/-- R242, R243: the router of the outer die edge at place `pos` of a port's attachment. -/
def Port.edgeCore (p : Port) (pos : Nat) : CoreRef :=
  let x0 := 32 * p.attCol.toNat
  let y0 := 32 * p.attRow.toNat
  match p.edge.toNat with
  | 0 => coreXY (x0 + pos) y0
  | 1 => coreXY (x0 + 31) (y0 + pos)
  | 2 => coreXY (x0 + pos) (y0 + 31)
  | _ => coreXY x0 (y0 + pos)

/-- R242: of the 4 consecutive edge routers that a port joins, the one that serves a core of this panel: the packets of one
core all take the same. [DESIGN CHOICE, log 38] -/
def State.attachCore (s : State) (port : Nat) (c : CoreRef) : CoreRef :=
  (s.port port).edgeCore (min (Config.attachPos port).toNat 28 + Config.attachLink (512 * c.y.toNat + c.x.toNat) % 4)

/-! ### Link flumes and tags -/

/-- R432: the binding's group holds this panel alone. -/
def GroupBinding.lone (b : GroupBinding) : Bool :=
  if b.ports = [] then Config.ringMembers b.group == 1 else fieldOf b.ports 0 1 == 0xFF && fieldOf b.ports 1 1 == 0

/-- R255: an entry of a partition's link table. -/
def State.linkSpec (s : State) (n r : Nat) : Option LinkSpec :=
  (s.part n).img.links[r]?

/-- R250, R255: the port of a packet for another panel: of its link flume, on the panel where that begins, or by the route. -/
def State.pktPort (s : State) (p : Packet) : Option Nat :=
  let ports := tget [] s.panel.routes (p.dpanel.toNat % 4096)
  let crc := crc32 (bytesOf 2 p.srcX.toNat ++ bytesOf 2 p.srcY.toNat ++ bytesOf 2 p.dpanel.toNat)
  match p.link.bind fun r => if p.spanel = s.panel.panelId then s.linkSpec p.home.toNat r.toNat else none with
  | some ⟨.flume _ port _ _ _ _ _ _, _⟩ => some port.toNat
  | _ => if ports = [] then none else (ports[crc.toNat % ports.length]?).map (·.toNat)

/-- R257, R432: how an entry's stream travels; exact in an unbound partition and in a group of one panel. -/
def State.linkCode (s : State) (n : Nat) (sp : LinkSpec) : Option LinkCode :=
  match (s.part n).bound with
  | some b => if b.lone then none else sp.cmp
  | none => none

/-- R252: the link tag of a partition's stream. -/
def State.linkTag (s : State) (n cls : Nat) (cmp : Bool) : BitVec 64 :=
  match (s.part n).bound with
  | some b => reg64 [(0, b.group.toNat), (16, b.epoch.toNat), (32, cls), (34, b2n cmp)]
  | none => reg64 [(32, cls), (34, b2n cmp)]

/-- R257, R258: a packet of a link flume as it crosses the link. -/
def State.compressed (s : State) (p : Packet) : Packet :=
  match (p.link.bind fun r => s.linkSpec p.home.toNat r.toNat).bind fun sp => s.linkCode p.home.toNat sp with
  | some c =>
    let (bs, flags) := encodeStream c p.payload
    { p with payload := bs, cmp := some c, flags := p.flags ||| flags }
  | none => p

/-! ### Keys -/

/-- R247, R425: the key and the salt of a direction, by the exchange of draw `n`; a link secret is further salt (R426). -/
def linkKey (n : Nat) (secret : List Byte) (serial : BitVec 128) : LinkKey :=
  let k := hkdfSha512 (Config.linkTranscript n ++ secret) (Config.linkShared n)
    (("azp link".toList.map fun c => BitVec.ofNat 8 c.toNat) ++ bytesOf 16 serial.toNat) 36
  { key := k.take 32, salt := BitVec.ofNat 32 (natOf (k.drop 32)) }

/-- R425, R426: new keys in both directions. -/
def Port.rekeyed (q : Port) (n : Nat) (secret : List Byte) : Port :=
  { q with keyed := true, tx := linkKey n secret Config.serial, rx := linkKey n secret (Config.linkPeer n) }

/-- R247: the IV of the next frame of a direction. -/
def LinkKey.iv (k : LinkKey) : BitVec 96 := BitVec.ofNat 96 (k.salt.toNat + 2 ^ 32 * (k.count % 2 ^ 64))

/-! ### Channels -/

/-- R251: the channel kind of a packet. -/
def pktChan (p : Packet) : LinkChan :=
  if p.link.isSome then .flume
  else if p.opcode = opReadResp ∨ p.opcode = opCompletion then .answer
  else .request

/-- The payload flits of a packet on a link, fewer where it travels compressed (R258). -/
def linkFlits (p : Packet) : Nat := if p.cmp.isSome then max 1 ((p.payload.length + 63) / 64) else pktFlits p

/-- The flits of a packet on a link. -/
def pktSlots (cls : BitVec 2) (p : Packet) : List LinkSlot :=
  (List.range (linkFlits p + 1)).map fun i => ⟨pktChan p, cls, .flit p i⟩

/-- R249: a parked or failed port carries nothing. -/
def Port.dead (p : Port) : Bool := p.state == 4 || p.state == 5

/-- Flits come to a port. -/
def State.pushPort (s : State) (n : Nat) (fs : List LinkSlot) : State :=
  let q := s.port n
  if q.dead then s else s.setPort n { q with txq := q.txq ++ fs }

/-- CRC-64 of ECMA-182 (R266), one bit. -/
def crc64Bit (c : BitVec 64) : BitVec 64 :=
  if c.getLsbD 63 then (c <<< 1) ^^^ 0x42F0E1EBA9EA3693 else c <<< 1

/-- CRC-64 (R266). -/
def crc64 (bs : List Byte) : BitVec 64 :=
  bs.foldl (fun c b =>
    let x : BitVec 64 := c ^^^ ((b.setWidth 64 : BitVec 64) <<< 56)
    (List.range 8).foldl (fun (c : BitVec 64) _ => crc64Bit c) x) 0

/-- R266: what an outbound packet adds to the digest. -/
def pktDigest (p : Packet) : Reg64 :=
  crc64 (bytesOf 1 p.opcode.toNat ++ bytesOf 2 p.len.toNat ++ bytesOf 6 p.dest.toNat ++ bytesOf 2 p.dpanel.toNat ++
    bytesOf 2 p.srcX.toNat ++ bytesOf 2 p.srcY.toNat ++ bytesOf 2 p.flow.toNat ++ p.payload)

/-- R251, R252, R265, R266: a packet leaves for another panel in class 0; a shadow's packets are discarded, and both panels of
a shadow binding keep the digest. -/
def State.sendPort (s : State) (n : Nat) (p : Packet) : State :=
  let sh := s.shadow p.home.toNat
  let s1 := if sh.role ≠ 0 then s.setShadow p.home.toNat { sh with sum := sh.sum + pktDigest p } else s
  if sh.role = 2 then s1
  else
    let q := s1.compressed p
    s1.pushPort n (pktSlots 0 (pktSeal { q with linkTag := s1.linkTag p.home.toNat 0 q.cmp.isSome }))

/-- R158, R251, R265: the ACK of a packet of another panel goes back by the port of the core that it was for. -/
def State.linkAck (s : State) (p : Packet) (a : AckMsg) : State :=
  let c := pktTarget p
  match s.pktPort { p with dpanel := p.spanel, srcX := c.x, srcY := c.y } with
  | none => s
  | some n => if (s.shadow p.home.toNat).role = 2 then s else s.pushPort n [⟨.answer, 0, .ack a⟩]

end Sys2Proof.Machine
end

