-- ==== Sys2Proof/Machine/Network.lean ====
section
/-!
DEFINITION. The network interface of a core: the network instructions at issue (R55-R57, R189, R227), counters (R59),
and the engines that take the queues (R56, R156, R158).
-/

namespace Sys2Proof.Machine

/-! ### Issue -/

/-- R156: FLOW of the instruction that issues now, itself counted. -/
def Core.nextFlow (k : Core) : Core := { k with flowCount := k.flowCount + 1 }

/-- The flume-table entry of an INDEX in the core's partition (R183). -/
def State.flumeEntry (s : State) (part : BitVec 4) (index : BitVec 12) : Option Nat :=
  ((s.part part.toNat).img.flumes.find? fun e => decide (bits e.toNat 0 12 = index.toNat)).map (·.toNat)

/-- R183: the destination core, or first tap, of an entry. -/
def flumeDst (e : Nat) : CoreRef := ⟨BitVec.ofNat 9 (bits e 36 9), BitVec.ofNat 9 (bits e 45 9)⟩
/-- R183: the source, or first contributor corner. -/
def flumeSrc (e : Nat) : CoreRef := ⟨BitVec.ofNat 9 (bits e 18 9), BitVec.ofNat 9 (bits e 27 9)⟩
/-- R183: KIND 0 unicast, 1 multicast, 2 collector. -/
def flumeKind (e : Nat) : Nat := bits e 12 2

/-- R188: the roles that send. -/
def FlumeEp.sends (e : FlumeEp) : Bool := e.valid && (e.role == 0 || e.role == 3)

/-- R189: the SEND matches the endpoint. -/
def State.flumeMatches (s : State) (k : Core) (d : NDesc) (remote : Nat) (e : FlumeEp) : Bool :=
  match s.flumeEntry k.partNo e.flume with
  | none => false
  | some t =>
    e.sends && !d.offPanel &&
      decide (remote = spAddr (flumeDst t) (64 * (e.base.toNat + e.pos.toNat))) &&
      decide (d.length % 64 = 0) && decide (64 * e.pos.toNat + d.length ≤ 64 * e.size.toNat) &&
      decide (d.rctr = e.ctr) && !d.decl && (!d.notify || flumeKind t == 0)

/-- R189: the endpoint that a SEND travels on. -/
def State.matchFlume (s : State) (k : Core) (d : NDesc) (remote : Nat) : Option (BitVec 3) :=
  ((List.range 8).find? fun i => s.flumeMatches k d remote (k.endpoint (BitVec.ofNat 3 i))).map (BitVec.ofNat 3)

/-- R257: a length is whole blocks of a stream that travels compressed. -/
def wholeBlocks (code : Option LinkCode) (n : Nat) : Bool :=
  match code with
  | some c => n % linkBlock c == 0
  | none => true

/-- R255, R257: the SEND matches the window position of a link flume, under the rules of R189; one that is not whole blocks of
a compressed stream does not. [DESIGN CHOICE, log 38] -/
def State.linkMatches (s : State) (k : Core) (d : NDesc) (remote : Nat) (e : LinkEnd) : Bool :=
  match s.linkSpec k.partNo.toNat e.entry.toNat with
  | some sp =>
    match sp.kind with
    | .flume _ _ _ panel dst base size ctr =>
      d.offPanel && decide (d.panel = panel.toNat) &&
        decide (remote = spAddr dst (64 * (base.toNat + e.pos))) &&
        decide (d.length % 64 = 0) && decide (64 * e.pos + d.length ≤ 64 * size.toNat) &&
        decide (d.rctr = ctr) && !d.decl && wholeBlocks (s.linkCode k.partNo.toNat sp) (64 * e.pos) &&
        wholeBlocks (s.linkCode k.partNo.toNat sp) d.length
    | .collector _ _ _ => false
  | none => false

/-- R255: the link flume that a SEND travels on. -/
def State.matchLink (s : State) (k : Core) (d : NDesc) (remote : Nat) : Option LinkEnd :=
  k.linkEps.find? (s.linkMatches k d remote)

/-- R189, R255: a link flume endpoint moved on by `n` positions, wrapping at its window's size. -/
def State.linkAdvance (s : State) (k : Core) (e : LinkEnd) (n : Nat) : Core :=
  let size := match s.linkSpec k.partNo.toNat e.entry.toNat with
    | some ⟨.flume _ _ _ _ _ _ size _, _⟩ => size.toNat
    | _ => 0
  { k with linkEps := k.linkEps.map fun x =>
      if x = e then { e with pos := if size ≤ e.pos + n then e.pos + n - size else e.pos + n } else x }

/-- R188, R189: POS moved on by `n` positions, wrapping at SIZE. -/
def FlumeEp.advance (e : FlumeEp) (n : Nat) : FlumeEp :=
  { e with pos := BitVec.ofNat 12 (if e.size.toNat ≤ e.pos.toNat + n then e.pos.toNat + n - e.size.toNat else e.pos.toNat + n) }

/-- R56, R57, R59 step 2, R156: a SEND, SENDM, READ or AADD that passes its checks enters the 16-entry queue. -/
def netEnqueue (c : CoreRef) (op : NOp) (f : FmtN) (loc remote : Nat) (s : State) (k : Core) : State × Core :=
  let raw := k.getD f.d.toNat
  let d := netDesc raw
  let k1 := k.nextFlow
  let ep := if op = .send then s.matchFlume k d remote else none
  let link := if op = .send then s.matchLink k d remote else none
  let n : NInstr :=
    { op, desc := raw.setWidth 256, remote := BitVec.ofNat 48 remote, local_ := BitVec.ofNat 19 loc
      length := if op.usesLength then d.length else 4, ctr := f.ctr, ce := f.ce = 1
      route := if link.isSome then 1 else f.route
      addend := k.getG f.gs, flow := k1.flowCount, flume := ep.map fun i => (i, (k.endpoint i).pos)
      link := link.map (·.entry) }
  let k2 := match ep, link with
    | some i, _ => k1.setEndpoint i ((k1.endpoint i).advance (d.length / 64))
    | none, some e => s.linkAdvance k1 e (d.length / 64)
    | none, none => k1
  let k3 := if op = .read then { k2 with reads := k2.reads + d.length } else k2
  let k4 := { k3 with nq := k3.nq ++ [n] }
  if f.ce = 1 ∧ op ≠ .aadd then
    s.armCounter c k4 f.ctr (if op = .sendm ∧ d.notify then d.length * d.span else d.length)
  else (s, k4)

/-- R57: issue of a SEND, SENDM, READ or AADD. -/
def netIssue (c : CoreRef) (op : NOp) (f : FmtN) (word : Word) (s : State) (k : Core) : Issue :=
  match s.netCheck c k op f word with
  | .inl (cause, val) => .trap cause val
  | .inr (loc, remote) =>
    if 16 ≤ k.nq.length then .wait s k .netQueue
    else
      let (s', k') := netEnqueue c op f loc remote s k
      .done s' k' (nextPc k)

/-- SEND (R56, R189). -/
def execSend (c : CoreRef) (f : FmtN) (s : State) : Host.Outcome State Fault Refusal :=
  issue c s (netIssue c .send f (wordN 0x28 f))

/-- SENDM (R56). -/
def execSendm (c : CoreRef) (f : FmtN) (s : State) : Host.Outcome State Fault Refusal :=
  issue c s (netIssue c .sendm f (wordN 0x29 f))

/-- READ (R56). -/
def execRead (c : CoreRef) (f : FmtN) (s : State) : Host.Outcome State Fault Refusal :=
  issue c s (netIssue c .read f (wordN 0x2A f))

/-- AADD (R56): g[gs] is the addend and no offset is applied. -/
def execAadd (c : CoreRef) (f : FmtN) (s : State) : Host.Outcome State Fault Refusal :=
  issue c s (netIssue c .aadd f (wordN 0x2B f))

/-- CPQ (R227, R229). -/
def execCpq (c : CoreRef) (f : FmtN) (s : State) : Host.Outcome State Fault Refusal :=
  issue c s fun s k =>
    match s.cpqCheck c k f (wordN 0x2C f) with
    | .inl (cause, val) => .trap cause val
    | .inr desc =>
      if 16 ≤ k.nq.length then .wait s k .netQueue
      else
        let k1 := k.nextFlow
        let n : NInstr :=
          { op := .cpq, desc, remote := 0, local_ := 0, length := 32, ctr := 0, ce := false, route := f.route
            addend := 0, flow := k1.flowCount }
        .done s { k1 with nq := k1.nq ++ [n] } (nextPc k)

/-- CCOPY (R56). -/
def execCcopy (c : CoreRef) (f : FmtN) (s : State) : Host.Outcome State Fault Refusal :=
  issue c s fun s k =>
    match s.copyCheck c k f (wordN 0x2D f) with
    | .inl (cause, val) => .trap cause val
    | .inr (src, dst) =>
      if 4 ≤ k.cq.length then .wait s k .copyQueue
      else
        let d := netDesc (k.getD f.d.toNat)
        let k1 := k.nextFlow
        let e : CInstr :=
          ⟨BitVec.ofNat 19 src, BitVec.ofNat 19 dst, d.length, f.ctr, f.ce = 1⟩
        let k2 := { k1 with cq := k1.cq ++ [e] }
        let (s', k') := if f.ce = 1 then s.armCounter c k2 f.ctr d.length else (s, k2)
        .done s' k' (nextPc k)

/-- CARM (R59 step 1): a TOTAL above 2^24 - 1 takes the descriptor trap; bits 8:0 must be zero (R45). [DEDUCED, log 76] -/
def execCarm (c : CoreRef) (f : FmtN) (s : State) : Host.Outcome State Fault Refusal :=
  issue c s fun s k =>
    let n := (k.getG f.gs).toNat % 2 ^ 24
    if f.zero ≠ 0 then .trap causeIllegal (wordN 0x31 f)
    else if (k.counter f.ctr).armTooMuch n then .trap causeDescriptor (wordN 0x31 f)
    else
      let (s', k') := s.armCounter c k f.ctr n
      .done s' k' (nextPc k)

/-- R59 step 4: the WAITC of counter `n` completes. -/
def Core.consumed (k : Core) (n : BitVec 6) : Core := k.setCounter n (k.counter n).consume

/-- WAITC (R59 step 4): completes at issue when the counter has fired, otherwise the core waits. [DEDUCED, log 76] -/
def execWaitc (c : CoreRef) (f : FmtN) (s : State) : Host.Outcome State Fault Refusal :=
  issue c s fun s k =>
    if f.zero ≠ 0 then .trap causeIllegal (wordN 0x32 f)
    else if (k.counter f.ctr).fired then .done s (k.consumed f.ctr) (nextPc k)
    else .wait s k (.counter f.ctr)

/-- WAITC_COMPLETE (R59 step 4): the counter that the core waits on has fired. -/
def execWaitcComplete (c : CoreRef) (s : State) : Host.Outcome State Fault Refusal :=
  coreEvent c s fun s k =>
    match k.mode, k.wait with
    | .wait, .counter n =>
      if (k.counter n).fired ∧ s.clocked c then
        s.setCore c { (k.consumed n).progressed with mode := .run, wait := .none, pc := nextPc k }
      else s
    | _, _ => s

/-! ### The engines -/

/-- R158: the first free acknowledgement slot. -/
def Core.freeSlot (k : Core) : Option (BitVec 4) :=
  ((List.range 16).find? fun i => !(k.slot (BitVec.ofNat 4 i)).used).map (BitVec.ofNat 4)

/-- R158: a NOTIFY instruction takes a slot for every byte that its targets acknowledge. -/
def Core.takeSlot (k : Core) (i : BitVec 4) (n : NInstr) : Core :=
  let d := netDesc (n.desc.setWidth 128)
  k.setSlot i { used := true, ctr := n.ctr, ce := n.ce,
                left := if n.op = .sendm then n.length * d.span else n.length }

/-- R156: send the pieces of a SEND or SENDM, reading each through the egress port. A piece with an uncorrectable word
is not sent, nor are the pieces after it (R138). -/
def sendPieces (c : CoreRef) (n : NInstr) (slot : Option (BitVec 4)) :
    List (Nat × Nat) → State → Core → State × Core × Bool
  | [], s, k => (s, k, true)
  | (at_, len) :: rest, s, k =>
    let o := spRead s c k portEgress (n.local_.toNat + at_) len
    if o.ok = false then (o.s, o.k, false)
    else
      let d := netDesc (n.desc.setWidth 128)
      let opcode := if n.op = .sendm then (if d.axis then opColcast else opRowcast)
        else if d.notify then opWriteNotify else opWrite
      let p := pktSeal { State.packetBase o.s c o.k n opcode with
        last := rest.isEmpty, decl := d.decl, ctr := d.rctr, ctrEn := true, len := BitVec.ofNat 12 len
        dest := n.remote + BitVec.ofNat 48 at_, ackSlot := slot.getD 0, notify := d.notify
        flowTotal := if d.decl then BitVec.ofNat 24 n.length else 0
        span := if n.op = .sendm then BitVec.ofNat 9 d.span else 0
        dir := if n.op = .sendm then BitVec.ofNat 1 (b2n d.dir) else 0, payload := o.bytes }
      let (s1, k1) := o.s.countIf c o.k (n.ce && !d.notify) n.ctr len
      sendPieces c n slot rest (s1.inject c p) k1

/-- R156, R159: one READ_REQ per piece. -/
def readPieces (c : CoreRef) (n : NInstr) : List (Nat × Nat) → State → Core → State
  | [], s, _ => s
  | (at_, len) :: rest, s, k =>
    let p := pktSeal { s.packetBase c k n opReadReq with
      last := rest.isEmpty, ctr := n.ctr, ctrEn := n.ce, len := BitVec.ofNat 12 len
      dest := n.remote + BitVec.ofNat 48 at_, rlocal := n.local_ + BitVec.ofNat 19 at_ }
    readPieces c n rest (s.inject c p) k

/-- R187, R190: the flits of a SEND that travels on a flume, from its stream position on. -/
def flumeFlits (c : CoreRef) (n : NInstr) (slot : Option (BitVec 4)) (base pos : Nat) (bs : List Byte) :
    List FlumeFlit :=
  let chunks := pieces 64 bs.length bs
  let lens := (cutRange (64 * (base + pos)) bs.length).map fun p => p.1 + p.2
  (List.range chunks.length).map fun i =>
    { data := nth [] chunks i, srcX := c.x, srcY := c.y, flow := n.flow, notifySlot := slot
      pieceEnd := if slot.isSome ∧ lens.contains (64 * (i + 1)) then
          let start := ((cutRange (64 * (base + pos)) bs.length).find? fun p => p.1 + p.2 = 64 * (i + 1)).map (·.2)
          start.map (BitVec.ofNat 12)
        else none }

/-- R227: the MSDs that have a live stack. -/
def State.liveMsds (s : State) : List Nat :=
  (List.range 8).filter fun m => s.liveStacks.any fun p => p / 4 == m

/-- R155, R227: the descriptor WRITEs of a CPQ, one to every MSD with a live stack. -/
def cpqPackets (c : CoreRef) (n : NInstr) (s : State) (k : Core) : List Packet :=
  let q := (copyDesc n.desc).queue.toNat
  s.liveMsds.map fun m =>
    pktSeal { s.packetBase c k n opWrite with
      vc := 3, last := true, len := 32, payload := bytesOf 32 n.desc.toNat
      dest := BitVec.ofNat 48 (3 * 2 ^ 46 + 2 ^ 44 + 2 ^ 32 + m * 2 ^ 28 + 15 * 2 ^ 24 + 0x400000 + 0x20 * q) }

/-- The head of the network queue may begin to inject: its partition is not in reset (R178), a NOTIFY instruction finds
a slot (R158), a CPQ a copy credit (R227). -/
def Core.headReady (k : Core) (n : NInstr) : Bool :=
  match n.op with
  | .cpq => decide (k.copies.length < 4)
  | .send | .sendm => !(netDesc (n.desc.setWidth 128)).notify || k.freeSlot.isSome
  | _ => true

/-- R156: the head of the network queue is sent: its packets come to the local input, or, of a SEND on a flume, its data is
read out. Its entry is free once the network has taken the last flit. -/
def niInjectHead (c : CoreRef) (n : NInstr) (rest : List NInstr) (s : State) (k : Core) : State :=
  let k0 := { k with nq := { n with sent := true } :: rest }
  let fin (s : State) (k' : Core) : State := (s.setCore c k').freeSent c
  match n.op with
  | .aadd =>
    let d := netDesc (n.desc.setWidth 128)
    let p := pktSeal { s.packetBase c k n opAtomicAdd with
      last := true, ctr := d.rctr, ctrEn := true, len := 4, dest := n.remote, payload := bytesOf 4 n.addend.toNat }
    fin (s.inject c p) k0
  | .read => fin (readPieces c n (cutRange n.remote.toNat n.length) s k) k0
  | .cpq =>
    let ps := cpqPackets c n s k
    fin (ps.foldl (fun s p => s.inject c p) s)
      (if ps = [] then k0 else { k0 with copies := k0.copies ++ [(n.flow, s.liveMsds.map (BitVec.ofNat 3))] })
  | _ =>
    let slot := if (netDesc (n.desc.setWidth 128)).notify then k.freeSlot else none
    let k1 := match slot with
      | some i => k0.takeSlot i n
      | none => k0
    match n.flume with
    | some (ep, pos) =>
      let o := spRead s c k1 portEgress n.local_.toNat n.length
      if o.ok = false then (o.s.setCore c { o.k with nq := rest })
      else
        let e := o.k.endpoint ep
        let flits := tget [] o.k.flumeOut ep.toNat ++ flumeFlits c n slot e.base.toNat pos.toNat o.bytes
        let k2 := { o.k with flumeOut := tset [] o.k.flumeOut ep.toNat flits }
        let (s3, k3) := o.s.countIf c k2 (n.ce && slot.isNone) n.ctr n.length
        fin s3 k3
    | none =>
      let (s2, k2, ok) := sendPieces c n slot (cutRange n.remote.toNat n.length) s k1
      if ok then fin s2 k2 else s2.setCore c { k2 with nq := rest }

/-- R129: an instruction that reads the scratchpad out through the egress port. -/
def NInstr.readsOut (n : NInstr) : Bool := n.op == .send || n.op == .sendm

/-- NI_INJECT (R156). [DESIGN CHOICE, log 1] -/
def execNiInject (c : CoreRef) (s : State) : Host.Outcome State Fault Refusal :=
  coreEvent c s fun s k =>
    match k.nq, s.dieOf c with
    | n :: rest, some d =>
      if (s.die d).net = .reset ∨ s.clocked c = false then s
      else if n.sent then s.freeSent c
      else if k.headReady n = false ∨ (n.readsOut ∧ k.opens portEgress n.local_.toNat n.length = false) then s
      else niInjectHead c n rest s k
    | _, _ => s

/-- COPY_ENGINE_MOVE (R56, R129): the CCOPY at the head of the copy queue moves its bytes. -/
def execCopyEngineMove (c : CoreRef) (s : State) : Host.Outcome State Fault Refusal :=
  coreEvent c s fun s k =>
    match k.cq with
    | [] => s
    | e :: rest =>
      if s.clocked c = false ∨ k.opens portCopy e.src.toNat e.length = false ∨
          k.opens portCopy e.dst.toNat e.length = false then s
      else
        let o := spRead s c k portCopy e.src.toNat e.length
        if o.ok = false then o.state c
        else
          let p := spWrite o.s c { o.k with cq := rest } portCopy e.dst.toNat o.bytes
          if p.ok = false then p.state c
          else
            let (s2, k2) := p.s.countIf c p.k e.ce e.ctr e.length
            s2.setCore c { k2 with progress := k.progress + 1 }

end Sys2Proof.Machine
end

