-- ==== Sys2Proof/Machine/Router.lean ====
section
/-!
DEFINITION. The data network's routers: goals and routes (R150, R218, R250), grants and forwarding (R149, R152, R186),
channel changes (R151), turnouts (R194), and sunk packets and their answers (R167, R169, R170).
-/

namespace Sys2Proof.Machine

/-! ### Router ports -/

/-- The outputs: 0 north, 1 east, 2 south, 3 west, 4 local, 5 culvert group, 6 inter-panel port. -/
def outLocal : Nat := 4
def outCulvert : Nat := 5
def outLink : Nat := 6



/-- The router behind an output: within a die, or across its edge past the dies that a weir bypasses (R12, R21). -/
def State.beside (s : State) (c : CoreRef) (out : Nat) : Option (Nat × Nat) :=
  let x := c.x.toNat
  let y := c.y.toNat
  let open_ (k : Nat) : Bool := !s.bypassed (dieRow c) k
  match out with
  | 0 => if y = 0 then none else some (x, y - 1)
  | 1 =>
    if x % 32 ≠ 31 then some (x + 1, y)
    else ((List.range s.lcols).find? fun k => decide (dieCol c < k) && open_ k).map fun k => (32 * k, y)
  | 2 => if y = 383 then none else some (x, y + 1)
  | 3 =>
    if x % 32 ≠ 0 then some (x - 1, y)
    else ((List.range (dieCol c)).reverse.find? open_).map fun k => (32 * k + 31, y)
  | _ => none

/-- The input of the neighbour that an output feeds. -/
def farInput (out : Nat) : Nat := (out + 2) % 4

/-- What stands on the way out of a router. -/
inductive LinkWay where
  | free | shut | sink (status : BitVec 8)
deriving DecidableEq, Repr

/-- R15: whether two cores' routers are of different dies. -/
def otherDie (c n : CoreRef) : Bool := decide (dieRow n ≠ dieRow c ∨ dieCol n ≠ dieCol c)

/-- The step over an output: within a die it is free; a die edge must be active, its die's transit alive and not in reset
(R169, R370). -/
def State.stepWay (s : State) (c : CoreRef) (out : Nat) : LinkWay :=
  match s.beside c out with
  | none => .shut
  | some (x, y) =>
    let n := coreXY x y
    if otherDie c n = false then .free
    else
      match s.siteAt (dieRow c) (dieCol c), s.siteAt (dieRow n) (dieCol n) with
      | some d, some d' =>
        let e := s.edge d' (farInput out)
        if (s.die d').inReset then .sink 0x02
        else if e.state = 3 ∨ (s.edge d out).state = 3 ∨ (s.die d').transitFailed then .sink 0x04
        else if e.state = 1 then .free
        else .shut
      | _, _ => .sink 0x04

/-- R402 step 2: a hold stands before the link, whose path an engagement is about to change. -/
def State.heldLink (s : State) (c : CoreRef) (out : Nat) : Bool :=
  match s.siteAt (dieRow c) (dieCol c), s.beside c out with
  | some d, some (x, y) => otherDie c (coreXY x y) && s.panel.holds.contains (4 * d + out)
  | _, _ => false

/-- Free places of a channel behind an output towards a neighbour. -/
def State.credits (s : State) (c : CoreRef) (out vc : Nat) : Nat :=
  match s.beside c out with
  | none => 0
  | some (x, y) =>
    let n := coreXY x y
    vcSpace vc (otherDie c n) - ((s.router n).buf (farInput out) vc).length

/-! ### Goals and routes -/

/-- R218: the exit or entry router of culvert group m in the die of a core, by the parity of an x. -/
def culvertCore (c : CoreRef) (m x : Nat) : CoreRef :=
  coreXY (32 * dieCol c + 4 * m + (if x % 2 = 1 then 1 else 2)) (32 * dieRow c + 16)

/-- R214: the culvert group of a packet for the memory side; a packet outside the populated range goes on group 0. [DEDUCED, log 37] -/
def State.pktGroup (s : State) (c : CoreRef) (p : Packet) : Option Nat :=
  match decodeAddr p.dest.toNat with
  | .hbm a =>
    let gran := ((s.dieOf c).map fun d => (s.die d).gran).getD 0
    some (((s.hbmMap gran a).map fun e => e.1 / 4).getD 0)
  | .reg 1 m 15 _ 1 => if m < 8 then some m else none
  | _ => none

/-- Where a packet leaves the mesh, or the status with which it is sunk here. -/
inductive Goal where
  | at (c : CoreRef) (out : Nat)
  | sink (status : BitVec 8)
deriving DecidableEq, Repr

/-- R150 step 5, R159, R218, R250: a packet's goal, seen from a router. -/
def State.pktGoal (s : State) (c : CoreRef) (p : Packet) : Goal :=
  if s.leaves p then
    if s.panel.panelId = 0xFFFF then .sink 0x05
    else
      match s.pktPort p with
      | none => .sink 0x05
      | some n =>
        let a := s.attachCore n (pktSource p)
        if (s.port n).dead ∧ c = a then .sink 0x05 else .at a outLink
  else
    match decodeAddr p.dest.toNat with
    | .sp x y _ =>
      if 32 * s.lcols ≤ x ∨ 384 ≤ y then .sink 0x01
      else if (s.dieAt (y / 32) (x / 32)).isNone then .sink 0x04
      else .at (coreXY x y) outLocal
    | .reg 0 row col off _ =>
      if 0x800000 ≤ off then .sink 0x01
      else if (s.dieAt row col).isNone then .sink 0x04
      else
        let i := off / 0x2000
        .at (coreXY (32 * col + i % 32) (32 * row + i / 32)) outLocal
    | _ =>
      match s.pktGroup c p with
      | some m => .at (culvertCore c m p.srcX.toNat) outCulvert
      | none => .sink 0x01

/-- Where a packet at the head of a channel goes next: over an output, over one and into local delivery (a turnout), or
nowhere. -/
inductive Hop where
  | out (o : Nat)
  | turn (o : Nat)
  | sink (o : Nat) (status : BitVec 8)
  | wait
deriving DecidableEq, Repr

/-- R195: a packet leg. -/
def pktMulticast (p : Packet) : Bool := p.opcode == opRowcast || p.opcode == opColcast

/-- A step towards a neighbour: it goes, it is sunk at a failed edge (R169), or it waits. -/
def State.hopTo (s : State) (c : CoreRef) (o : Nat) : Hop :=
  match s.stepWay c o with
  | .free => if s.heldLink c o then .wait else .out o
  | .sink st => .sink o st
  | .shut => .wait

/-- R150: dimension order, X first. -/
def dimOrder (c g : CoreRef) : Nat :=
  if c.x.toNat < g.x.toNat then 1
  else if g.x.toNat < c.x.toNat then 3
  else if c.y.toNat < g.y.toNat then 2
  else 0

/-- R150 step 2: west-first minimal adaptive: most free places, and the X step on a tie. A packet with an open minimal
direction waits for it; with none, it is sunk at a failed edge (R169). [DEDUCED, log 22] -/
def State.westFirst (s : State) (c g : CoreRef) : Hop :=
  if g.x.toNat < c.x.toNat then s.hopTo c 3
  else
    let xs := if c.x.toNat < g.x.toNat then [1] else []
    let ys := if c.y.toNat < g.y.toNat then [2] else if g.y.toNat < c.y.toNat then [0] else []
    let good := (xs ++ ys).filter fun o => s.hopTo c o = .out o ∧ 0 < s.credits c o 1
    let best := good.foldl (fun b o => if (b.map fun q => s.credits c q 1).getD 0 < s.credits c o 1 then some o else b)
      (none : Option Nat)
    match best with
    | some o => .out o
    | none =>
      if (xs ++ ys).any fun o => s.stepWay c o = .free then .wait
      else
        match (xs ++ ys).filterMap fun o => match s.stepWay c o with | .sink st => some (o, st) | _ => none with
        | (o, st) :: _ => .sink o st
        | [] => .wait

/-! Legs of ROWCAST and COLCAST (R150 step 4, R194). -/

/-- R55, R150: a leg's next output: along AXIS in DIR. -/
def legOut (p : Packet) : Nat :=
  if p.opcode = opRowcast then (if p.dir = 0 then 1 else 3) else (if p.dir = 0 then 2 else 0)

/-- The distance of two coordinates. -/
def apart (a b : Nat) : Nat := max a b - min a b

/-- Which target of the leg a core is, from 0. -/
def legIndex (p : Packet) (c : CoreRef) : Nat :=
  let t := pktTarget p
  if p.opcode = opRowcast then apart c.x.toNat t.x.toNat else apart c.y.toNat t.y.toNat

/-- R194: the last target. -/
def legLast (p : Packet) (c : CoreRef) : Bool := decide (p.span.toNat ≤ legIndex p c + 1)

/-- R194: a leg at a target: into local delivery, and onward unless this is the last target. -/
def State.legHop (s : State) (c : CoreRef) (p : Packet) : Hop :=
  if legLast p c then .out outLocal
  else
    match s.hopTo c (legOut p) with
    | .out o => .turn o
    | h => h

/-- R149, R150: the next step of a packet on a channel at a router. -/
def State.pktHop (s : State) (c : CoreRef) (p : Packet) (vc : Nat) : Hop :=
  if pktMulticast p ∧ vc = 0 then s.legHop c p
  else
    match s.pktGoal c p with
    | .sink st => .sink outLocal st
    | .at g o =>
      if g = c then (if pktMulticast p ∧ o = outLocal then s.legHop c p else .out o)
      else if vc = 1 ∧ p.route ≠ 1 then s.westFirst c g
      else s.hopTo c (dimOrder c g)

/-! ### Sunk packets -/

/-- R151: the same packet on another channel. -/
def samePacket (p q : Packet) : Bool := decide ({ p with vc := 0, hcrc := 0 } = { q with vc := 0, hcrc := 0 })

/-- The waiting flits of inputs whose buffers have room come in. -/
def Router.refillAll (r : Router) : Router := r.wait.foldl (fun r e => r.refill (e.1 / 4) (e.1 % 4)) r

/-- A packet's flits, and the channels that it holds, leave a router. -/
def Router.purge (r : Router) (p : Packet) : Router :=
  Router.refillAll { r with
    inb := tmap [] (fun _ l => l.filter fun f => !samePacket f.p p) r.inb
    wait := tmap [] (fun _ l => l.filter fun f => !samePacket f.p p) r.wait
    esc := tmap none (fun _ l => l.filter fun q => !samePacket q p) r.esc
    lock := tmap none (fun _ l => l.filter fun x => !samePacket x.p p) r.lock }

/-- Every flit of a packet, and every channel that it holds, leaves the routers. -/
def State.purge (s : State) (p : Packet) : State :=
  { s with routers := tmap {} (fun _ r => r.purge p) s.routers }

/-- R158: an ACK of a packet; one that still waits for the same source and slot takes its bytes. -/
def State.ackPacket (s : State) (p : Packet) (status : BitVec 8) : State :=
  let away := s.leaves { p with dpanel := p.spanel }
  let a : AckMsg :=
    ⟨p.srcX, p.srcY, p.ackSlot, p.len.setWidth 24, status, p.job, if away then some p.spanel else none, p.part⟩
  let same (b : AckMsg) : Bool :=
    b.x == a.x && b.y == a.y && b.slot == a.slot && b.status == a.status && b.job == a.job && b.panel == a.panel && b.part == a.part
  if away then s.linkAck p a
  else
  match s.acks.find? same with
  | some b => { s with acks := s.acks.map fun e => if e = b then { b with bytes := b.bytes + a.bytes } else e }
  | none => { s with acks := s.acks ++ [a] }

/-- R167: answer a packet that is sunk at a router: an ACK, a READ_RESP or a COMPLETION. Answers are not answered. -/
def State.answerPacket (s : State) (c : CoreRef) (p : Packet) (status : BitVec 8) : State :=
  if p.opcode = opReadResp ∨ p.opcode = opCompletion then s
  else if p.notify then s.ackPacket p status
  else s.inject c (pktAnswer p status)

/-- R169: a packet is sunk where it stands and answered. -/
def State.sinkPacket (s : State) (c : CoreRef) (p : Packet) (status : BitVec 8) : State :=
  (s.purge p).answerPacket c p status

/-- R170: the report of a failed header. -/
def State.headerReport (s : State) (c : CoreRef) (p : Packet) (lane0 lane3 : Bool) : Report :=
  let r := s.coreReport c (if lane0 ∨ lane3 then 0x0202 else 0x0203)
  { r with
    part := if lane0 then p.part.setWidth 8 else if lane3 then p.part2.setWidth 8 else 0xFF
    x := 0xFFFF, y := 0xFFFF }

/-- R170, R180: the router that finds a failed header sinks the packet. -/
def State.headerBad (s : State) (c : CoreRef) (p : Packet) (lane0 lane3 : Bool) : State :=
  let s1 := (s.purge p).report (s.headerReport c p lane0 lane3)
  match s1.dieOf c with
  | some d => s1.onDie d fun die => { die with hcrcErr := satInc die.hcrcErr }
  | none => s1

/-! ### Grants (R152) -/

/-- A flit that could take an output. -/
structure Cand where
  rank : Nat
  inp : Nat
  /-- The input channel, or 2 for a flume. -/
  vc : Nat
  /-- The flume's place in the router's list. -/
  flume : Nat := 0
  /-- The flit stands at a turnout of its leg (R194). -/
  turns : Bool := false
deriving DecidableEq, Repr

/-- R131, R194: local delivery has room for one more flit. -/
def Core.localRoom (k : Core) : Bool :=
  k.arrived.isEmpty || decide ((k.arrived.map fun p => pktFlits p + 1).sum ≤ Config.localSpace)

/-- R194: local delivery has room for a flit of a flume. -/
def Core.flumeRoom (k : Core) (ep : Nat) : Bool :=
  (tget [] k.flumeIn ep).isEmpty || decide ((tget [] k.flumeIn ep).length ≤ Config.localSpace)

/-- R159, R194, R222: whether an ejection point takes a packet's flits now. -/
def State.exitOk (s : State) (c : CoreRef) (out : Nat) (p : Packet) : Bool :=
  if out = outLocal then
    (s.core c).localRoom &&
      (decide (p.opcode ≠ opReadReq) ||
        decide ((s.core c).requests.length + ((s.core c).arrived.filter fun q => q.opcode = opReadReq).length < 8))
  else if out = outCulvert then
    match s.siteAt (dieRow c) (dieCol c), s.pktGroup c p with
    | some d, some m =>
      decide (p.opcode ≠ opReadReq) ||
        decide (((s.culvert d m).inq.filter fun q => q.opcode = opReadReq).length < 16)
    | _, _ => false
  else
    match s.pktPort p with
    | some n => decide ((s.port n).state = 2 ∨ (s.port n).state = 3) && (s.port n).keyed
    | none => false

/-- Whether a flit can leave by an output on channel `vc` now. -/
def State.canLeave (s : State) (c : CoreRef) (out vc : Nat) (p : Packet) : Bool :=
  if out < 4 then decide (s.stepWay c out = .free) && decide (0 < s.credits c out vc) else s.exitOk c out p

/-- R151: the channel on which a packet that stands at an input channel goes on. -/
def Router.channel (r : Router) (inp vc : Nat) (p : Packet) : Nat :=
  if tget none r.esc (4 * inp + vc) = some p then 0 else vc

/-- R150 step 4, R151: a flit's next step, and its channel there. -/
def State.flitHop (s : State) (c : CoreRef) (r : Router) (inp vc : Nat) (f : Flit) : Hop × Nat :=
  let ch := r.channel inp vc f.p
  match s.pktHop c f.p ch with
  | .turn o => (.turn o, 0)
  | h => (h, ch)

/-- R152: the rank of a packet's flit, by its channel at the output. [DEDUCED, log 22] -/
def Router.rank (r : Router) (inp vc out : Nat) : Nat :=
  if out = 3 then 1
  else if vc = 1 ∧ r.aged.contains (BitVec.ofNat 3 inp) then 3
  else if out = 0 then 4
  else 5

/-- A flit that stands at a turnout. -/
def Hop.turns : Hop → Bool
  | .turn _ => true
  | _ => false

/-- Whether a head goes by an output now, or is sunk there. -/
def State.headGoes (s : State) (c : CoreRef) (out ch : Nat) (p : Packet) : Hop → Bool
  | .out o => o == out && s.canLeave c out ch p
  | .turn o => o == out && s.canLeave c out ch p && (s.core c).localRoom
  | .sink o _ => o == out
  | .wait => false

/-- Whether the first flit of an input channel goes by an output now: a head that is routed there, or a later flit of the
packet that holds the output's channel. -/
def State.flitGoes (s : State) (c : CoreRef) (r : Router) (out inp vc : Nat) (f : Flit) : Bool :=
  let h := s.flitHop c r inp vc f
  match tget none r.lock (4 * out + h.2) with
  | some l =>
    l.inp.toNat == inp && l.vc.toNat == vc && s.canLeave c out h.2 f.p && (!h.1.turns || (s.core c).localRoom)
  | none => f.idx == 0 && s.headGoes c out h.2 f.p h.1

/-- The first flit of an input channel as a candidate for an output. [DESIGN CHOICE, log 1] -/
def State.wants (s : State) (c : CoreRef) (r : Router) (out inp vc : Nat) : Option Cand :=
  match r.buf inp vc with
  | [] => none
  | f :: _ =>
    let h := s.flitHop c r inp vc f
    if s.flitGoes c r out inp vc f then
      some { rank := r.rank inp vc h.2, inp, vc, turns := h.1.turns || (pktMulticast f.p && decide (out = outLocal)) }
    else none

/-- R152: the packet channels at an output; VC3 gives way once it has had 2 of the last 7 cycles and another channel is
ready. [DEDUCED, log 22] -/
def State.packetCands (s : State) (c : CoreRef) (r : Router) (out : Nat) (others : Bool) : List Cand :=
  let all := ([0, 1, 3] : List Nat).flatMap fun vc => (List.range 7).filterMap fun i => s.wants c r out i vc
  let low := all.filter fun a => a.rank ≠ 1
  let few : Bool := decide (((tget [] r.vc3 out).filter fun b => b).length < 2)
  if few ∨ (low = [] ∧ others = false) then low ++ all.filter fun a => a.rank = 1 else low

/-- R185: places that a flume has at the next input. -/
def flumeSpace (edge : Bool) : Nat := if edge then 4 else 2

/-- The flume of a partition at a router's input. -/
def Router.flumeAt (r : Router) (part : BitVec 4) (flume : BitVec 12) (inp : Nat) : Option FlumeHop :=
  r.flumes.find? fun h => h.part = part ∧ h.flume = flume ∧ h.inp.toNat = inp

/-- The flits that a flume's place in a router offers: its own buffer, or what its source has read out. -/
def State.hopFlits (s : State) (c : CoreRef) (h : FlumeHop) : List FlumeFlit :=
  if h.inp = 4 ∧ h.buf = [] then
    match (List.range 8).find? fun i =>
        let e := (s.core c).endpoint (BitVec.ofNat 3 i)
        e.valid && e.flume == h.flume && e.role == 0 with
    | some i => tget [] (s.core c).flumeOut i
    | none => []
  else h.buf

/-- R187, R188: the receiving endpoint of a flume at its destination. -/
def Core.receiver (k : Core) (flume : BitVec 12) : Option Nat :=
  (List.range 8).find? fun i =>
    let e := k.endpoint (BitVec.ofNat 3 i)
    e.valid && e.flume == flume && (e.role == 1 || e.role == 2 || e.role == 4)

/-- The endpoint of a core that contributes to a flume. -/
def Core.contributes (k : Core) (flume : BitVec 12) : Option Nat :=
  (List.range 8).find? fun i =>
    let e := k.endpoint (BitVec.ofNat 3 i)
    e.valid && e.flume == flume && e.role == 3

/-- R185, R196: the flits that stand at the far end of a flume's step; none when the flume has no place there. -/
def State.farFlits (s : State) (h : FlumeHop) (n : CoreRef) : Option (List FlumeFlit) :=
  match h.leg with
  | none => ((s.router n).flumeAt h.part h.flume (farInput h.out.toNat)).map (·.buf)
  | some col => ((s.core n).contributes h.flume).map fun i => tget [] (if col then (s.core n).colIn else (s.core n).rowIn) i

/-- Whether the next place of a flume has room (R185, R194), and, at a turnout, local delivery. -/
def State.flumeRoom (s : State) (c : CoreRef) (h : FlumeHop) : Bool :=
  (match h.tap with
    | some t => (s.core c).flumeRoom t.toNat
    | none => true) &&
  if h.out = 4 then
    match (s.core c).receiver h.flume with
    | some i => (s.core c).flumeRoom i
    | none => true
  else
    match s.beside c h.out.toNat with
    | none => false
    | some (x, y) =>
      let n := coreXY x y
      decide (s.stepWay c h.out.toNat = .free) &&
        (match s.farFlits h n with
         | some l => decide (l.length < flumeSpace (otherDie c n))
         | none => false)

/-- R186, R194: the flumes that can take an output. -/
def State.flumeCands (s : State) (c : CoreRef) (r : Router) (out : Nat) : List Cand :=
  (List.range r.flumes.length).filterMap fun i =>
    match r.flumes[i]? with
    | none => none
    | some h =>
      if h.out.toNat = out ∧ h.stopped = false ∧ s.hopFlits c h ≠ [] ∧ s.flumeRoom c h then
        some { rank := if 8 ≤ h.earned then 2 else 6, inp := h.inp.toNat, vc := 2, flume := i, turns := h.tap.isSome }
      else none

/-- R152: round robin within a rank: the input after the one served last comes first. -/
def turn (last inp : Nat) : Nat := (inp + 7 - (last + 1) % 7) % 7

/-- R152: the better of two candidates, by rank and, within a rank, by turn. [DESIGN CHOICE, log 64] -/
def Router.better (r : Router) (out : Nat) (a b : Cand) : Bool :=
  let last := tget 0 r.rr (8 * out + a.rank)
  a.rank < b.rank || (a.rank == b.rank && turn last a.inp < turn last b.inp)

/-- R152: the winner of an output. -/
def State.winner (s : State) (c : CoreRef) (r : Router) (out : Nat) : Option Cand :=
  let fl := s.flumeCands c r out
  (s.packetCands c r out (!fl.isEmpty) ++ fl).foldl (fun b a =>
    match b with
    | none => some a
    | some x => if r.better out a x then some a else some x) none

/-! ### Forwarding -/

/-- R252: the sending IOD checks HCRC; what passes goes to its port. -/
def State.toPort (s : State) (c : CoreRef) (n : Nat) (p : Packet) : State :=
  if pktHeaderOk p then s.sendPort n p
  else s.headerBad c p (!p.laneBad.getLsbD 0) (!p.laneBad.getLsbD 3)

/-! ### Culvert groups: R217-R221 -/

/-- R220: the sites that face an MSD. -/
def facing (m : Nat) (d : Site) : Bool :=
  let r := d.row.toNat
  let c := d.col.toNat
  match m with
  | 0 => r == 0 && decide (2 ≤ c) && decide (c ≤ 4)
  | 1 => r == 0 && decide (8 ≤ c) && decide (c ≤ 10)
  | 2 => c == 12 && decide (2 ≤ r) && decide (r ≤ 4)
  | 3 => c == 12 && decide (7 ≤ r) && decide (r ≤ 9)
  | 4 => r == 11 && decide (9 ≤ c) && decide (c ≤ 11)
  | 5 => r == 11 && decide (1 ≤ c) && decide (c ≤ 3)
  | 6 => c == 0 && decide (7 ≤ r) && decide (r ≤ 9)
  | _ => c == 0 && decide (2 ≤ r) && decide (r ≤ 4)

/-- The report of a culvert group. -/
def State.culvertReport (s : State) (k m : Nat) (source : BitVec 16) : Report :=
  { s.dieReport k m source with detail := bytesOf 8 (s.culvert k m).reg.toNat }

/-- R220: packets of a group that is down are lost, and the partitions that own them are reported. [DEDUCED, log 37] -/
def State.culvertLoses (s : State) (k m : Nat) (ps : List Packet) : State :=
  State.reportParts (s.culvertReport k m 0x0304) (distinct (ps.map fun p => p.part.setWidth 8)) s

/-- The packet has left the mesh: into the core's ejection logic, a culvert group, or a port. -/
def State.eject (s : State) (c : CoreRef) (out : Nat) (p : Packet) : State :=
  if out = outLocal then s.onCore c fun k => { k with arrived := k.arrived ++ [p] }
  else if out = outCulvert then
    match s.dieOf c, s.pktGroup c p with
    | some d, some m =>
      if (s.culvert d m).state = 0 then s.culvertLoses d m [p]
      else s.setCulvert d m { s.culvert d m with inq := (s.culvert d m).inq ++ [p] }
    | _, _ => s
  else
    match s.pktPort p with
    | some n => s.toPort c n p
    | none => s

/-- The lock of an output channel after a flit of a packet has passed. -/
def lockAfter (inp vc : Nat) (f : Flit) : Option Lock :=
  if pktFlits f.p ≤ f.idx then none else some ⟨BitVec.ofNat 3 inp, BitVec.ofNat 2 vc, f.p⟩

/-- R152: a cycle of an output, in which it sent a VC3 flit or not. -/
def Router.sent3 (r : Router) (out : Nat) (b : Bool) : Router :=
  { r with vc3 := tset [] r.vc3 out ((b :: tget [] r.vc3 out).take 7) }

/-- R194: the flit goes into local delivery; the copy of the packet is complete with its last flit. -/
def State.localCopy (s : State) (c : CoreRef) (f : Flit) : State :=
  if pktFlits f.p ≤ f.idx then s.onCore c fun k => { k with arrived := k.arrived ++ [f.p] } else s

/-- R151, R152: move the first flit of a packet channel over an output, on channel `ch` there. -/
def State.moveFlit (s : State) (c : CoreRef) (r : Router) (out : Nat) (w : Cand) (ch : Nat) (f : Flit) (rest : List Flit) :
    State :=
  let last : Bool := decide (pktFlits f.p ≤ f.idx)
  let g : Flit := if f.p.vc.toNat = ch then f else { f with p := pktOnChannel f.p (BitVec.ofNat 2 ch) }
  let r1 := (r.setBuf w.inp w.vc rest).refill w.inp w.vc
  let r2 := Router.sent3 { r1 with
    lock := tset none r1.lock (4 * out + ch) (lockAfter w.inp w.vc f)
    esc := if last then tset none r1.esc (4 * w.inp + w.vc) none else r1.esc
    rr := if last then tset 0 r1.rr (8 * out + w.rank) w.inp else r1.rr
    aged := if last ∧ w.vc = 1 then r1.aged.filter fun i => i.toNat ≠ w.inp else r1.aged } out (ch == 3)
  let s0 := s.setRouter c r2
  let s1 := if w.inp = 4 then s0.freeSent c else s0
  if out < 4 then
    let s2 := if w.turns then s1.localCopy c f else s1
    match s2.beside c out with
    | some (x, y) =>
      let n := coreXY x y
      let b := s2.router n
      s2.setRouter n (b.setBuf (farInput out) ch (b.buf (farInput out) ch ++ [g]))
    | none => s2
  else if last then s1.eject c out g.p
  else s1

/-- A flume flit goes to its next place, and at a turnout into local delivery as well (R194). -/
def State.flumeDeliver (s : State) (c : CoreRef) (h : FlumeHop) (f : FlumeFlit) : State :=
  let s0 := match h.tap with
    | some t => s.onCore c fun k => { k with flumeIn := tpush k.flumeIn t.toNat [f] }
    | none => s
  if h.out = 4 then
    s0.onCore c fun k =>
      match k.receiver h.flume with
      | some i => { k with flumeIn := tpush k.flumeIn i [f] }
      | none => k
  else
    match s0.beside c h.out.toNat with
    | none => s0
    | some (x, y) =>
      let n := coreXY x y
      match h.leg with
      | some col =>
        s0.onCore n fun k =>
          match k.contributes h.flume with
          | some i =>
            if col then { k with colIn := tpush k.colIn i [f] } else { k with rowIn := tpush k.rowIn i [f] }
          | none => k
      | none =>
        let g := s0.router n
        s0.setRouter n { g with flumes := g.flumes.map fun e =>
          if e.part = h.part ∧ e.flume = h.flume ∧ e.inp.toNat = farInput h.out.toNat then { e with buf := e.buf ++ [f] }
          else e }

/-- R186: take the first flit of a flume's place, from its buffer or from what its source has read out; one at rank 2 spends
an earned flit. -/
def State.takeFlumeFlit (s : State) (c : CoreRef) (r : Router) (i : Nat) (h : FlumeHop) : State :=
  let rank2 : Bool := decide (8 ≤ h.earned)
  let h' := { h with
    buf := h.buf.drop 1
    earned := if rank2 then h.earned - 8 else h.earned
    rank2 := if rank2 then h.rank2 + 1 else h.rank2
    rank6 := if rank2 then h.rank6 else h.rank6 + 1 }
  let s1 := s.setRouter c { r with flumes := r.flumes.set i h' }
  if h.inp = 4 ∧ h.buf = [] then
    (s1.onCore c fun k =>
      { k with flumeOut := tmap [] (fun e l =>
          let q := k.endpoint (BitVec.ofNat 3 e)
          if q.valid && q.flume == h.flume && q.role == 0 then l.drop 1 else l) k.flumeOut }).freeSent c
  else s1

/-- Forward the winner's flit. A leg whose onward edge has failed is sunk after its delivery here. [DEDUCED, log 22] -/
def State.forward (s : State) (c : CoreRef) (r : Router) (out : Nat) (w : Cand) : State :=
  if w.vc = 2 then
    match r.flumes[w.flume]? with
    | none => s
    | some h =>
      match s.hopFlits c h with
      | [] => s
      | f :: _ =>
        let r1 := Router.sent3 { r with rr := tset 0 r.rr (8 * out + w.rank) w.inp } out false
        (s.takeFlumeFlit c r1 w.flume h).flumeDeliver c h f
  else
    match r.buf w.inp w.vc with
    | [] => s
    | f :: rest =>
      let (hop, ch) := s.flitHop c r w.inp w.vc f
      match (if f.idx = 0 then hop else .out out) with
      | .sink _ st =>
        let s1 := s.setRouter c r
        (if pktMulticast f.p ∧ (ch = 0 ∨ pktTarget f.p = c) then s1.onCore c fun k => { k with arrived := k.arrived ++ [f.p] }
          else s1).sinkPacket c f.p st
      | _ => s.moveFlit c r out w ch f rest

/-- R186: one cycle of an output: its flumes earn their shares, up to 8 flits. -/
def Router.earn (r : Router) (out : Nat) : Router :=
  { r with flumes := r.flumes.map fun h =>
      if h.out.toNat = out then { h with earned := min 64 (h.earned + h.share) } else h }

/-- R152, R186: one cycle of an output. -/
def State.outputCycle (s : State) (c : CoreRef) (out : Nat) : State :=
  let r := (s.router c).earn out
  match s.winner c r out with
  | none => s.setRouter c (r.sent3 out false)
  | some w => s.forward c r out w

/-- R170: a header flit that the output would forward has failed its check. -/
def State.headerFound (s : State) (c : CoreRef) (out : Nat) (lane0 lane3 : Bool) : State :=
  let r := s.router c
  match s.winner c r out with
  | none => s
  | some w =>
    match r.buf w.inp w.vc with
    | f :: _ => if w.vc ≠ 2 ∧ f.idx = 0 then s.headerBad c f.p lane0 lane3 else s
    | [] => s

/-- R176: a control packet is dropped: a request holds its slot and acts nowhere, a reply or an ACK is lost. -/
def State.controlDrop (s : State) : CtlLost → State
  | .request h =>
    if h.bcast = 0 ∧ s.ctlOut.contains h = false then { s with ctlOut := s.ctlOut ++ [h] } else s
  | .reply h => { s with ctlReplies := s.ctlReplies.filter fun e => e.1 ≠ h }
  | .ack a => { s with acks := eraseOne a s.acks }

/-- ROUTER_FLIT_FORWARD (R152, R170, R176): one cycle of an output, or what the router's checks find. -/
def execRouterFlitForward (c : CoreRef) (out : BitVec 3) (ev : FlitEvent) (s : State) :
    Host.Outcome State Fault Refusal :=
  coreEvent c s fun s _ =>
    match ev with
    | .controlCorrected => s.report { s.coreReport c 0x0207 with x := 0xFFFF, y := 0xFFFF }
    | .controlDropped lost => s.controlDrop lost
    | .good => s.outputCycle c out.toNat
    | .headerBad lane0 lane3 => s.headerFound c out.toNat lane0 lane3

/-! ### Channel changes and ages -/

/-- R151: a packet whose head waits at a channel's front and may move to VC0. -/
def escapes (p : Packet) (vc : Nat) : Bool :=
  (vc == 1 && (p.opcode == opWrite || p.opcode == opWriteNotify || p.opcode == opAtomicAdd)) ||
    (vc == 3 && !pktMulticast p)

/-- VC_ESCAPE (R151): the packet moves to VC0 at this router: its flits here, and those that still come, go on from here on
VC0, with the header that VC0 needs. -/
def execVcEscape (c : CoreRef) (inp : BitVec 3) (vc : BitVec 2) (s : State) : Host.Outcome State Fault Refusal :=
  coreEvent c s fun s _ =>
    let r := s.router c
    match r.buf inp.toNat vc.toNat with
    | f :: _ =>
      if f.idx = 0 ∧ escapes f.p vc.toNat ∧ r.channel inp.toNat vc.toNat f.p ≠ 0 then
        let s1 := s.setRouter c { r with
          esc := tset none r.esc (4 * inp.toNat + vc.toNat) (some f.p)
          aged := if vc = 1 then r.aged.filter fun i => i ≠ inp else r.aged }
        match s1.dieOf c with
        | some d => s1.onDie d fun die => { die with escapes := satInc die.escapes }
        | none => s1
      else s
    | [] => s

/-- VC1_AGED (R152): the head of a VC1 packet has waited 32 cycles. -/
def execVc1Aged (c : CoreRef) (inp : BitVec 3) (s : State) : Host.Outcome State Fault Refusal :=
  coreEvent c s fun s _ =>
    let r := s.router c
    match r.buf inp.toNat 1 with
    | f :: _ => if f.idx = 0 ∧ ¬ r.aged.contains inp then s.setRouter c { r with aged := inp :: r.aged } else s
    | [] => s

end Sys2Proof.Machine
end

