-- ==== Sys2Proof/Machine/Scratchpad.lean ====
section
/-!
DEFINITION. What the scratchpad's banks do on their own: ingress writes that become due (R131), deferred writes (R132),
correction write-backs (R137) and the patrol scrubber (R139, R146).
-/

namespace Sys2Proof.Machine

/-- R163: a declared flow meets its counter when its bytes are written; the answer says whether they are counted. -/
def State.declareOn (s : State) (c : CoreRef) (k : Core) (w : RowWrite) : State × Core × Option (BitVec 6) :=
  match w.ctr, w.decl with
  | some n, some (d, total) =>
    let old := k.counter n
    match old.declare d total with
    | some new =>
      let o := s.changeCounter c k n new.compare
      (o.1, o.2, some n)
    | none =>
      let o := s.changeCounter c k n { old with overrun := true }
      (o.1, o.2, none)
  | ctr, _ => (s, k, ctr)

/-- R158: with the last row of a packet with NOTIFY the acknowledgement goes out. -/
def State.rowDone (s : State) (k : Core) (ticket : Option Nat) : State × Core :=
  match ticket with
  | none => (s, k)
  | some t =>
    let l := tget {} k.landing t
    if l.left = 0 then (s, k)
    else if l.left = 1 then (s.ackPacket l.pkt 0x00, { k with landing := tdel k.landing t })
    else (s, { k with landing := tset {} k.landing t { l with left := l.left - 1 } })

/-- R160: the bytes that a row write stores: an ATOMIC_ADD's are the sum with the word that stands there. -/
def RowWrite.stored (w : RowWrite) (c : CoreRef) (m : List Host.Cell) : List Byte :=
  if w.add then bytesOf 4 (fieldOf (memRead m (spAddr c w.off.toNat) 4) 0 4 + natOf w.bytes) else w.bytes

/-- Write a row through its port: its flow is declared (R163), its bytes are counted (R162), its packet is acknowledged
(R158). A write that found an uncorrectable word does none of it (R138). -/
def rowLand (c : CoreRef) (w : RowWrite) (s : State) (k : Core) : State × Core :=
  let o := spWrite s c k w.port.toNat w.off.toNat (w.stored c s.mem)
  if o.ok then
    let d := o.s.declareOn c o.k w
    let n := match d.2.2 with
      | some n => d.1.countBytes c d.2.1 n w.bytes.length
      | none => (d.1, d.2.1)
    n.1.rowDone n.2 w.ticket
  else
    (o.s, match w.ticket with
      | some t => { o.k with landing := tdel o.k.landing t }
      | none => o.k)

/-- INGRESS_DUE (R131): the pending ingress write of a bank becomes due at rank 1, which finds its bank free, and is
granted. -/
def execIngressDue (c : CoreRef) (bank : BitVec 4) (s : State) : Host.Outcome State Fault Refusal :=
  coreEvent c s fun s k =>
    let b := k.bank bank.toNat
    match b.ingress with
    | none => s
    | some w =>
      let (s', k') := rowLand c w s (k.setBank bank.toNat { b with ingress := none })
      s'.setCore c k'

/-- DEFERRED_WRITE (R132): the deferred write of a bank is granted at rank 2. -/
def execDeferredWrite (c : CoreRef) (bank : BitVec 4) (s : State) : Host.Outcome State Fault Refusal :=
  coreEvent c s fun s k =>
    let b := k.bank bank.toNat
    match b.deferred with
    | [] => s
    | w :: rest =>
      let (s', k') := rowLand c w s (k.setBank bank.toNat { b with deferred := rest })
      s'.setCore c k'

/-- CORRECTION_WRITEBACK (R137): the corrected word goes back into its row through the scrubber's port at rank 3, behind a
deferred write of the bank (R130). -/
def execCorrectionWriteback (c : CoreRef) (bank : BitVec 4) (s : State) : Host.Outcome State Fault Refusal :=
  coreEvent c s fun s k =>
    let b := k.bank bank.toNat
    match b.corrections with
    | [] => s
    | o :: rest =>
      if b.deferred ≠ [] then s
      else
        (spWrite s c (k.setBank bank.toNat { b with corrections := rest }) portScrub o.toNat
          (memRead s.mem (spAddr c o.toNat) 8)).state c

/-- The offset of a bank's row (R127). -/
def rowOffset (row bank : Nat) : Nat := (16 * row + bank) * 64

/-- R139: a bank that the scrubber serves: powered and not zeroising. -/
def Core.scrubbed (k : Core) (bank : Nat) : Bool := k.powered.getLsbD bank && !k.zeroising.getLsbD bank

/-- R146: every powered bank of the die has completed a pass. -/
def State.diePassed (s : State) (d : Nat) : Bool :=
  s.cores.all fun e =>
    if s.dieOf (coreOfKey e.1) = some d then
      (List.range 16).all fun n => !e.2.powered.getLsbD n || decide (0 < (e.2.bank n).passes)
    else true

/-- R146: count the die's pass and start the next one. -/
def State.countPass (s : State) (d : Nat) : State :=
  if s.diePassed d then
    let less (_ : Nat) (b : Bank) : Bank := { b with passes := b.passes - 1 }
    let s1 := s.onDie d fun die => { die with scrubPasses := die.scrubPasses + 1 }
    { s1 with cores := tmap {} (fun key k =>
        if s.dieOf (coreOfKey key) = some d then { k with banks := tmap {} less k.banks } else k) s1.cores }
  else s

/-- SCRUB_READ (R139): the next row of a bank is read and checked; unforced, the scrubber has the lowest rank and yields to
what waits at ranks 1-4, forced, it yields to a deferred write (R130). -/
def execScrubRead (c : CoreRef) (bank : BitVec 4) (s : State) : Host.Outcome State Fault Refusal :=
  coreEvent c s fun s k =>
    let n := bank.toNat
    let b := k.bank n
    if k.scrubbed n = false ∨ b.deferred ≠ [] ∨ (b.forced = false ∧ b.opens portScrub = false) then s
    else
      let wraps : Bool := b.scrubRow == 511
      let b' := { b with
        scrubRow := b.scrubRow + 1
        forced := false
        passes := if wraps then b.passes + 1 else b.passes }
      let (s1, k1, _) := eccCheck s c (k.setBank n b') portScrub (rowOffset b.scrubRow.toNat n) 64
      let s2 := s1.setCore c k1
      match wraps, s.dieOf c with
      | true, some d => s2.countPass d
      | _, _ => s2

/-- SCRUB_FORCE (R139): the scrubber asks at rank 3. -/
def execScrubForce (c : CoreRef) (bank : BitVec 4) (s : State) : Host.Outcome State Fault Refusal :=
  coreEvent c s fun s k =>
    if k.scrubbed bank.toNat then
      s.setCore c (k.setBank bank.toNat { k.bank bank.toNat with forced := true })
    else s

/-- Whether a request of ranks 5-11 of a port can wait at a bank: a store that drains, an engine at work, an ingress write. -/
def Core.wantsBank (k : Core) (n : Nat) (port : Nat) : Bool :=
  match port with
  | 0 => k.mode == .run || k.stores.any fun w => bankOf w.off.toNat == n
  | 1 => k.mode == .run
  | 2 => k.tq.any fun t => t.started
  | 3 => k.tq.any fun t => t.started && (t.op == TOp.tstore || t.op == TOp.tcvt)
  | 4 => !k.cq.isEmpty
  | 5 => (k.bank n).ingress.isSome
  | 6 => !k.nq.isEmpty || !k.requests.isEmpty
  | _ => false

/-- BANK_REQUEST_AGED (R130): a port's request that has waited 64 cycles rises to rank 4, behind those that did before. -/
def execBankRequestAged (c : CoreRef) (bank : BitVec 4) (port : BitVec 3) (s : State) :
    Host.Outcome State Fault Refusal :=
  coreEvent c s fun s k =>
    let b := k.bank bank.toNat
    if k.powered.getLsbD bank.toNat ∧ k.wantsBank bank.toNat port.toNat ∧ b.aged.contains port = false then
      s.setCore c (k.setBank bank.toNat { b with aged := b.aged ++ [port] })
    else s

end Sys2Proof.Machine
end

