-- ==== Sys2Proof/Machine/Turnouts.lean ====
section
/-!
DEFINITION. TURNOUT_COPY (R194), die-edge CRC failures (R169, R452), and the tear-down of flumes (R192).
-/

namespace Sys2Proof.Machine

/-! ### Turnouts -/

/-- TURNOUT_COPY (R194): the flit that waits at a turnout of an input goes to local delivery and onward when both have room
and it wins its output's cycle (R152). [DESIGN CHOICE, log 70] -/
def execTurnoutCopy (c : CoreRef) (inp : BitVec 3) (s : State) : Host.Outcome State Fault Refusal :=
  coreEvent c s fun s _ =>
    let turnsAt (out : Nat) : Bool :=
      match s.winner c ((s.router c).earn out) out with
      | some w => w.turns && w.inp == inp.toNat
      | none => false
    match (List.range 5).find? turnsAt with
    | some out => s.outputCycle c out
    | none => s

/-! ### Tear-down of flumes (R192) -/

/-- Whether an endpoint is of a flume that a test picks. -/
def endsIn (pick : BitVec 4 → BitVec 12 → Bool) (part : BitVec 4) (e : FlumeEp) : Bool := e.valid && pick part e.flume

/-- R192: a core's part of a tear-down: held flits gone, VALID cleared. -/
def Core.tearFlumes (k : Core) (pick : BitVec 4 → BitVec 12 → Bool) : Core :=
  let gone (i : Nat) : Bool := endsIn pick k.partNo (k.endpoint (BitVec.ofNat 3 i))
  let keep (t : Tbl (List FlumeFlit)) : Tbl (List FlumeFlit) := tkeep (fun i => !gone i) t
  { k with
    flumeIn := keep k.flumeIn, contrib := keep k.contrib, rowIn := keep k.rowIn, colIn := keep k.colIn
    flumeOut := keep k.flumeOut
    ep := tmap {} (fun _ e => if endsIn pick k.partNo e then { e with valid := false } else e) k.ep }

/-- R192: the flumes that a test picks, by partition and number, are torn down. -/
def State.tearFlumes (s : State) (pick : BitVec 4 → BitVec 12 → Bool) : State :=
  let gone (key : Nat) : Bool := pick (BitVec.ofNat 4 (key / 4096)) (BitVec.ofNat 12 key)
  let s1 := { s with
    linkIn := tkeep (fun key => !gone key) s.linkIn, linkCol := tkeep (fun key => !gone key) s.linkCol
    routers := tmap {} (fun _ r => { r with flumes := r.flumes.filter fun h => !pick h.part h.flume }) s.routers
    cores := tmap {} (fun _ k => k.tearFlumes pick) s.cores }
  s1.cores.foldl (fun s e => s.freeSent (coreOfKey e.1)) s1

/-! ### Die edges -/

/-- The site on the other side of a die edge, by the site maps (R15, R16); one that a weir bypasses is passed, and has no
edges itself (R12, R21). -/
def State.edgePeer (s : State) (d edge : Nat) : Option Nat :=
  match s.placeOf d with
  | none => none
  | some col =>
    let row := d / 16
    let open_ (r k : Nat) : Bool := !s.bypassed r k
    if s.bypassed row col then none
    else
      match edge with
      | 0 => if row = 0 ∨ s.bypassed (row - 1) col then none else s.siteAt (row - 1) col
      | 1 => ((List.range s.lcols).find? fun k => decide (col < k) && open_ row k).bind (s.siteAt row)
      | 2 => if s.bypassed (row + 1) col then none else s.siteAt (row + 1) col
      | _ => ((List.range col).reverse.find? (open_ row)).bind (s.siteAt row)

/-- The 32 cores along a die edge. -/
def State.edgeCores (s : State) (d edge : Nat) : List CoreRef :=
  match s.placeOf d with
  | none => []
  | some col =>
    let x0 := 32 * col
    let y0 := 32 * (d / 16)
    (List.range 32).map fun i =>
      match edge with
      | 0 => coreXY (x0 + i) y0
      | 1 => coreXY (x0 + 31) (y0 + i)
      | 2 => coreXY (x0 + i) (y0 + 31)
      | _ => coreXY x0 (y0 + i)

/-- The packets with a flit in the buffers of a die edge. -/
def State.edgePackets (s : State) (d edge : Nat) : List Packet :=
  (s.edgeCores d edge).flatMap fun c =>
    (List.range 4).flatMap fun vc => ((s.router c).buf edge vc).map (·.p)

/-- The packets that hold a channel over a die edge, with the router before it. -/
def State.edgeLocks (s : State) (d edge : Nat) : List (CoreRef × Packet) :=
  (s.edgeCores d edge).flatMap fun c =>
    (List.range 4).filterMap fun ch => (tget none (s.router c).lock (4 * edge + ch)).map fun l => (c, l.p)

/-- The flumes that come in over a die edge, or go out over it. -/
def State.edgeFlumes (s : State) (d edge : Nat) : List (BitVec 4 × BitVec 12) :=
  (s.edgeCores d edge).flatMap fun c =>
    ((s.router c).flumes.filter fun h => h.inp.toNat = edge ∨ h.out.toNat = edge).map fun h => (h.part, h.flume)

/-- The report of a die edge, with its register (R389). -/
def State.edgeReport (s : State) (d edge : Nat) (source : BitVec 16) : Report :=
  { s.dieReport d edge source with detail := bytesOf 8 (s.edge d edge).reg.toNat }

/-- R452: the sites whose weirs join two dies of a row: those that stand between them. -/
def weirsBetween (d d' : Nat) : List Site :=
  let lo := min d d'
  if d / 16 = d' / 16 then (List.range (max d d' - lo - 1)).map fun i => siteOfKey (lo + 1 + i) else []

/-- R12, R15: the two dies whose traffic a site's weir carries, west and east of it; none while it carries nothing. -/
def State.weirEnds (s : State) (k : Nat) : Option (Nat × Nat) :=
  let row := k / 16
  let idle : Bool := match s.placeOf k with
    | some col => !s.bypassed row col
    | none => false
  let dies := (List.range s.lcols).filterMap fun c => if s.bypassed row c then none else s.siteAt row c
  if idle then none
  else
    match (dies.filter (· < k)).getLast?, (dies.filter (k < ·)).head? with
    | some w, some e => some (w, e)
    | _, _ => none

/-- R452: a weir has failed: the retirement list holds it. -/
def State.weirFailed (s : State) (w : Site) : State :=
  if s.flash.weirs.contains w then s else { s with flash := { s.flash with weirs := s.flash.weirs ++ [w] } }

/-- R169: an edge fails: its register, what its buffers held, and the flumes that cross it; with the partitions that lose
something. A packet that is half across is lost too, and answered from the sending router. [DEDUCED, log 22] -/
def State.edgeDrop (s : State) (d edge : Nat) : List (BitVec 8) × State :=
  let far := (s.edgePeer d edge).map fun d' => (d', farInput edge)
  let ends := (d, edge) :: far.toList
  let packets := distinct (ends.flatMap fun e => s.edgePackets e.1 e.2)
  let flumes := distinct (ends.flatMap fun e => s.edgeFlumes e.1 e.2)
  let cut := (ends.flatMap fun e => s.edgeLocks e.1 e.2).filter fun e => !packets.any fun p => samePacket p e.2
  let parts := distinct (packets.map (fun p => p.part.setWidth 8) ++ flumes.map fun f => f.1.setWidth 8)
  let s1 := ends.foldl (fun (s : State) e => s.setEdge e.1 e.2 { s.edge e.1 e.2 with state := 3, inject := none }) s
  let s2 := packets.foldl (fun (s : State) p => s.purge p) s1
  let s3 := cut.foldl (fun (s : State) e => s.sinkPacket e.1 e.2 0x04) s2
  (parts, s3.tearFlumes fun p f => flumes.contains (p, f))

/-- R169, R452: an edge fails, and is reported; one that leads through weirs fails with them, and the report names the first
of them as the unit. [DESIGN CHOICE, log 25] -/
def State.edgeFail (s : State) (d edge : Nat) : State :=
  let weirs := ((s.edgePeer d edge).map (weirsBetween d)).getD []
  let (parts, s1) := s.edgeDrop d edge
  let s2 := weirs.foldl State.weirFailed s1
  match weirs with
  | [] => State.reportParts (s2.edgeReport d edge 0x0205) parts s2
  | w :: _ => State.reportParts { s2.dieReport (siteKey w) 4 0x0205 with detail := bytesOf 8 (s2.edge d edge).reg.toNat } parts s2

/-- R169, R342: flits are replayed: counted, the determinism-lost flag of the receiving die set, reported. An injection
(R394) fails exactly its COUNT attempts. [DEDUCED, log 30] -/
def State.edgeReplay (s : State) (d edge n : Nat) (injected : Bool) : State :=
  let e := s.edge d edge
  let s1 := (s.setEdge d edge { e with retries := satInc e.retries n, inject := none }).onDie d
    fun die => { die with detLost := true }
  s1.report { s1.edgeReport d edge 0x0204 with injected }

/-- EDGE_CRC_FAIL (R169): a flit fails the given number of attempts in a row at the receiver. -/
def execEdgeCrcFail (d : Site) (edge : BitVec 2) (attempts : BitVec 3) (s : State) :
    Host.Outcome State Fault Refusal :=
  siteEvent d s fun s k =>
    let e := s.edge k edge.toNat
    if e.state ≠ 1 ∨ attempts = 0 then s
    else
      match e.inject with
      | some n => s.edgeReplay k edge.toNat n true
      | none =>
        if attempts.toNat < 4 then s.edgeReplay k edge.toNat attempts.toNat false
        else (s.onDie k fun die => { die with detLost := true }).edgeFail k edge.toNat

end Sys2Proof.Machine
end

