-- ==== Sys2Proof/Machine/Arrivals.lean ====
section
/-!
DEFINITION. What the destination does with an arriving packet: the checks of R166 (and R253 for another panel's packets),
writes and reads (R157-R163), completions (R161, R228), and answers with a status (R168).
-/

namespace Sys2Proof.Machine

/-! ### The checks -/

/-- What the checks of R166 decide. -/
inductive Eject where
  | perform
  | header
  | mismatch
  | sink (status : BitVec 8)
  | unused
deriving DecidableEq, Repr

/-- A packet that has come from another panel. -/
def State.foreign (s : State) (p : Packet) : Bool := p.offPanel && decide (p.dpanel = s.panel.panelId)

/-- R252, R253: the binding of a partition holds the tag's GROUP and EPOCH. -/
def Part.tagOk (p : Part) (tag : BitVec 64) : Bool :=
  match p.bound with
  | some b => decide (b.group.toNat = bits tag.toNat 0 16) && decide (b.epoch.toNat = bits tag.toNat 16 16)
  | none => false

/-- R253: the binding check of a packet from another panel: the partition's binding holds the tag's GROUP and EPOCH, and a
sealed partition's packet has come by a port keyed for its group. -/
def State.bindOk (s : State) (n : Nat) (p : Packet) : Bool :=
  match p.via with
  | none => false
  | some (port, tag) =>
    (s.part n).tagOk tag &&
      match (s.part n).secrets, (s.part n).bound with
      | some _, some b => decide ((s.port port.toNat).sealedGroup = some b.group)
      | _, _ => true

/-- R166 step 3, R253: the packet is of the job that runs on the die. -/
def State.jobOk (s : State) (die : Die) (p : Packet) : Bool :=
  if s.foreign p then decide (die.net = .running) && (s.part die.part.toNat).bound.isSome
  else die.assigned && decide (die.net = .running) && decide (p.job = die.job)

/-- R398, R399: the core, its region or its die is retired. -/
def State.coreRetired (s : State) (d index : Nat) : Bool :=
  (s.die d).retired || (s.die d).retRegions.getLsbD (regionOfIndex index) ||
    s.flash.retCores.contains (siteOfKey d, BitVec.ofNat 10 index)

/-- R166 step 6, R159: the bytes that the packet covers are ones that it may reach. -/
def pktRangeOk (p : Packet) : Bool :=
  match decodeAddr p.dest.toNat with
  | .sp _ _ off => p.opcode == opCompletion || decide (off + p.len.toNat ≤ 2 ^ 19)
  | .reg 0 _ _ off _ => p.opcode == opReadReq && jobRange off p.len.toNat
  | _ => false

/-- R166 step 7: the banks that the packet needs are powered. -/
def pktBanksOk (k : Core) (p : Packet) : Bool :=
  match decodeAddr p.dest.toNat with
  | .sp _ _ off => p.opcode == opCompletion || k.rangeOn off p.len.toNat
  | _ => true

/-- R166 with R253: the first check that fails. -/
def State.ejectCheck (s : State) (c : CoreRef) (k : Core) (p : Packet) : Eject :=
  match s.dieOf c with
  | none => .sink 0x04
  | some d =>
    let die := s.die d
    if pktHeaderOk p = false then .header
    else if die.net = .reset ∨ k.testing then .sink 0x02
    else if s.jobOk die p = false then .sink 0x03
    else if s.foreign p ∧ s.bindOk die.part.toNat p = false then .sink 0x05
    else if s.foreign p = false ∧ p.part ≠ die.part then .mismatch
    else if s.coreRetired d (coreIndex c) then .sink 0x04
    else if pktRangeOk p = false then .sink 0x01
    else if pktBanksOk k p = false then .unused
    else .perform

/-- R180: a packet sunk under R166 steps 2-7. [DEDUCED, log 61] -/
def State.discard (s : State) (c : CoreRef) : State :=
  match s.dieOf c with
  | some d => s.onDie d fun die => { die with discarded := satInc die.discarded }
  | none => s

/-- R166 step 4, R222: a packet of one partition in another: a fault contained in both. -/
def State.mismatchReport (s : State) (c : CoreRef) (p : Packet) : Report :=
  { s.coreReport c 0x0206 with part2 := p.part.setWidth 8 }

/-- The packet has left the ejection buffer. -/
def Core.took (k : Core) (p : Packet) : Core := { k with arrived := eraseOne p k.arrived }

/-- R165: packets whose bytes are written in the order in which they were sent: of route 0b01, from one source core. -/
def pktOrdered (p q : Packet) : Bool :=
  p.route == 1 && q.route == 1 && p.srcX == q.srcX && p.srcY == q.srcY && p.spanel == q.spanel &&
    p.opcode != opReadReq && q.opcode != opReadReq

/-- R165: a packet that stands before this one in the ejection buffer and must be written first. -/
def Core.overtakes (k : Core) (p : Packet) : Bool := (k.arrived.takeWhile (· != p)).any fun q => pktOrdered q p

/-- R33, R166: the core whose ejection logic takes a packet: the core of a scratchpad address; of an address of the
register space, the core of the addressed block, or the first of the die where a die's own register is addressed. -/
def destCore (p : Packet) : CoreRef :=
  match decodeAddr p.dest.toNat with
  | .reg 0 row col off _ =>
    let i := if off < 0x800000 then off / 0x2000 else 0
    coreXY (32 * col + i % 32) (32 * row + i / 32)
  | _ => pktTarget p

/-- The arrival of a packet at a core: its checks, and what it does when they pass; a packet that would overtake another of
its order waits (R165). [DESIGN CHOICE, log 7] -/
def arrival (c : CoreRef) (p : Packet) (s : State) (body : State → Core → State) :
    Host.Outcome State Fault Refusal :=
  coreEvent c s fun s k =>
    let s0 := s.setCore c (k.took p)
    if k.overtakes p then s
    else
      match s.ejectCheck c k p with
      | .perform => body s0 (k.took p)
      | .header => s0.headerBad c p (!p.laneBad.getLsbD 0) (!p.laneBad.getLsbD 3)
      | .mismatch => (s0.discard c).report (s0.mismatchReport c p)
      | .sink st => (s0.discard c).answerPacket c p st
      | .unused => ((s0.discard c).report (s0.endReport c 0x0107 0x0313 0)).answerPacket c p 0x01

/-! ### Writes -/

/-- The offset part of a scratchpad address. -/
def pktOffset (p : Packet) : Nat := bits p.dest.toNat 0 19

/-- R170: the payload that passes the parity check of its flits. -/
def goodPayload (p : Packet) (bad : Option (BitVec 6)) : List Byte :=
  match bad with
  | none => p.payload
  | some f => p.payload.take (64 * f.toNat)

/-- Bytes from an offset cut at the rows of the scratchpad, by fuel; `w` gives what else each row write does. -/
def rowsOf (w : RowWrite) : Nat → Nat → List Byte → List RowWrite
  | 0, _, _ => []
  | _, _, [] => []
  | fuel + 1, off, bs =>
    let n := 64 - off % 64
    { w with off := BitVec.ofNat 19 off, bytes := bs.take n } :: rowsOf w fuel (off + n) (bs.drop n)

/-- R131: the pending row write of a bank goes first. [DEDUCED, log 63] -/
def landBank (c : CoreRef) (n : Nat) (o : State × Core) : State × Core :=
  match (o.2.bank n).ingress with
  | some w => rowLand c w o.1 (o.2.setBank n { o.2.bank n with ingress := none })
  | none => o

/-- R165: every pending row write is made before the packets behind it. -/
def landAll (c : CoreRef) (o : State × Core) : State × Core :=
  (List.range 16).foldl (fun o n => landBank c n o) o

/-- R130-R132: a row write at its bank: granted when no request of ranks 1-4 waits there; deferred when a read of the same
row is granted, unless a write is deferred there already; else pending. [DEDUCED, log 63] -/
def landRow (c : CoreRef) (o : State × Core) (w : RowWrite × BankGrant) : State × Core :=
  let n := bankOf w.1.off.toNat
  let o1 := landBank c n o
  let b := o1.2.bank n
  match w.2 with
  | .won =>
    if b.opens portIngress then rowLand c w.1 o1.1 o1.2 else (o1.1, o1.2.setBank n { b with ingress := some w.1 })
  | .sameRow =>
    if b.deferred = [] then (o1.1, o1.2.setBank n { b with deferred := [w.1] })
    else (o1.1, o1.2.setBank n { b with ingress := some w.1 })
  | .lost => (o1.1, o1.2.setBank n { b with ingress := some w.1 })

/-- Row writes one after the other through the ingress port; a row that the list of grants does not name is granted. -/
def landRows (c : CoreRef) (rows : List RowWrite) (grants : List BankGrant) (s : State) (k : Core) : State × Core :=
  (rows.zip (grants ++ List.replicate rows.length .won)).foldl (landRow c) (s, k)

/-- R158: the lowest ticket that no packet holds. -/
def Core.freeTicket (k : Core) : Nat :=
  ((List.range (k.landing.length + 1)).find? fun t => (tget {} k.landing t).left = 0).getD 0

/-- R158: write rows, and acknowledge the packet after the last of them; a packet without bytes at once. -/
def State.landFor (s : State) (c : CoreRef) (k : Core) (rows : List RowWrite) (grants : List BankGrant)
    (notify : Option Packet) : State :=
  match notify with
  | none =>
    let o := landRows c rows grants s k
    o.1.setCore c o.2
  | some p =>
    if rows = [] then (s.setCore c k).ackPacket p 0x00
    else
      let t := k.freeTicket
      let o := landRows c (rows.map fun w => { w with ticket := some t }) grants s
        { k with landing := tset {} k.landing t ⟨rows.length, p⟩ }
      o.1.setCore c o.2

/-- R170: a payload flit with bad parity, found at ejection. -/
def State.parityFault (s : State) (c : CoreRef) (p : Packet) : State :=
  let s1 := s.report { s.coreReport c 0x0201 with part := p.part.setWidth 8 }
  match s1.dieOf c with
  | some site => s1.onDie site fun die => { die with parityErr := satInc die.parityErr }
  | none => s1

/-- What the row writes of a packet do beside storing their bytes (R160, R162, R163). -/
def pktRow (p : Packet) : RowWrite :=
  { off := 0, bytes := [], port := 5, ctr := if p.ctrEn then some p.ctr else none
    decl := if p.decl then some (⟨p.srcX, p.srcY, p.spanel, p.flow⟩, p.flowTotal) else none
    add := p.opcode == opAtomicAdd }

/-- R157, R158, R162, R163: write a packet's payload at its offset and count it; with NOTIFY, acknowledge it. The flags of its
compression reach the core (R91, R258). -/
def State.landPacket (s : State) (c : CoreRef) (k : Core) (p : Packet) (grants : List BankGrant)
    (bad : Option (BitVec 6)) : State :=
  let bs := goodPayload p bad
  let k := k.raise p.flags
  let o0 := if p.route = 1 then landAll c (s, k) else (s, k)
  let rows := rowsOf (pktRow p) (bs.length + 1) (pktOffset p) bs
  match bad with
  | none => o0.1.landFor c o0.2 rows grants (if p.notify then some p else none)
  | some _ => (o0.1.landFor c o0.2 rows grants none).parityFault c p

/-- WRITE (R158). -/
def execWrite (p : Packet) (grants : List BankGrant) (badFlit : Option (BitVec 6)) (s : State) :
    Host.Outcome State Fault Refusal :=
  let c := destCore p
  arrival c p s fun s k => s.landPacket c k p grants badFlit

/-- WRITE_NOTIFY (R158). -/
def execWriteNotify (p : Packet) (grants : List BankGrant) (badFlit : Option (BitVec 6)) (s : State) :
    Host.Outcome State Fault Refusal :=
  let c := destCore p
  arrival c p s fun s k => s.landPacket c k p grants badFlit

/-- ROWCAST (R195): a target treats its copy of the leg as a packet addressed to itself. -/
def execRowcast (c : CoreRef) (p : Packet) (grants : List BankGrant) (badFlit : Option (BitVec 6)) (s : State) :
    Host.Outcome State Fault Refusal :=
  arrival c p s fun s k => s.landPacket c k p grants badFlit

/-- COLCAST (R195). -/
def execColcast (c : CoreRef) (p : Packet) (grants : List BankGrant) (badFlit : Option (BitVec 6)) (s : State) :
    Host.Outcome State Fault Refusal :=
  arrival c p s fun s k => s.landPacket c k p grants badFlit

/-- ATOMIC_ADD (R160): one read-modify-write, wrapping, that counts 4 bytes. -/
def execAtomicAdd (p : Packet) (grants : List BankGrant) (badFlit : Option (BitVec 6)) (s : State) :
    Host.Outcome State Fault Refusal :=
  let c := destCore p
  arrival c p s fun s k => s.landPacket c k { p with payload := p.payload.take 4 } grants badFlit

/-! ### Reads -/

/-- READ_REQ (R159): it takes one of the 8 entries of the request queue, or waits; a payload flit with bad parity is a
fault (R170). -/
def execReadReq (p : Packet) (badFlit : Bool) (s : State) : Host.Outcome State Fault Refusal :=
  let c := destCore p
  if (s.core c).requests.length = 8 ∧ s.coreOk c then .next s
  else
    arrival c p s fun s k =>
      let s1 := s.setCore c { k with requests := k.requests ++ [p] }
      if badFlit then s1.parityFault c p else s1

/-- R159: the READ_RESP of a served request. -/
def readResponse (p : Packet) (data : List Byte) : Packet :=
  let c := destCore p
  pktSeal {
    opcode := opReadResp, vc := if p.route = 2 then 3 else 0, last := p.last, ctr := p.ctr, ctrEn := p.ctrEn
    offPanel := p.offPanel, len := p.len, part := p.part, part2 := p.part, job := p.job, home := p.home
    dest := BitVec.ofNat 48 (spAddr (pktSource p) p.rlocal.toNat), dpanel := p.spanel, spanel := p.dpanel
    srcX := c.x, srcY := c.y, route := if p.route = 0 then 1 else p.route, flow := p.flow, payload := data }

/-- The bytes of a core's register block from an offset on. -/
def State.blockBytes (s : State) (c : CoreRef) (off : Nat) : Nat → List Byte
  | 0 => []
  | n + 1 =>
    BitVec.ofNat 8 ((s.coreWord c (off % 0x2000 / 4 * 4)).toNat / 2 ^ (8 * (off % 4))) :: s.blockBytes c (off + 1) n

/-- READ_REQ_SERVE (R159, R138): the request that arrived first is served; a core whose partition is in reset injects nothing
(R178). -/
def execReadReqServe (c : CoreRef) (s : State) : Host.Outcome State Fault Refusal :=
  coreEvent c s fun s k =>
    let quiet := ((s.dieOf c).map fun d => (s.die d).net == .reset).getD true
    match (if quiet then [] else k.requests) with
    | [] => s
    | p :: rest =>
      let k0 := { k with requests := rest }
      match decodeAddr p.dest.toNat with
      | .sp _ _ off =>
        if k.rangeOn off p.len.toNat = false then (s.setCore c k0).answerPacket c p 0x01
        else if k.opens portEgress off p.len.toNat = false then s
        else
          let o := spReadOver s c k0 [] portEgress off p.len.toNat
          if o.ok then (o.state c).inject c (readResponse p o.bytes) else o.state c
      | .reg _ _ _ off _ => 
        let s1 := (s.setCore c k0).elapse c
        s1.inject c (readResponse p (s1.blockBytes c off p.len.toNat))
      | _ => s.setCore c k0

/-! ### Answers and completions -/

/-- R168: an answer with a nonzero status, for the job that runs on the core's die, is reported; any other is sunk. -/
def State.statusAnswer (s : State) (c : CoreRef) (status job : BitVec 8) : State :=
  match s.dieOf c with
  | some d =>
    if status ≠ 0 ∧ (s.die d).net = .running ∧ (s.die d).job = job then
      s.report (s.endReport c 0x0106 0x0312 (status.setWidth 16))
    else s
  | none => s

/-- STATUS_ANSWER (R168). -/
def execStatusAnswer (c : CoreRef) (status job : BitVec 8) (s : State) : Host.Outcome State Fault Refusal :=
  coreEvent c s fun s _ => s.statusAnswer c status job

/-- READ_RESP (R158, R73): the data is written and counted, and the READ has so many bytes less to wait for. -/
def execReadResp (p : Packet) (grants : List BankGrant) (badFlit : Option (BitVec 6)) (s : State) :
    Host.Outcome State Fault Refusal :=
  let c := destCore p
  arrival c p s fun s k =>
    if p.status ≠ 0 then s.statusAnswer c p.status p.job
    else s.landPacket c { k with reads := k.reads - (goodPayload p badFlit).length } p grants badFlit

/-- R228: the final COMPLETION of one MSD; with the last of them the copy credit returns. -/
def Core.finalCompletion (k : Core) (flow : BitVec 16) : Core :=
  match k.copies.find? fun e => e.1 = flow with
  | some (f, ms) =>
    { k with copies :=
        if ms.length ≤ 1 then eraseOne (f, ms) k.copies
        else k.copies.map fun e => if e = (f, ms) then (f, ms.drop 1) else e }
  | none => k

/-- COMPLETION (R161, R168, R228); a payload flit with bad parity counts nothing and is a fault (R170). -/
def execCompletion (p : Packet) (badFlit : Bool) (s : State) : Host.Outcome State Fault Refusal :=
  let c := destCore p
  arrival c p s fun s k =>
    if badFlit then (s.setCore c k).parityFault c p
    else if p.status ≠ 0 then s.statusAnswer c p.status p.job
    else
      let (s1, k1) := s.countIf c k p.ctrEn p.ctr (fieldOf p.payload 0 4)
      s1.setCore c (if p.last then k1.finalCompletion p.flow else k1)

end Sys2Proof.Machine
end

