-- ==== Sys2Proof/Machine/Aes.lean ====
section
/-!
DEFINITION. AES-256 (FIPS 197) and the modes of it that the manual names: XTS (IEEE 1619) for HBM blocks (R230), CTR for
the segments of a sealed image (R424), and GCM for the wrapped secrets (R423).
-/

namespace Sys2Proof.Machine

/-! ### The field of AES -/

/-- Multiplication by x. -/
def aesDouble (a : Byte) : Byte := (a <<< 1) ^^^ (if a.getLsbD 7 then 0x1B else 0)

/-- A product in the field. -/
def aesMul (a b : Byte) : Byte :=
  ((List.range 8).foldl (fun (o : Byte × Byte) i => (if b.getLsbD i then o.1 ^^^ o.2 else o.1, aesDouble o.2)) (0, a)).1

/-- The inverse: the 254th power. -/
def aesInv (a : Byte) : Byte :=
  ((List.range 7).foldl (fun (o : Byte × Byte) _ => (aesMul o.1 (aesMul o.2 o.2), aesMul o.2 o.2)) (1, a)).1

/-- The S-box. -/
def aesSub (a : Byte) : Byte :=
  let b := aesInv a
  b ^^^ b.rotateLeft 1 ^^^ b.rotateLeft 2 ^^^ b.rotateLeft 3 ^^^ b.rotateLeft 4 ^^^ 0x63

/-- The inverse S-box. -/
def aesSubInv (a : Byte) : Byte := aesInv (a.rotateLeft 1 ^^^ a.rotateLeft 3 ^^^ a.rotateLeft 6 ^^^ 0x05)

/-! ### The cipher -/

/-- Exclusive or, byte by byte. -/
def xorBytes (a b : List Byte) : List Byte := List.zipWith (· ^^^ ·) a b

/-- The key schedule: words of 4 bytes, newest first, from the `i`-th on, by fuel. -/
def aesExpand : Nat → Nat → List (List Byte) → List (List Byte)
  | 0, _, w => w
  | fuel + 1, i, w =>
    let t := nth [] w 0
    let rcon := (List.range (i / 8 - 1)).foldl (fun (c : Byte) _ => aesDouble c) 1
    let t' := if i % 8 = 0 then xorBytes ((t.drop 1 ++ t.take 1).map aesSub) [rcon, 0, 0, 0]
      else if i % 8 = 4 then t.map aesSub else t
    aesExpand fuel (i + 1) (xorBytes (nth [] w 7) t' :: w)

/-- The 15 round keys of a 32-byte key. -/
def aesKeys (key : List Byte) : List (List Byte) :=
  pieces 16 15 ((aesExpand 52 8 (pieces 4 8 key).reverse).reverse).flatten

/-- Rows shifted by `n` columns for row n, to the left or to the right. -/
def aesShift (left : Bool) (b : List Byte) : List Byte :=
  (List.range 16).map fun i => nth 0 b ((i + (if left then 4 * (i % 4) else 16 - 4 * (i % 4))) % 16)

/-- The columns multiplied by a fixed polynomial, its coefficients from row 0 on. -/
def aesMix (m : List Byte) (b : List Byte) : List Byte :=
  (List.range 16).map fun i =>
    (List.range 4).foldl (fun (a : Byte) j => a ^^^ aesMul (nth 0 m ((j + 4 - i % 4) % 4)) (nth 0 b (i / 4 * 4 + j))) 0

/-- One block enciphered. -/
def aesEncrypt (key block : List Byte) : List Byte :=
  let ks := aesKeys key
  let b := (List.range 13).foldl (fun b i =>
    xorBytes (aesMix [2, 3, 1, 1] (aesShift true (b.map aesSub))) (nth [] ks (i + 1))) (xorBytes block (nth [] ks 0))
  xorBytes (aesShift true (b.map aesSub)) (nth [] ks 14)

/-- One block deciphered. -/
def aesDecrypt (key block : List Byte) : List Byte :=
  let ks := aesKeys key
  let b := (List.range 13).foldl (fun b i =>
    aesMix [14, 11, 13, 9] (xorBytes ((aesShift false b).map aesSubInv) (nth [] ks (13 - i))))
    (xorBytes block (nth [] ks 14))
  xorBytes ((aesShift false b).map aesSubInv) (nth [] ks 0)

/-! ### Modes -/

/-- IEEE 1619: a block multiplied by the primitive element. -/
def xtsDouble (t : List Byte) : List Byte :=
  let v := natOf t
  bytesOf 16 ((2 * v % 2 ^ 128).xor (if 2 ^ 127 ≤ v then 0x87 else 0))

/-- The 16-byte blocks of a data unit under XTS, with the tweak value of the first. -/
def xtsBlocks (cipher : List Byte → List Byte) : List (List Byte) → List Byte → List Byte
  | [], _ => []
  | b :: rest, t => xorBytes (cipher (xorBytes b t)) t ++ xtsBlocks cipher rest (xtsDouble t)

/-- R230: AES-256-XTS of a data unit under a 64-byte key. -/
def xtsEncrypt (key : List Byte) (tweak : BitVec 128) (data : List Byte) : List Byte :=
  xtsBlocks (aesEncrypt (key.take 32)) (pieces 16 data.length data) (aesEncrypt (key.drop 32) (bytesOf 16 tweak.toNat))
def xtsDecrypt (key : List Byte) (tweak : BitVec 128) (data : List Byte) : List Byte :=
  xtsBlocks (aesDecrypt (key.take 32)) (pieces 16 data.length data) (aesEncrypt (key.drop 32) (bytesOf 16 tweak.toNat))

/-- A number in 16 bytes, the most significant first. -/
def be16 (n : Nat) : List Byte := (bytesOf 16 n).reverse

/-- The bytes under CTR, from a counter block on, the low 32 bits of which count blocks if `wide` is false. -/
def ctrBytes (key : List Byte) (wide : Bool) (block : Nat) (data : List Byte) : List Byte :=
  let next (i : Nat) : Nat :=
    if wide then (block + i) % 2 ^ 128 else block / 2 ^ 32 * 2 ^ 32 + (block + i) % 2 ^ 32
  let chunks := pieces 16 data.length data
  (List.range chunks.length).flatMap fun i => xorBytes (nth [] chunks i) (aesEncrypt key (be16 (next i)))

/-- R424: the data of segment `i` under AES-256-CTR: the initial counter block holds `i` in bytes 1:0. -/
def ctrDecrypt (key : List Byte) (i : Nat) (data : List Byte) : List Byte :=
  ctrBytes key true (natOf (bytesOf 2 i ++ List.replicate 14 0).reverse) data

/-- A product in the field of GHASH, whose bit 0 is the most significant one. -/
def ghashMul (x y : Nat) : Nat :=
  ((List.range 128).foldl (fun (o : Nat × Nat) i =>
    (if x.testBit (127 - i) then o.1.xor o.2 else o.1,
      (o.2 / 2).xor (if o.2.testBit 0 then 0xE1 * 2 ^ 120 else 0))) (0, y)).1

/-- GHASH of bytes, padded to blocks. -/
def ghash (h : Nat) (bs : List Byte) (start : Nat) : Nat :=
  (pieces 16 bs.length bs).foldl (fun y b =>
    ghashMul (y.xor (natOf (b ++ List.replicate (16 - b.length) 0).reverse)) h) start

/-- R423: AES-256-GCM opened with a 12-byte IV; none when the tag fails. -/
def gcmOpen (key iv data tag aad : List Byte) : Option (List Byte) :=
  let h := natOf (aesEncrypt key (List.replicate 16 0)).reverse
  let j0 := natOf (iv ++ [0, 0, 0, 1]).reverse
  let y := ghash h data (ghash h aad 0)
  let s := ghashMul (y.xor (8 * aad.length * 2 ^ 64 + 8 * data.length)) h
  if xorBytes (be16 s) (aesEncrypt key (be16 j0)) = tag then
    some (ctrBytes key false (j0 / 2 ^ 32 * 2 ^ 32 + (j0 + 1) % 2 ^ 32) data)
  else none

end Sys2Proof.Machine
end

