-- ==== Sys2Proof/Machine/Headworks.lean ====
section
/-!
DEFINITION. What every command shares: host-die memory behind its DMA window (R275), replies and wait commands
(R279-R284), the records of the event recorder (R405-R408), sessions (R427), and the reasons to refuse a command in the
order of R286.
-/

namespace Sys2Proof.Machine

/-! ### Status codes (R286) -/

def stOk : BitVec 16 := 0x0000
def stOpcode : BitVec 16 := 0x0001
def stField : BitVec 16 := 0x0002
def stNoPart : BitVec 16 := 0x0003
def stOwner : BitVec 16 := 0x0004
def stState : BitVec 16 := 0x0005
def stAuth : BitVec 16 := 0x0006
def stHost : BitVec 16 := 0x0007
def stStopped : BitVec 16 := 0x0008
def stResources : BitVec 16 := 0x0009
def stLost : BitVec 16 := 0x000A

/-- R286: DETAIL 13:12 of an invalid field. -/
def fieldDetail (off : Nat) : List Byte := bytesOf 2 off

/-! ### Host memory -/

/-- The key of a byte of host die memory. -/
def hostKey (second : Bool) (a : Nat) : Nat := b2n second * 2 ^ 64 + a

/-- R275, R276: the range lies in the host die's DMA window. -/
def State.dmaOk (s : State) (second : Bool) (a len : Nat) : Bool :=
  let h := s.host second
  decide (h.dmaBase.toNat * 2 ^ 20 ≤ a) && decide (a + len ≤ (h.dmaBase.toNat + h.dmaSize.toNat) * 2 ^ 20)

/-- Bytes of a host die's memory. [DESIGN CHOICE, log 5] -/
def State.hostBytes (s : State) (second : Bool) (a len : Nat) : List Byte :=
  memRead s.hostMem (hostKey second a) len

/-- Write bytes of a host die's memory. -/
def State.hostStore (s : State) (second : Bool) (a : Nat) (bs : List Byte) : State :=
  { s with hostMem := memWrite s.hostMem (hostKey second a) bs }

/-! ### Replies -/

def HostIf.pair (h : HostIf) (q : BitVec 4) : QPair := tget {} h.queues q.toNat
def HostIf.setPair (h : HostIf) (q : BitVec 4) (p : QPair) : HostIf :=
  { h with queues := tset {} h.queues q.toNat p }
def State.onPair (s : State) (second : Bool) (q : BitVec 4) (f : QPair → QPair) : State :=
  let h := s.host second
  s.setHost second (h.setPair q (f (h.pair q)))

/-- R281: the 32 bytes of a reply. -/
def Reply.bytes (r : Reply) (phase : Bool) : List Byte :=
  bytesOf 4 r.tag.toNat ++ bytesOf 2 r.status.toNat ++ bytesOf 2 (r.sqHead % 2 ^ 15 + b2n phase * 2 ^ 15) ++
    bytesOf 1 r.queue.toNat ++ bytesOf 1 r.part.toNat ++ bytesOf 2 0 ++
    (r.detail ++ List.replicate 20 0).take 20

/-- R279 step 3, R281: write a reply at the next entry, then the interrupt message, which too goes through the DMA window
(R275). -/
def State.writeReply (s : State) (second : Bool) (q : BitVec 4) (r : Reply) : State :=
  let h := s.host second
  let p := h.pair q
  let size := 2 ^ p.rqLog2
  let wraps : Bool := p.rqTail + 1 == size
  let p' := { p with
    rqTail := if wraps then 0 else p.rqTail + 1
    phase := if wraps then !p.phase else p.phase
    unfreed := p.unfreed + 1 }
  let s1 := (s.hostStore second (p.rqBase.toNat + 32 * p.rqTail) (r.bytes p.phase)).setHost second (h.setPair q p')
  if r.intr ∧ s.dmaOk second h.msiAddr.toNat 4 then
    s1.hostStore second h.msiAddr.toNat (bytesOf 4 (h.msiData.toNat + q.toNat))
  else s1

/-- R275, R283: the next entry of a pair's reply queue can be written. One outside the DMA window holds its replies as a full
queue does. [DEDUCED, log 54] -/
def State.replyRoom (s : State) (second : Bool) (q : BitVec 4) : Bool :=
  let p := (s.host second).pair q
  decide (p.unfreed < 2 ^ p.rqLog2) && s.dmaOk second (p.rqBase.toNat + 32 * p.rqTail) 32

/-- R278, R283: a reply of a host queue. It is discarded with its pair and held while the reply queue is full. -/
def State.putReply (s : State) (second : Bool) (q : BitVec 4) (r : Reply) : State :=
  let h := s.host second
  let p := h.pair q
  if p.valid = false ∨ h.cut then s
  else if s.replyRoom second q = false ∨ p.heldReplies ≠ [] then
    s.onPair second q fun p => { p with heldReplies := p.heldReplies ++ [r] }
  else s.writeReply second q r

/-- R288-R291, R382: the first parameter byte that an opcode does not use; 0 for a code that is no opcode. -/
def paramEnd (op : Nat) : Nat :=
  match op / 256 with
  | 1 => [0, 28, 40, 17].getD (op % 256) 0
  | 2 => [0, 20, 16, 16, 16].getD (op % 256) 0
  | 3 => [0, 29, 20, 18, 16, 16, 16, 16, 16].getD (op % 256) 0
  | 4 => [0, 28, 18].getD (op % 256) 0
  | 5 => [0, 36, 36, 36, 32].getD (op % 256) 0
  | 6 => [0, 33, 20, 20, 29, 16, 23].getD (op % 256) 0
  | 7 => [0, 28, 64, 28, 28, 16, 64, 28, 36].getD (op % 256) 0
  | 8 => [0, 28, 18, 28, 28, 17].getD (op % 256) 0
  | 9 => [0, 19, 28, 36, 16, 16, 16, 22, 28].getD (op % 256) 0
  | 10 => [0, 28, 28, 29, 17, 21, 21, 36].getD (op % 256) 0
  | _ => 0

/-- R280: the first byte of a reserved field that is not zero, or LENGTH where it is above 48. -/
def reservedAt (b : List Byte) : Option Nat :=
  let op := fieldOf b 0 2
  if fieldOf b 2 2 / 4 ≠ 0 then some 2
  else if fieldOf b 9 1 ≠ 0 then some 9
  else if 48 < fieldOf b 10 2 then some 10
  else
    let gap (i : Nat) : Bool := (op == 0x0102 && decide (19 ≤ i) && decide (i < 24)) || (op == 0x0903 && i == 23) ||
      (op == 0x0702 && decide (29 ≤ i) && decide (i < 32)) || (op == 0x0706 && decide (28 ≤ i) && decide (i < 32))
    ((List.range 48).map (· + 16)).find? fun i => (decide (paramEnd op ≤ i) || gap i) && fieldOf b i 1 != 0

/-- A command from its 64 bytes, with the head of its queue after its fetch (R280, R281). -/
def cmdOf (origin : Origin) (queue : BitVec 4) (head : Nat) (b : List Byte) : Cmd :=
  { origin, queue, ordered := bit (fieldOf b 2 2) 0, intr := bit (fieldOf b 2 2) 1, tag := BitVec.ofNat 32 (fieldOf b 4 4)
    part := BitVec.ofNat 8 (fieldOf b 8 1), session := BitVec.ofNat 32 (fieldOf b 12 4), sqHead := BitVec.ofNat 15 head
    bad := (reservedAt b).map (BitVec.ofNat 6) }

/-- The command in execution that a reply is for. -/
def QPair.find (p : QPair) (h : Cmd) : Option (Nat × List Byte) := p.started.find? fun e => cmdOf h.origin h.queue e.1 e.2 = h

/-- R278, R281, R303: the reply to a command, by the way the command came; `payload` goes with a management-port
response. -/
def State.answer (s : State) (h : Cmd) (status : BitVec 16) (detail : List Byte := []) (payload : List Byte := []) :
    State :=
  if h.silent then s
  else
    match h.origin with
    | .host second =>
      let r : Reply :=
        { tag := h.tag, status, queue := h.queue, part := h.part, intr := h.intr, sqHead := h.sqHead.toNat, detail }
      let s1 := match ((s.host second).pair h.queue).find h with
        | some x => s.onPair second h.queue fun p => { p with started := eraseOne x p.started }
        | none => s
      s1.putReply second h.queue r
    | .mgmt =>
      let r : Reply :=
        { tag := h.tag, status, queue := 0, part := h.part, intr := false, sqHead := 0, detail }
      { s with
        mgmtOut := (r, payload) :: s.mgmtOut
        mgmtStarted := match s.mgmtStarted.find? (fun e => { cmdOf .mgmt 0 0 e.1 with payload := e.2 } = h) with
          | some x => eraseOne x s.mgmtStarted
          | none => s.mgmtStarted }

/-- R274, R278: the commands that a test picks give no reply, whatever becomes of them. -/
def State.mute (s : State) (pick : Cmd → Bool) : State :=
  let hush (h : Cmd) : Cmd := if pick h then { h with silent := true } else h
  { s with
    waiters := s.waiters.map fun w => (w.1, hush w.2)
    fetched := s.fetched.map fun e => (hush e.1, e.2)
    resets := s.resets.map fun r => match r with
      | .levee n h => .levee n (hush h)
      | .die k m h => .die k m (hush h)
    ring := { s.ring with joining := s.ring.joining.map hush }
    parts := tmap {} (fun _ p => { p with
      loading := p.loading.map hush, loadWait := p.loadWait.map fun w => { w with h := hush w.h } }) s.parts }

/-- R275, R303: the input bytes that a command names; none when they cannot be read. -/
def State.input (s : State) (h : Cmd) (a len : Nat) : Option (List Byte) :=
  match h.origin with
  | .host second => if s.dmaOk second a len then some (s.hostBytes second a len) else none
  | .mgmt => if a = 0 ∧ len ≤ h.payload.length then some (h.payload.take len) else none

/-- R275, R303: whether a command's output of `out` bytes can be delivered: status 0 when it can. On the management port
the length field is the payload length. [DEDUCED, log 56] -/
def State.outputStatus (s : State) (h : Cmd) (a out len : Nat) : BitVec 16 :=
  match h.origin with
  | .host second => if s.dmaOk second a out then stOk else stHost
  | .mgmt => if a ≠ 0 then stField else if 60 * 1024 < max out len then stResources else stOk

/-- Success with output: written to host memory, or carried in the response. -/
def State.answerData (s : State) (h : Cmd) (a : Nat) (data : List Byte) (detail : List Byte) : State :=
  match h.origin with
  | .host second => (s.hostStore second a data).answer h stOk detail
  | .mgmt => s.answer h stOk detail data

/-- A command's output when its place allows it, otherwise the refusal; `len` is the command's length field. -/
def State.deliver (s : State) (h : Cmd) (a len : Nat) (data : List Byte) (detail : List Byte) : State :=
  let st := s.outputStatus h a data.length len
  if st = stOk then s.answerData h a data detail
  else s.answer h st (if st = stField then fieldDetail 16 else [])

/-! ### Wait commands (R284) -/

/-- Outstanding wait commands of a host die. -/
def State.waitCount (s : State) (o : Origin) : Nat := (s.waiters.filter fun w => w.2.origin = o).length

/-- Take a wait command: at most 128 of each host die. -/
def State.park (s : State) (h : Cmd) (w : WaitKind) : State :=
  if h.origin ≠ .mgmt ∧ 128 ≤ s.waitCount h.origin then s.answer h stResources
  else { s with waiters := s.waiters ++ [(w, h)] }

/-- Answer every wait command that a test picks, and forget it. -/
def State.wake (s : State) (pick : WaitKind × Cmd → Bool) (status : BitVec 16) (detail : List Byte) : State :=
  let hit := s.waiters.filter pick
  hit.foldl (fun s w => s.answer w.2 status detail) { s with waiters := s.waiters.filter fun w => !pick w }

/-- R410: an event of EVENT_WAIT's mask bit, with the SEQ it reports. -/
def State.event (s : State) (b : Nat) (seq : Word) : State :=
  s.wake (fun w => match w.1 with | .event m => m.getLsbD b | _ => false) stOk
    (bytesOf 4 seq.toNat ++ bytesOf 1 b)

/-! ### The event recorder -/

/-- R388: take the next panel sequence number; 0 is never assigned. -/
def State.takeSeq (s : State) : Word × State :=
  (s.panel.seq, s.onPanel fun p => { p with seq := if p.seq + 1 = 0 then 1 else p.seq + 1 })

/-- R407: the fixed kinds; kind 0x01 is fixed for classes 1-4, which its caller says. -/
def fixedKind (k : Nat) : Bool := k == 2 || k == 3 || k == 4 || (9 ≤ k && k ≤ 0x11)

/-- R407: whether FILTER applies to a selectable kind. -/
def filterOk (kind filter value : Nat) : Bool :=
  if kind = 1 then filter == 0 || filter == value
  else if kind = 5 ∨ kind = 6 ∨ kind = 7 then filter == value
  else true

/-- R407: the trigger entries that name a kind, lowest number first. -/
def Recorder.entries (r : Recorder) (kind : BitVec 8) : List Nat :=
  (List.range 32).filter fun n => (tget {} r.trig n).kind = kind ∧ kind ≠ 0

/-- R408: whether a register can be read for a snapshot: its die answers and its region is on. -/
def State.snapOk (s : State) (a : Nat) : Bool :=
  let regionOn (d r : Nat) : Bool :=
    decide ((s.region d r).state = .own ∨ (s.region d r).state = .logic ∨ (s.region d r).state = .ramping)
  match s.regPlace a with
  | .bad => false
  | .panel _ => true
  | .msd m _ => !(s.msd m).failed
  | .iod i _ => !s.panel.failedUnits.contains ⟨2, BitVec.ofNat 4 i, 15⟩
  | .die d off =>
    let die := s.die d
    die.alive && !die.inReset && !die.retired &&
      (if off < 0x800000 then regionOn d (regionOfIndex (off / 0x2000)) else true)

/-- R408: the snapshots of a list, and INVALID. -/
def State.snapshots (s : State) (list : Option Nat) : List Reg64 × BitVec 16 :=
  match list with
  | none => (List.replicate 16 0, 0xFFFF)
  | some m =>
    let one (k : Nat) : Reg64 × Bool :=
      let e := tget {} s.recorder.sel (16 * m + k)
      if e.valid ∧ s.snapOk e.addr.toNat then (s.regAt (s.regPlace (e.addr.toNat / 8 * 8)), false) else (0, true)
    let l := (List.range 16).map one
    (l.map (·.1), BitVec.ofNat 16 (packFields ((List.range 16).map fun k => (k, b2n (nth (0, true) l k).2))))

/-- R405: put a record in the permanent area and its flash mirror, or in the circulating area. -/
def State.fileRecord (s : State) (r : RecRec) : State :=
  let rc := s.recorder
  if rc.permFull then
    let circ := rc.circ ++ [{ r with perm := false }]
    { s with recorder := { rc with
        circ := if 256 < circ.length then circ.drop 1 else circ
        next := if rc.next = 511 then 256 else rc.next + 1 } }
  else
    let perm := rc.perm ++ [{ r with perm := true }]
    { s with
      recorder := { rc with perm, next := rc.next + 1, permFull := decide (256 ≤ perm.length) }
      flash := { s.flash with mirror := perm, seq := s.panel.seq } }

/-- R407: the lowest entry that names the kind gives the list; a selectable entry drops what comes within its
millisecond. `fixed` marks the classes of kind 0x01 that always write. The answer gives the record's SEQ. -/
def State.recordSeq (s : State) (t : RecTrig) (fixed : Bool := false) : State × Word :=
  let es := s.recorder.entries t.kind
  let isFixed := fixed || fixedKind t.kind.toNat
  let sel := es.filter fun n =>
    (tget {} s.recorder.trig n).enable && filterOk t.kind.toNat (tget {} s.recorder.trig n).filter.toNat t.filter.toNat
  match isFixed, sel with
  | false, [] => (s, 0)
  | _, _ =>
    if !isFixed && t.withinMs then
      let n := sel.headD 0
      let e := tget {} s.recorder.trig n
      ({ s with recorder := { s.recorder with
          suppressed := satInc s.recorder.suppressed
          trig := tset {} s.recorder.trig n { e with suppressed := satInc e.suppressed } } }, 0)
    else
      let list := es.head?.map fun n => (tget {} s.recorder.trig n).list.toNat
      let own := es.headD 32
      let e := tget {} s.recorder.trig own
      let (seq, s1) := s.takeSeq
      let snap := s.snapshots list
      let r : RecRec :=
        { seq, kind := t.kind, list := (list.map (BitVec.ofNat 8)).getD 0xFF, site := t.site, unit := t.unit
          part := t.part, job := t.job, invalid := snap.2, localCount := Config.localCount s.free
          related := t.related, suppressed := e.suppressed, data := t.data, snaps := snap.1 }
      let s2 := { s1.tick with recorder := { s1.recorder with
          trig := if own < 32 then tset {} s1.recorder.trig own { e with suppressed := 0 } else s1.recorder.trig } }
      let s3 := s2.fileRecord r
      (if isFixed then s3 else s3.event 4 seq, seq)

/-- A record whose SEQ nobody asks for. -/
def State.record (s : State) (t : RecTrig) (fixed : Bool := false) : State := (s.recordSeq t fixed).1

/-- A record of a kind about the panel as a whole, with its DATA. -/
def State.recordKind (s : State) (kind : BitVec 8) (data : List Byte := []) : State := s.record { kind, data }

/-! ### Sessions (R427) -/

/-- The rights bits: 0 RWA writes, 1 physical-site windows, 2 DEBUG, 3 REC_CLEAR, 4 INJECT. [DEDUCED, log 49] -/
def rightPhys : Nat := 1
def rightDebug : Nat := 2
def rightRecClear : Nat := 3
def rightInject : Nat := 4

/-- R427 step 3: the session is open, authorised, used where it was opened, and has the right. -/
def State.sessionOk (s : State) (o : Origin) (number : Word) (right : Nat) : Bool :=
  decide (number ≠ 0) &&
    s.sec.sessions.any fun e => e.number = number && e.authorised && decide (e.origin = o) && e.rights.getLsbD right

/-! ### Refusals -/

/-- R285: the code of a partition's state. -/
def PartState.code : PartState → Nat
  | .free => 0
  | .idle => 1
  | .loading => 2
  | .loaded => 3
  | .running => 4
  | .checkpoint => 5
  | .held => 6
  | .ending => 7

/-- What a command asks of its sender and of the panel before it looks at its parameters. -/
structure Gate where
  /-- The session right it needs (R427). -/
  right : Option Nat := none
  /-- An information command (R454). -/
  info : Bool := false
  /-- A command of the 0x06 group (R387). -/
  group6 : Bool := false
  /-- PANEL_RESET (R367, R387). -/
  reset : Bool := false
  /-- Accepted from the management port (R303). -/
  mgmt : Bool := false
  /-- The states in which its partition accepts it (R285); none: not tied to a partition. -/
  states : Option (List PartState) := none
  /-- Only the owner may give it (R285). -/
  owner : Bool := false

/-- An information command (R303, R454): accepted in every state, from both paths. -/
def infoGate : Gate := { info := true, mgmt := true }

/-- A command of a partition's owner, in the states of R285. -/
def ownGate (l : List PartState) : Gate := { states := some l, owner := true }

/-- Every state of a partition that exists. -/
def anyState : List PartState := [.idle, .loading, .loaded, .running, .checkpoint, .held, .ending]

/-- The states in which a job can be aborted, or its partition reset (R285). -/
def abortStates : List PartState := [.loading, .loaded, .running, .checkpoint, .held]
def resetStates : List PartState := [.idle, .loading, .loaded, .running, .checkpoint]

/-- What each opcode asks (R285, R288-R291, R303, R387, R436, R454). -/
def gateOf (op : Nat) : Gate :=
  match op with
  | 0x0101 => infoGate
  | 0x0202 => ownGate [.idle]
  | 0x0203 => { ownGate resetStates with mgmt := true }
  | 0x0204 => { infoGate with states := some anyState }
  | 0x0301 => ownGate [.idle]
  | 0x0302 => ownGate [.loaded]
  | 0x0303 => { ownGate abortStates with mgmt := true }
  | 0x0304 => { states := some [.running] }
  | 0x0305 => { states := some [.running] }
  | 0x0306 => ownGate [.checkpoint]
  | 0x0307 => ownGate [.held]
  | 0x0308 => { states := some [.running] }
  | 0x0401 => { infoGate with states := some anyState }
  | 0x0402 => { infoGate with states := some anyState }
  | 0x0501 => ownGate [.loaded, .checkpoint, .held]
  | 0x0502 => ownGate [.loaded, .checkpoint]
  | 0x0503 => infoGate
  | 0x0601 => { infoGate with group6 := true }
  | 0x0602 => { group6 := true, mgmt := true }
  | 0x0603 => { group6 := true, mgmt := true }
  | 0x0604 => { infoGate with group6 := true }
  | 0x0605 => { group6 := true, mgmt := true, right := some rightRecClear }
  | 0x0606 => { group6 := true, mgmt := true, right := some rightInject }
  | 0x0701 => infoGate
  | 0x0702 => { mgmt := true }
  | 0x0703 => { mgmt := true }
  | 0x0704 => { mgmt := true }
  | 0x0705 => { mgmt := true }
  | 0x0706 => ownGate [.idle]
  | 0x0707 => ownGate [.idle]
  | 0x0708 => { ownGate anyState with right := some rightDebug }
  | 0x0801 => infoGate
  | 0x0802 => { mgmt := true }
  | 0x0803 => infoGate
  | 0x0804 => infoGate
  | 0x0805 => { mgmt := true }
  | 0x0903 => ownGate [.idle]
  | 0x0904 => ownGate [.idle]
  | 0x0907 => ownGate [.idle]
  | 0x0908 => { info := true }
  | 0x0A01 => { mgmt := true }
  | 0x0A03 => infoGate
  | 0x0A04 => { reset := true, mgmt := true }
  | 0x0A07 => { infoGate with right := some rightPhys }
  | _ => {}

/-- R367, R387: the panel as a whole accepts the command. -/
def State.panelAccepts (s : State) (g : Gate) : Bool :=
  (s.panel.ready || g.info || g.reset) && (!s.panel.stopped || g.info || g.group6 || g.reset)

/-- R286: the first reason to refuse a command, up to 0x0005, and its DETAIL. -/
def State.refusal (s : State) (h : Cmd) (g : Gate) : Option (BitVec 16 × List Byte) :=
  let p := s.part h.part.toNat
  let tied := g.states.isSome
  if (g.right.map fun r => s.sessionOk h.origin h.session r).getD true = false then some (stAuth, [])
  else if tied ∧ (16 ≤ h.part.toNat ∨ p.state = .free) then some (stNoPart, [])
  else if (match h.origin with
      | .mgmt => !g.mgmt
      | .host second => tied && g.owner && decide (p.owner ≠ second)) then some (stOwner, [])
  else if s.panelAccepts g = false then some (stState, [])
  else if (g.states.map fun l => l.contains p.state).getD true = false then
    some (stState, [BitVec.ofNat 8 p.state.code, 0])
  else none

/-- R303, R307, R366, R381, R442: whether a command of the sender can reach Velty: not while the headworks is held in
reset, not from the management port in recovery, and not from a host die in Standby, in recovery, after a boot stop, with
the rails off or with PANEL_RST_N low. [DEDUCED, log 66] -/
def State.hears (s : State) (o : Origin) : Bool :=
  let p := s.panel
  !p.hwdHeld && p.stage != 0xE &&
    match o with
    | .mgmt => true
    | .host _ => !p.rstLow && p.stage != 0xF && !p.dead && decide (p.pstate ≠ .standby)

/-- R286: what a command's own rules refuse: by a status that stands before 0x0002, with its DETAIL; then the first invalid
field. -/
structure Asks where
  refused : Option (BitVec 16 × List Byte) := none
  field : Option Nat := none

/-- The first of the fields, given in their order, that is invalid. -/
def firstBad (l : List (Bool × Nat)) : Option Nat := (l.find? (·.1)).map (·.2)

/-- R280, R286: the first invalid field, of the command's own and of those that must be zero. -/
def badFieldOf (h : Cmd) (own : Option Nat) : Option Nat :=
  match own, h.bad with
  | some x, some y => some (min x y.toNat)
  | some x, none => some x
  | none, y => y.map (·.toNat)

/-- R286, R291, R427: a command that passes its gate and what its own rules ask is carried out; a failed authorisation and
each use of a session are recorded. [DESIGN CHOICE, log 16] -/
def command (h : Cmd) (g : Gate) (s : State) (body : State → State) (asks : State → Asks := fun _ => {}) :
    Host.Outcome State Fault Refusal :=
  if s.hears h.origin = false then .next s
  else
  match s.refusal h g with
  | some (st, detail) =>
    .next ((if st = stAuth then s.recordKind 0x0A (bytesOf 4 h.session.toNat) else s).answer h st detail)
  | none =>
    let s1 := if g.right.isSome then s.recordKind 0x09 (bytesOf 4 h.session.toNat) else s
    let a := asks s1
    match a.refused, badFieldOf h a.field with
    | some (st, detail), _ =>
      .next ((if st = stAuth then s1.recordKind 0x0A (bytesOf 4 h.session.toNat) else s1).answer h st detail)
    | none, some off => .next (s1.answer h stField (fieldDetail off))
    | none, none => .next (body s1)

end Sys2Proof.Machine
end

