-- ==== Sys2Proof/Machine/CommandCodes.lean ====
section
/-!
DEFINITION. The opcodes of R288-R291 and their parameters: from the 64 bytes of a command (R280) to the command that they
name.
-/

namespace Sys2Proof.Machine

/-- The parameter fields of a command's bytes. -/
def p8 (b : List Byte) (o : Nat) : BitVec 8 := BitVec.ofNat 8 (fieldOf b o 1)
def p16 (b : List Byte) (o : Nat) : BitVec 16 := BitVec.ofNat 16 (fieldOf b o 2)
def p32 (b : List Byte) (o : Nat) : Word := BitVec.ofNat 32 (fieldOf b o 4)
def p64 (b : List Byte) (o : Nat) : Reg64 := BitVec.ofNat 64 (fieldOf b o 8)

/-- R22, R382: the site that bytes 16 and 17 name. -/
def siteAt16 (b : List Byte) : Option Site :=
  if fieldOf b 16 1 < 16 ∧ fieldOf b 17 1 < 16 then some ⟨BitVec.ofNat 4 (fieldOf b 16 1), BitVec.ofNat 4 (fieldOf b 17 1)⟩
  else none

/-- R288: panel information, queues and partitions. -/
def panelCommand (h : Cmd) (b : List Byte) : Option Instr :=
  match fieldOf b 0 2 with
  | 0x0101 => some (.panelInfo h (p64 b 16) (p32 b 24))
  | 0x0102 => some (.queueCreate h (p8 b 16) (p8 b 17) (p8 b 18) (p64 b 24) (p64 b 32))
  | 0x0103 => some (.queueDelete h (p8 b 16))
  | 0x0201 => some (.partCreate h (p8 b 16) (p8 b 17) (p8 b 18) (p8 b 19))
  | 0x0202 => some (.partDestroy h)
  | 0x0203 => some (.partReset h)
  | 0x0204 => some (.partQuery h)
  | _ => none

/-- R289, R290: jobs, flumes, memory and registers. -/
def jobCommand (h : Cmd) (b : List Byte) : Option Instr :=
  match fieldOf b 0 2 with
  | 0x0301 => some (.jobLoad h (p64 b 16) (p32 b 24) (bit (fieldOf b 28 1) 0))
  | 0x0302 => some (.jobStart h (p32 b 16))
  | 0x0303 => some (.jobAbort h (p16 b 16))
  | 0x0304 => some (.jobWait h)
  | 0x0305 => some (.ckptWait h)
  | 0x0306 => some (.ckptRelease h)
  | 0x0307 => some (.jobEnd h)
  | 0x0308 => some (.logWait h)
  | 0x0401 => some (.flumeList h (p64 b 16) (p32 b 24))
  | 0x0402 => some (.flumeStats h (p16 b 16))
  | 0x0501 => some (.memRead h (p64 b 16) (p64 b 24) (p32 b 32))
  | 0x0502 => some (.memWrite h (p64 b 16) (p64 b 24) (p32 b 32))
  | 0x0503 => some (.regRead h (p64 b 16) (p64 b 24) (p32 b 32))
  | 0x0504 => some (.regWrite h (p64 b 16) (p64 b 24))
  | _ => none

/-- R410, R416-R428: faults and security; a DEBUG names one of its four actions. -/
def faultCommand (h : Cmd) (b : List Byte) : Option Instr :=
  match fieldOf b 0 2 with
  | 0x0601 => some (.faultRead h (p64 b 16) (p32 b 24) (p32 b 28) (bit (fieldOf b 32 1) 0))
  | 0x0602 => some (.faultClear h (p32 b 16))
  | 0x0603 => some (.eventWait h (p32 b 16))
  | 0x0604 => some (.recRead h (p64 b 16) (p32 b 24) (p8 b 28))
  | 0x0605 => some (.recClear h)
  | 0x0606 => some (.inject h (p8 b 16) (p8 b 17) (p16 b 18) (p16 b 20) (p8 b 22))
  | 0x0701 => some (.identity h (p64 b 16) (p32 b 24))
  | 0x0702 => some (.attest h (p64 b 16) (p32 b 24) (p8 b 28) ((b.drop 32).take 32))
  | 0x0703 => some (.sessionOpen h (p64 b 16) (p16 b 24) (p16 b 26))
  | 0x0704 => some (.sessionAuth h (p64 b 16) (p32 b 24))
  | 0x0705 => some (.sessionClose h)
  | 0x0706 => some (.sealOffer h (p64 b 16) (p32 b 24) ((b.drop 32).take 32))
  | 0x0707 => some (.sealAccept h (p64 b 16) (p32 b 24))
  | 0x0708 =>
    let off : BitVec 24 := BitVec.ofNat 24 (fieldOf b 21 3)
    match fieldOf b 16 1 with
    | 0 => some (.debugStop h (p16 b 17) (p16 b 19))
    | 1 => some (.debugResume h (p16 b 17) (p16 b 19))
    | 2 => some (.debugRead h (p16 b 17) (p16 b 19) off (p64 b 24) (p32 b 32))
    | 3 => some (.debugWrite h (p16 b 17) (p16 b 19) off (p64 b 24) (p32 b 32))
    | _ => none
  | _ => none

/-- Power, cooling and the links between panels (R267, R326, R359). -/
def linkCommand (h : Cmd) (b : List Byte) : Option Instr :=
  match fieldOf b 0 2 with
  | 0x0801 => some (.powerRead h (p64 b 16) (p32 b 24))
  | 0x0802 => some (.powerLimit h (p16 b 16))
  | 0x0803 => some (.thermalRead h (p64 b 16) (p32 b 24))
  | 0x0804 => some (.lifeRead h (p64 b 16) (p32 b 24))
  | 0x0805 => some (.powerMode h (p8 b 16))
  | 0x0901 => some (.panelIdSet h (p16 b 16) (bit (fieldOf b 18 1) 0))
  | 0x0902 => some (.routeWrite h (p64 b 16) (p32 b 24))
  | 0x0903 => some (.groupBind h (p16 b 16) (p16 b 18) (p16 b 20) (bit (fieldOf b 22 1) 0) (p64 b 24) (p32 b 32))
  | 0x0904 => some (.groupUnbind h)
  | 0x0905 => some (.ringJoin h)
  | 0x0906 => some (.ringLeave h)
  | 0x0907 => some (.shadowBind h (p8 b 16) (p16 b 17) (p8 b 19) (p8 b 20) (p8 b 21))
  | 0x0908 => some (.portRead h (p64 b 16) (p32 b 24))
  | _ => none

/-- R382: the maintenance group; what comes of a reset is drawn. [DESIGN CHOICE, log 16] -/
def maintainCommand (h : Cmd) (b : List Byte) (draw : Nat) : Option Instr :=
  match fieldOf b 0 2 with
  | 0x0A01 => some (.fwUpdate h (p64 b 16) (p32 b 24))
  | 0x0A02 => some (.cfgWrite h (p64 b 16) (p32 b 24))
  | 0x0A03 => some (.cfgRead h (p64 b 16) (p32 b 24) (bit (fieldOf b 28 1) 0))
  | 0x0A04 =>
    match fieldOf b 16 1 with
    | 0 => some (.panelResetWarm h (Config.bringUpOf draw))
    | 1 => some (.panelResetCold h (Config.bringUpOf draw))
    | _ => none
  | 0x0A05 =>
    match siteAt16 b, fieldOf b 18 1 with
    | some d, 0 => some (.dieResetDie h d (Config.digestsOf draw))
    | some d, 1 => some (.dieResetCore h d (p16 b 19))
    | _, _ => none
  | 0x0A06 => (siteAt16 b).map fun d => .retire h d (p8 b 18) (p16 b 19)
  | 0x0A07 => some (.regReadPhys h (p64 b 16) (p64 b 24) (p32 b 32))
  | _ => none

/-- R280, R288-R291: the command that 64 bytes name; none for an opcode, or an operation of one, that does not exist. -/
def commandOf (h : Cmd) (b : List Byte) (draw : Nat) : Option Instr :=
  match fieldOf b 1 1 with
  | 1 => panelCommand h b
  | 2 => panelCommand h b
  | 3 => jobCommand h b
  | 4 => jobCommand h b
  | 5 => jobCommand h b
  | 6 => faultCommand h b
  | 7 => faultCommand h b
  | 8 => linkCommand h b
  | 9 => linkCommand h b
  | 10 => maintainCommand h b draw
  | _ => none

end Sys2Proof.Machine
end

