-- ==== Sys2Proof/Machine/System.lean ====
section
/-!
DEFINITION. Synchronisation at the core (R61), notices (R64), CSR instructions (R65-R72), TRAP, HALT and RTE (R73-R77),
the instruction buffer and store buffer (R43, R79, R128), hardware faults (R78) and debug stops (R428).
-/

namespace Sys2Proof.Machine

/-! ### Sync channels (R61) -/

/-- R45, R61: the register fields are zero and the immediate names a channel. -/
def syncFieldsOk (f : FmtS) : Bool := f.rs == 0 && f.zero == 0 && decide (f.imm.toNat < 16)

/-- The channel of a sync instruction. -/
def syncChannel (f : FmtS) : BitVec 4 := f.imm.setWidth 4

/-- R61, R202: FLAG sets ARRIVED and the die's tree takes the arrival of this member. -/
def State.flag (s : State) (c : CoreRef) (k : Core) (ch : BitVec 4) : State × Core :=
  let h := k.chan ch
  let s' := match s.dieOf c with
    | some d => s.onDie d fun die =>
        { die with arrivedMembers := tpush die.arrivedMembers h.group.toNat [c] }
    | none => s
  (s', k.setChan ch { h with arrived := true })

/-- R61: the common form: illegal fields, then an unbound channel, then the table's row. -/
def syncIssue (f : FmtS) (op : Nat) (body : State → Core → BitVec 4 → SyncChan → Issue) (s : State) (k : Core) :
    Issue :=
  let ch := syncChannel f
  if syncFieldsOk f = false then .trap causeIllegal (wordS op f)
  else if (k.chan ch).bound = false then .trap causeUnbound (ch.setWidth 32)
  else body s k ch (k.chan ch)

/-- FLAG (R61). -/
def execFlag (c : CoreRef) (f : FmtS) (s : State) : Host.Outcome State Fault Refusal :=
  issue c s (syncIssue f 0x34 fun s k ch h =>
    if h.arrived ∨ h.released then .trap causeSyncOrder (ch.setWidth 32)
    else
      let (s', k') := s.flag c k ch
      .done s' k' (nextPc k))

/-- WAITF (R61). -/
def execWaitf (c : CoreRef) (f : FmtS) (s : State) : Host.Outcome State Fault Refusal :=
  issue c s (syncIssue f 0x35 fun s k ch h =>
    if h.released then .done s (k.setChan ch { h with released := false }) (nextPc k)
    else if h.arrived then .wait s k (.sync ch)
    else .trap causeSyncOrder (ch.setWidth 32))

/-- BARRIER (R61): FLAG, then WAITF; the core waits for the release that SYNC_RELEASE brings. -/
def execBarrier (c : CoreRef) (f : FmtS) (s : State) : Host.Outcome State Fault Refusal :=
  issue c s (syncIssue f 0x33 fun s k ch h =>
    if h.arrived ∨ h.released then .trap causeSyncOrder (ch.setWidth 32)
    else
      let (s', k') := s.flag c k ch
      .wait s' k' (.sync ch))

/-! ### NOTICE (R64) -/

/-- NOTICE (R64). -/
def execNotice (c : CoreRef) (f : FmtI) (s : State) : Host.Outcome State Fault Refusal :=
  issue c s fun s k =>
    let lead := bits f.imm.toNat 8 8
    if f.rd ≠ 0 ∨ f.rs1 ≠ 0 ∨ lead = 0 then .trap causeIllegal (wordI 0x36 f)
    else
      let n : Notice :=
        ⟨BitVec.ofNat 8 lead, BitVec.ofNat 4 (bits f.imm.toNat 4 4), BitVec.ofNat 4 f.imm.toNat⟩
      .done s { k with notice := some n } (nextPc k)

/-! ### CSR instructions (R65-R67) -/

/-- What a CSR instruction does with the register. -/
inductive CsrOp where
  | read | write | set | clear
deriving DecidableEq, Repr

/-- R67: the indices that a CSR instruction may name. -/
def csrIndexOk (i : Nat) : Bool :=
  i < 5 || i == 8 || i == 9 || i == 0xC || (0x10 ≤ i && i < 0x17) || (0x20 ≤ i && i < 0x30) ||
    (0x40 ≤ i && i < 0xC0)

/-- R67: the runtime-only indices. -/
def csrRuntimeOnly (i : Nat) : Bool := 0x10 ≤ i && i < 0x17

/-- R65, R66: the forms that are illegal. [DEDUCED, log 39] -/
def csrIllegal (op : CsrOp) (f : FmtI) : Bool :=
  let i := bits f.imm.toNat 0 11
  bits f.imm.toNat 11 5 != 0 || !csrIndexOk i || (op == .read && f.rs1 != 0) ||
    ((op == .set || op == .clear) && i == 9) || (i == 4 && (f.rd.toNat % 2 == 1 || f.rd == 0))

/-- R5, R65, R70, R72: the write; a read-only register is left as it is. -/
def Core.csrWrite (k : Core) (op : CsrOp) (i : Nat) (old v : Word) : Core :=
  let new := match op with
    | .read => old
    | .write => v
    | .set => old ||| v
    | .clear => old &&& ~~~v
  if op = .read then k
  else if i = 8 then { k with subn := new.getLsbD 0, sat := new.getLsbD 1 }
  else if i = 9 then k.clearFlags (v.setWidth 6)
  else if 0x13 ≤ i ∧ i < 0x17 then { k with rtScratch := tset 0 k.rtScratch (i - 0x13) new }
  else k

/-- R65, R66: a CSR instruction: the source is read before g[rd] takes the old value; `CORE_CYCLE` fills g[rd] and
g[rd+1] from one sample. -/
def csrIssue (c : CoreRef) (op : CsrOp) (opcode : Nat) (f : FmtI) (s : State) (k : Core) : Issue :=
  let i := bits f.imm.toNat 0 11
  if csrIllegal op f then .trap causeIllegal (wordI opcode f)
  else if csrRuntimeOnly i ∧ k.mode ≠ .runtime then .trap causeCsr (wordI opcode f)
  else
    let s1 := if i = 4 then s.elapse c else s
    let cycle := (s1.core c).cycle
    match s.csr c k.issued cycle i with
    | none => .trap causeIllegal (wordI opcode f)
    | some old =>
      let k1 := (k.csrWrite op i old (k.getG f.rs1)).setG f.rd old
      if i = 4 then
        .done s1 ({ k1 with cycle := cycle }.setG (f.rd + 1) (BitVec.ofNat 32 (cycle.toNat / 2 ^ 32))) (nextPc k)
      else .done s k1 (nextPc k)

/-- CSRR (R65, R66). -/
def execCsrr (c : CoreRef) (f : FmtI) (s : State) : Host.Outcome State Fault Refusal :=
  issue c s (csrIssue c .read 0x38 f)

/-- CSRW (R65). -/
def execCsrw (c : CoreRef) (f : FmtI) (s : State) : Host.Outcome State Fault Refusal :=
  issue c s (csrIssue c .write 0x39 f)

/-- CSRS (R65). -/
def execCsrs (c : CoreRef) (f : FmtI) (s : State) : Host.Outcome State Fault Refusal :=
  issue c s (csrIssue c .set 0x3A f)

/-- CSRC (R65). -/
def execCsrc (c : CoreRef) (f : FmtI) (s : State) : Host.Outcome State Fault Refusal :=
  issue c s (csrIssue c .clear 0x3B f)

/-! ### TRAP, HALT and RTE (R73, R74, R76) -/

/-- R76 step 3: the trap CSRs and the runtime state; the runtime sets up the PC that RTE will go to. -/
def Core.enterRuntime (k : Core) (cause : BitVec 6) (val : Word) (ret : BitVec 19) (sv : Service) : Core :=
  { k with trapCause := cause, trapPc := k.pc.setWidth 32, trapVal := val, mode := .runtime, rtPc := ret,
           service := sv }

/-- R76 step 4: the runtime returns by RTE. -/
def Core.fromRuntime (k : Core) : Core := { k with mode := .run, service := .none, pc := k.rtPc }

/-- R301: DETAIL of LOG_WAIT: X, Y, g1-g4. -/
def logDetail (x y : BitVec 16) (l : List Word) : List Byte :=
  bytesOf 2 x.toNat ++ bytesOf 2 y.toNat ++ l.flatMap fun w => bytesOf 4 w.toNat

/-- The wait commands for a log record of a partition. -/
def isLogWait (n : Nat) (w : WaitKind × Cmd) : Bool := w.1 == WaitKind.log && w.2.part.toNat == n

/-- R301: a log record reaches the headworks; none when its partition already has 1,024. -/
def State.takeLog (s : State) (n : Nat) (c : CoreRef) (l : List Word) : Option State :=
  let x := c.x.setWidth 16
  let y := c.y.setWidth 16
  match s.waiters.find? (isLogWait n) with
  | some w => some ({ s with waiters := eraseOne w s.waiters }.answer w.2 stOk (logDetail x y l))
  | none =>
    if 1024 ≤ (s.part n).logs.length then none
    else some (s.onPart n fun p => { p with logs := p.logs ++ [(x, y, l)] })

/-- R74, R301: TRAP LOG: g1-g4 go to the headworks and the core goes on; while there is no room it waits in its
runtime. -/
def trapLog (c : CoreRef) (s : State) (k : Core) : State :=
  let l := [k.getG 1, k.getG 2, k.getG 3, k.getG 4]
  let k1 := k.issued.enterRuntime causeService 1 (nextPc k) (.log l)
  match s.partOfDie (dieRow c) (dieCol c) with
  | none => s.setCore c k1.fromRuntime
  | some n =>
    match s.takeLog n c l with
    | some s' => s'.setCore c k1.fromRuntime
    | none => s.setCore c k1

/-- TRAP (R74): LOG, CHECKPOINT, ABORT, or a reserved code. -/
def execTrap (c : CoreRef) (f : FmtS) (s : State) : Host.Outcome State Fault Refusal :=
  issue c s fun s k =>
    let code := f.imm.toNat
    if f.rs ≠ 0 ∨ f.zero ≠ 0 ∨ code = 0 ∨ (3 ≤ code ∧ code < 0x8000) then .trap causeIllegal (wordS 0x3C f)
    else if code = 1 then .over (trapLog c s k)
    else if code = 2 then
      .over (s.setCore c (k.issued.enterRuntime causeService 2 (nextPc k) (.hook (k.getG 1))))
    else
      .over ((s.setCore c (k.issued.trapped causeService (f.imm.setWidth 32))).report
        { s.endReport c 0x0108 0x0314 f.imm with trapPc := k.pc.setWidth 32, trapVal := f.imm.setWidth 32 })

/-- HALT (R73): issue stops. -/
def execHalt (c : CoreRef) (f : FmtS) (s : State) : Host.Outcome State Fault Refusal :=
  issue c s fun s k =>
    if f.rs ≠ 0 ∨ f.zero ≠ 0 then .trap causeIllegal (wordS 0x3D f)
    else .done s { k with halting := some f.imm } k.pc

/-- R73: the queues are empty and every instruction taken from them has finished its local part. -/
def Core.drained (k : Core) : Bool := k.tq.isEmpty && k.nq.isEmpty && k.cq.isEmpty && k.reads == 0

/-- HALT_COMPLETE (R73); a HALT that the runtime executes leaves the core trapped and `CORE_EXIT` as it is (R76). -/
def execHaltComplete (c : CoreRef) (s : State) : Host.Outcome State Fault Refusal :=
  coreEvent c s fun s k =>
    match k.halting with
    | none => s
    | some code =>
      if k.drained = false ∨ s.clocked c = false then s
      else if k.mode = .runtime then s.setCore c { k with mode := .trapped, halting := none }
      else if k.mode = .run then
        s.setCore c { k with mode := .halted, halting := none, exitCode := code, exitValid := true }
      else s

/-- RTE (R74): illegal outside the runtime state. -/
def execRte (c : CoreRef) (f : FmtS) (s : State) : Host.Outcome State Fault Refusal :=
  issue c s fun s k =>
    if f.rs ≠ 0 ∨ f.zero ≠ 0 ∨ f.imm ≠ 0 ∨ k.mode ≠ .runtime then .trap causeIllegal (wordS 0x3E f)
    else .done s { k with mode := .run, service := .none } k.rtPc

/-! ### The instruction buffer and the store buffer -/

/-- R43: put a line first; of each of the 32 sets the 4 last used stay. -/
def Core.cacheLine (k : Core) (line : BitVec 13) : Core :=
  let set (l : BitVec 13) : Nat := l.toNat % 32
  let others := (eraseOne line k.ibuf).filter fun l => set l == set line
  let victims := others.drop 3
  { k with ibuf := line :: (eraseOne line k.ibuf).filter fun l => !victims.contains l }

/-- R43: read a line through the scalar port into the buffer. -/
def fillLine (c : CoreRef) (line : Nat) (s : State) (k : Core) : SpOut :=
  let o := spReadOver s c k [] portScalar (64 * line) 64
  if o.ok then { o with k := o.k.cacheLine (BitVec.ofNat 13 line) } else o

/-- IBUF_FILL (R43, R81): a fetch that misses fills its line and prefetches the next one; a line that is present or lies
in an unused bank is not filled. -/
def execIbufFill (c : CoreRef) (s : State) : Host.Outcome State Fault Refusal :=
  coreEvent c s fun s k =>
    let line := k.pc.toNat / 64
    if k.mode ≠ .run ∨ s.clocked c = false ∨ k.ibuf.contains (BitVec.ofNat 13 line) ∨
        k.bankOn (64 * line) = false ∨ k.opens portScalar (64 * line) 64 = false then s
    else
      let o := fillLine c line s k
      if o.ok = false ∨ 8191 ≤ line ∨ o.k.bankOn (64 * (line + 1)) = false ∨
          o.k.ibuf.contains (BitVec.ofNat 13 (line + 1)) ∨ o.k.opens portScalar (64 * (line + 1)) 64 = false then
        o.state c
      else (fillLine c (line + 1) o.s o.k).state c

/-- STORE_DRAIN (R79, R128, R132): the oldest store goes to its bank; a read of the same row in the same cycle defers it,
and requests of ranks 1-4 at the bank go before it. [DESIGN CHOICE, log 1] -/
def execStoreDrain (c : CoreRef) (sameRowRead : Bool) (s : State) : Host.Outcome State Fault Refusal :=
  coreEvent c s fun s k =>
    match k.stores with
    | [] => s
    | w :: rest =>
      let n := bankOf w.off.toNat
      let b := k.bank n
      if s.clocked c = false ∨ b.opens portScalar = false then s
      else if k.bankOn w.off.toNat = false then s.setCore c { k with stores := rest }
      else if sameRowRead then
        s.setCore c ({ k with stores := rest }.setBank n { b with deferred := [w] })
      else (spWrite s c { k with stores := rest } portScalar w.off.toNat w.bytes).state c

/-! ### Hardware faults, debug stops, illegal words -/

/-- CORE_HW_FAULT (R78): the sources of R386 that a core's own checks raise, with the DETAIL that R389 gives them: tile,
check, line, word and offset, or port, offset and syndrome. -/
def execCoreHwFault (c : CoreRef) (source : BitVec 16) (detail : List Byte) (s : State) :
    Host.Outcome State Fault Refusal :=
  coreEvent c s fun s k =>
    if source = 0x0101 ∨ source = 0x0102 then
      (s.setCore c { k with ue := k.ue || source == 0x0102 }).coreFault c
        { s.coreReport c source with detail := detail.take 24 }
    else s

/-- DEBUG_STOP_TAKEN (R76, R428): a core that a stop was ordered for enters its runtime with cause 0x11 and waits; a
wait that it had begun stands until it resumes. The runtime reports the stop to the die agent. -/
def execDebugStopTaken (c : CoreRef) (word : Word) (s : State) : Host.Outcome State Fault Refusal :=
  coreEvent c s fun s k =>
    if k.debugStop ∧ k.halting = none ∧ (k.mode = .run ∨ k.mode = .wait) then
      (s.setCore c { k.enterRuntime causeDebug word k.pc .debug with debugStop := false }).onDie ((s.dieOf c).getD 0)
        fun d => { d with stopReports := d.stopReports ++ [c] }
    else s

/-- R47: the major opcodes that are assigned. -/
def opcodeAssigned (op : Nat) : Bool :=
  (1 ≤ op && op ≤ 9) || (0x10 ≤ op && op ≤ 0x22) || (0x24 ≤ op && op ≤ 0x36) || (0x38 ≤ op && op ≤ 0x3E)

/-- ILLEGAL_INSTRUCTION (R42, R47): a word whose opcode is reserved traps; a word with an assigned opcode has its own
command. -/
def execIllegalInstruction (c : CoreRef) (word : Word) (s : State) : Host.Outcome State Fault Refusal :=
  issue c s fun _ _ =>
    if opcodeAssigned (word.toNat / 2 ^ 26) then .stall else .trap causeIllegal word

end Sys2Proof.Machine
end

