-- ==== Sys2Proof/Machine/Control.lean ====
section
/-!
DEFINITION. Register writes by access type (R5-R8) and the control network (R172-R176): writes and reads of registers and
scratchpads, the core-control actions of R299, replies, acknowledgements (R158) and time-outs.
-/

namespace Sys2Proof.Machine

/-! ### Register writes (R5, R6, R8) -/

/-- R36: `PNL_ID` changes until it is locked. -/
def State.writeId (s : State) (id : Nat) (lock : Bool) : State :=
  if s.panel.idLock then s else s.onPanel fun p => { p with panelId := BitVec.ofNat 16 id, idLock := lock }

/-- The RW and RWL fields of the panel window. -/
def State.writePanel (s : State) (off v : Nat) : State :=
  if off = 0 then s.writeId (bits v 16 16) (bit v 32)
  else if off = 0x3000 then s.onPanel fun p => { p with limit := BitVec.ofNat 16 v }
  else if off = 0x3208 then s.onPanel fun p => { p with thresh := BitVec.ofNat 14 v }
  else if 0x3400 ≤ off ∧ off < 0x3500 ∧ off % 8 = 0 then
    let n := (off - 0x3400) / 8
    let old := tget {} s.recorder.trig n
    { s with recorder := { s.recorder with
        trig := tset {} s.recorder.trig n { old with
          kind := BitVec.ofNat 8 v, enable := bit v 8, list := BitVec.ofNat 3 (bits v 9 3)
          filter := BitVec.ofNat 16 (bits v 16 16) } } }
  else if 0x3800 ≤ off ∧ off < 0x3C00 ∧ off % 8 = 0 then
    let n := (off - 0x3800) / 8
    { s with recorder := { s.recorder with
        sel := tset {} s.recorder.sel n { addr := BitVec.ofNat 48 v, valid := bit v 63 } } }
  else s

/-- The RW fields of a core's block: `CORE_FPMODE`, `CORE_FPFLAGS` (W1C) where the writer reaches it, and, in the
runtime state, `CORE_RTSCRATCH0`-`3` (R72). -/
def Core.writeBlock (k : Core) (off v : Nat) (w1c : Bool) : Core :=
  if off = 0x20 then { k with subn := bit v 0, sat := bit v 1 }
  else if off = 0x24 ∧ w1c then k.clearFlags (BitVec.ofNat 6 v)
  else if k.mode = .runtime ∧ off % 4 = 0 ∧ 0x4C ≤ off ∧ off < 0x5C then
    { k with rtScratch := tset 0 k.rtScratch (off / 4 - 0x13) (BitVec.ofNat 32 v) }
  else k

/-- The RW fields of a compute die window. -/
def State.writeDie (s : State) (d off v : Nat) (w1c : Bool) : State :=
  if off < 0x800000 then
    match s.coreAt d (off / 0x2000) with
    | some c => s.onCore c fun k => k.writeBlock (off % 0x2000) v w1c
    | none => s
  else if off = 0x800100 then s.onDie d fun die => { die with forceLog2 := BitVec.ofNat 4 v }
  else s

/-- A write of one register, under its fields' access types; what is not a writable field is left as it is. -/
def State.writeReg (s : State) (a v : Nat) (w1c : Bool) : State :=
  match s.regPlace a with
  | .panel off => s.writePanel off v
  | .die d off => s.writeDie d off v w1c
  | .msd m off => if off = 0x800200 then s.setMsd m { s.msd m with hours := BitVec.ofNat 5 v } else s
  | _ => s

/-- R188: an endpoint from its register. -/
def flumeEpOf (v : Nat) : FlumeEp :=
  { valid := bit v 0, role := BitVec.ofNat 3 (bits v 1 3), flume := BitVec.ofNat 12 (bits v 4 12)
    ctr := BitVec.ofNat 6 (bits v 16 6), base := BitVec.ofNat 13 (bits v 22 13), size := BitVec.ofNat 13 (bits v 35 13)
    pos := BitVec.ofNat 12 (bits v 48 12) }

/-- R179: a state of `CD_NETCFG`. -/
def netStateOf (n : Nat) : NetState :=
  match n with
  | 0 => .idle
  | 1 => .loading
  | 2 => .running
  | _ => .reset

/-- R240: HBM range n of a die. -/
def setRange (l : List (BitVec 9 × BitVec 9)) (n v : Nat) : List (BitVec 9 × BitVec 9) :=
  if bit v 31 then
    let r := (BitVec.ofNat 9 v, BitVec.ofNat 9 (bits v 16 9))
    if n < l.length then l.set n r else l ++ [r]
  else l.eraseIdx n

/-- R173, R179: a write of the headworks or of a die agent over the internal path, which reaches fields that are
read-only to every other writer. -/
def State.writeInternal (s : State) (d off v : Nat) : State :=
  if off < 0x800000 then
    match s.coreAt d (off / 0x2000) with
    | some c =>
      let o := off % 0x2000
      if o = 4 then
        s.onCore c fun k => { k with partReg := BitVec.ofNat 20 v, sealed := bit v 20, detreq := bit v 21 }
      else if 0x1100 ≤ o ∧ o < 0x1140 then
        s.onCore c fun k => k.setEndpoint (BitVec.ofNat 3 ((o - 0x1100) / 8)) (flumeEpOf v)
      else s.writeDie d off v true
    | none => s
  else if off = 0x800300 then
    s.onDie d fun die => { die with
      part := BitVec.ofNat 4 v, assigned := bit v 4, job := BitVec.ofNat 8 (bits v 8 8), net := netStateOf (bits v 16 2) }
  else if off = 0x800500 then s.onDie d fun die => { die with gran := BitVec.ofNat 2 (bits v 38 2) }
  else if 0x800508 ≤ off ∧ off < 0x800528 then
    s.onDie d fun die => { die with ranges := setRange die.ranges ((off - 0x800508) / 8) v }
  else s.writeDie d off v true

/-! ### Targets of control packets -/

/-- The site and region that a region row and column name (R172). -/
def State.ctlRegion (s : State) (row col : Nat) : Option (Nat × Nat) :=
  (s.dieAt (row / 8) (col / 8)).map fun d => (d, 8 * (row % 8) + col % 8)

/-- The regions that a request reaches (R172, R175). -/
def State.ctlRegions (s : State) (h : CtlHdr) : List (Nat × Nat) :=
  let row := h.destRow.toNat
  let col := h.destCol.toNat
  let mine (e : Nat × Nat) : Bool :=
    (s.dieAt (e.1 / 8) (e.2 / 8)).isSome && (h.sys || s.partOfDie (e.1 / 8) (e.2 / 8) == some h.part.toNat)
  let along (rows cols : List Nat) : List (Nat × Nat) :=
    (rows.flatMap fun r => cols.map fun c => (r, c)).filter mine
  match h.bcast.toNat with
  | 0 => if (s.ctlRegion row col).isSome then [(row, col)] else []
  | 1 => along [row] (List.range (8 * s.lcols))
  | 2 => along (List.range 96) [col]
  | _ => along (List.range 96) (List.range (8 * s.lcols))

/-- The cores of a region that an endpoint names (R172). -/
def endpointCores (row col endpoint : Nat) : List CoreRef :=
  let one (e : Nat) : CoreRef := coreXY (4 * col + e % 4) (4 * row + e / 4)
  if endpoint < 16 then [one endpoint] else if endpoint = 0x1E then (List.range 16).map one else []

/-- The cores that a request reaches. -/
def State.ctlCores (s : State) (h : CtlHdr) : List CoreRef :=
  (s.ctlRegions h).flatMap fun e => endpointCores e.1 e.2 h.endpoint.toNat

/-- R172: the endpoints that exist: a core, the runtime store, the die agent, every core of a region, the headworks. -/
def endpointExists (e : BitVec 5) : Bool := decide (e.toNat ≤ 0x11) || e == 0x1E || e == 0x1F

/-- R172: whether a unicast request reaches an endpoint; the region fields are ignored for the headworks. -/
def State.ctlReaches (s : State) (h : CtlHdr) : Bool :=
  h.endpoint == 0x1F || (endpointExists h.endpoint && (s.ctlRegion h.destRow.toNat h.destCol.toNat).isSome)

/-- R174: two requests of one requester. -/
def sameSource (a b : CtlHdr) : Bool :=
  a.srcRow == b.srcRow && a.srcCol == b.srcCol && a.srcEndpoint == b.srcEndpoint

/-- R174: the slot that a unicast request names is free: no request with its TAG is outstanding, and, of a core's runtime,
which has one slot, none at all. -/
def State.slotFree (s : State) (h : CtlHdr) : Bool :=
  h.bcast != 0 || s.ctlOut.all fun g => !(sameSource g h && (g.tag == h.tag || decide (h.srcEndpoint.toNat < 16)))

/-- R174, R175: a unicast request holds the slot of its TAG until its REPLY; a broadcast is posted. A request that
reaches no endpoint gets no reply. -/
def State.ctlAnswer (s : State) (h : CtlHdr) (reached : Bool) (status : BitVec 8) (data : Option Reg64) : State :=
  if h.bcast ≠ 0 then s
  else
    let s1 := { s with ctlOut := s.ctlOut ++ [h] }
    if reached then { s1 with ctlReplies := s1.ctlReplies ++ [(h, status, data)] } else s1

/-- R171-R175: a request acts where its endpoint takes it; a requester without a free slot sends nothing, and a type that may
not be broadcast is then invalid. [DEDUCED, log 72] -/
def request (h : CtlHdr) (mayCast : Bool) (s : State) (f : State → State) (data : State → Option Reg64) :
    Host.Outcome State Fault Refusal :=
  if s.slotFree h = false ∨ (h.bcast ≠ 0 ∧ mayCast = false) then .next s
  else
    let s1 := f s
    .next (s1.ctlAnswer h (s1.ctlReaches h) 0x00 (data s1))

/-- A request that acts on each core that it reaches. -/
def coreRequest (h : CtlHdr) (s : State) (f : State → CoreRef → State) : Host.Outcome State Fault Refusal :=
  if s.slotFree h = false then .next s
  else
    let cs := s.ctlCores h
    .next ((cs.foldl f s).ctlAnswer h (!cs.isEmpty) 0x00 none)

/-! ### SPWRITE, REGWRITE, REGREAD -/

/-- R173, R142: bytes written into a scratchpad through the ingress port; a bank that is powered down takes none and the
die agent reports it. -/
def State.spwrite (s : State) (c : CoreRef) (off : Nat) (bs : List Byte) (grants : List BankGrant) : State :=
  let k := s.core c
  if k.rangeOn off bs.length then
    s.landFor c k (rowsOf { off := 0, bytes := [], port := 5 } (bs.length + 1) off bs) grants none
  else s.report (s.endReport c 0x0107 0x0313 0)

/-- SPWRITE (R173): up to 64 bytes. -/
def execSpwrite (h : CtlHdr) (offset : BitVec 19) (data : List Byte) (grants : List BankGrant) (s : State) :
    Host.Outcome State Fault Refusal :=
  coreRequest h s fun s c => s.spwrite c offset.toNat (data.take 64) grants

/-- The sites whose registers a request reaches. -/
def State.ctlSites (s : State) (h : CtlHdr) : List Nat :=
  if endpointExists h.endpoint then distinct ((s.ctlRegions h).filterMap fun e => (s.ctlRegion e.1 e.2).map (·.1)) else []

/-- REGWRITE (R173): a register of the die window of the endpoint; at the headworks, of the panel window. [DEDUCED, log 72] -/
def execRegwrite (h : CtlHdr) (offset : BitVec 24) (value : Reg64) (s : State) : Host.Outcome State Fault Refusal :=
  request h true s
    (fun s =>
      if h.endpoint = 0x1F then s.writePanel offset.toNat value.toNat
      else (s.ctlSites h).foldl (fun s d => s.writeInternal d offset.toNat value.toNat) s)
    fun _ => none

/-- REGREAD (R173): the register comes back in the REPLY. -/
def execRegread (h : CtlHdr) (offset : BitVec 24) (s : State) : Host.Outcome State Fault Refusal :=
  let off := offset.toNat / 8 * 8
  let site := (s.ctlRegion h.destRow.toNat h.destCol.toNat).map (·.1)
  request h false s
    (fun s =>
      match (if h.endpoint = 0x1F then none else site.bind fun d => s.blockCore (.die d off)) with
      | some c => s.elapse c
      | none => s)
    fun s => if h.endpoint = 0x1F then some (s.panelReg off) else site.map fun d => s.dieWindow d off

/-! ### CORECTL (R299) -/

/-- R299 START. -/
def Core.start (k : Core) (entry : BitVec 19) : Core :=
  { k with pc := entry, mode := .run, wait := .none, exitValid := false }

/-- R299 STOP: queued engine instructions are discarded and the core halts; `CORE_EXIT` stays. -/
def Core.stop (k : Core) : Core :=
  { k with mode := .halted, wait := .none, halting := none, service := .none, debugStop := false, tq := [], nq := [],
           cq := [], reads := 0 }

/-- R74, R299 RELEASE: a core that waits at a checkpoint hook goes on. -/
def Core.release (k : Core) : Core :=
  match k.mode, k.service with
  | .runtime, .hook _ => k.fromRuntime
  | _, _ => k

/-- R41, R94: the state of a core at job start; `CORE_FPMODE` from the image. Counters and sync channels are zero, their
bindings kept for BIND to set, and the network instructions are counted from here (R156). -/
def Core.clear (k : Core) (fpmode : BitVec 2) : Core :=
  { k with
    g := [], v := [], d := [], acc := [], kind := [], ccnt := [], fpflags := 0
    sync := tmap {} (fun _ h => { h with arrived := false, released := false, gen := 0 }) k.sync
    subn := fpmode.getLsbD 0, sat := fpmode.getLsbD 1, flowCount := 0, slots := [], exitValid := false }

/-- R299 BIND. -/
def Core.bind (k : Core) (chan : BitVec 4) (group : BitVec 6) : Core :=
  k.setChan chan { k.chan chan with bound := true, group }

/-- R76, R428: a core stopped by debug goes on as if no stop had taken place: a wait that it had begun stands, and it is
over at once when its release came meanwhile. -/
def Core.debugResume (k : Core) : Core :=
  let k1 := { k with service := .none, debugStop := false, pc := k.rtPc }
  match k.wait with
  | .none => { k1 with mode := .run }
  | .sync ch =>
    if (k.chan ch).released then
      { k1.setChan ch { k.chan ch with released := false } with mode := .run, wait := .none, pc := k.rtPc + 4 }
    else { k1 with mode := .wait }
  | _ => { k1 with mode := .wait }

/-- R299, R428: a core runs again after a debug stop, or forgets an order to stop. -/
def Core.debug (k : Core) (resume : Bool) : Core :=
  if resume then
    match k.mode, k.service with
    | .runtime, .debug => k.debugResume
    | _, _ => { k with debugStop := false }
  else { k with debugStop := decide (k.mode = .run ∨ k.mode = .wait) || k.debugStop }

/-- R299, R428: CORECTL DEBUG at one core; the die agent's report of a stop is over when the core resumes. -/
def State.debugCore (s : State) (c : CoreRef) (resume : Bool) : State :=
  (s.onCore c fun k => k.debug resume).onDie ((s.dieOf c).getD 0) fun d =>
    if resume then { d with stopReports := eraseOne c d.stopReports } else d

/-- R299: a partition broadcast of START reaches the placed cores. -/
def placedOnly (h : CtlHdr) (k : Core) : Bool := h.bcast != 3 || k.placed

/-- CORECTL_START (R299). -/
def execCorectlStart (h : CtlHdr) (entry : BitVec 19) (s : State) : Host.Outcome State Fault Refusal :=
  coreRequest h s fun s c => s.onCore c fun k => if placedOnly h k then k.start entry else k

/-- CORECTL_STOP (R299). -/
def execCorectlStop (h : CtlHdr) (s : State) : Host.Outcome State Fault Refusal :=
  coreRequest h s fun s c => s.onCore c Core.stop

/-- CORECTL_RELEASE (R299). -/
def execCorectlRelease (h : CtlHdr) (s : State) : Host.Outcome State Fault Refusal :=
  coreRequest h s fun s c => s.onCore c Core.release

/-- CORECTL_CLEAR (R41, R299). -/
def execCorectlClear (h : CtlHdr) (fpmode : BitVec 2) (s : State) : Host.Outcome State Fault Refusal :=
  coreRequest h s fun s c => s.onCore c fun k => k.clear fpmode

/-- CORECTL_BIND (R299). -/
def execCorectlBind (h : CtlHdr) (chan : BitVec 4) (group : BitVec 6) (s : State) : Host.Outcome State Fault Refusal :=
  coreRequest h s fun s c => s.onCore c fun k => k.bind chan group

/-- CORECTL_DEBUG (R299): only within an authorised session. -/
def execCorectlDebug (h : CtlHdr) (resume : Bool) (s : State) : Host.Outcome State Fault Refusal :=
  let allowed := s.sec.sessions.any fun e => e.authorised && e.rights.getLsbD rightDebug
  coreRequest h s fun s c => if allowed then s.debugCore c resume else s

/-! ### FENCE, RECORD, REPLY, ACK, CONTROL_TIMEOUT -/

/-- FENCE (R173): every earlier request has taken effect. -/
def execFence (h : CtlHdr) (s : State) : Host.Outcome State Fault Refusal := request h false s id fun _ => none

/-- RECORD (R173, R388): a record travels towards the fault collector. -/
def execRecord (h : CtlHdr) (r : Report) (s : State) : Host.Outcome State Fault Refusal :=
  request h false s (fun s => if s.reports.contains r then s else { s with reports := s.reports ++ [r] }) fun _ => none

/-- REPLY (R174): the reply sinks into the slot that its TAG names, and the slot is free. -/
def execReply (h : CtlHdr) (status : BitVec 8) (data : Option Reg64) (s : State) : Host.Outcome State Fault Refusal :=
  .next { s with
    ctlOut := eraseOne h s.ctlOut
    ctlReplies := eraseOne (h, status, data) s.ctlReplies }

/-- R158: acknowledged bytes count on the instruction's counter, and the slot is free with the last of them. [DEDUCED, log 40] -/
def State.acknowledge (s : State) (c : CoreRef) (k : Core) (a : AckMsg) : State :=
  let t := k.slot a.slot
  if t.used = false then s
  else
    let (s1, k1) := s.countIf c k t.ce t.ctr a.bytes.toNat
    s1.setCore c (k1.setSlot a.slot
      (if t.left ≤ a.bytes.toNat then {} else { t with left := t.left - a.bytes.toNat }))

/-- ACK (R158, R168); one for another panel leaves by its port. [DEDUCED, log 18] -/
def execAck (a : AckMsg) (s : State) : Host.Outcome State Fault Refusal :=
  let c : CoreRef := ⟨a.x, a.y⟩
  let s0 := { s with acks := eraseOne a s.acks }
  if a.panel.isSome ∧ a.panel ≠ some s.panel.panelId then .next s0
  else
    coreEvent c s0 fun s k =>
      if a.status ≠ 0 then s.statusAnswer c a.status a.job else s.acknowledge c k a

/-- CONTROL_TIMEOUT (R174): no reply within 1 ms: a control timeout against the target region. -/
def execControlTimeout (h : CtlHdr) (s : State) : Host.Outcome State Fault Refusal :=
  if s.ctlOut.contains h = false then .next s
  else
    let s1 := { s with
      ctlOut := eraseOne h s.ctlOut
      ctlReplies := s.ctlReplies.filter fun e => e.1 ≠ h }
    match s.ctlRegion h.destRow.toNat h.destCol.toNat with
    | some (d, r) => .next (s1.report { s.dieReport d r 0x0208 with detail := bytesOf 8 (s.region d r).reg.toNat })
    | none => .next s1

end Sys2Proof.Machine
end

