-- ==== Sys2Proof/Machine/Transcend.lean ====
section
/-!
DEFINITION. The transcendental instructions (R106, R125, R126). The exact value of a function is computed in fixed point
to some 250 bits; the result is a code within the error bound of R125, and which code is a free value that never breaks
the order that R126 states. A positive exact value is `m * 2^e`.
-/

namespace Sys2Proof.Machine

/-- The integer square root, bit by bit. -/
def isqrt (n : Nat) : Nat → Nat → Nat
  | 0, r => r
  | k + 1, r => let t := r + 2 ^ k; isqrt n k (if t * t ≤ n then t else r)

/-! ### Exact values in fixed point: a value v stands as v * 2^256 -/

def fixOne : Nat := 2 ^ 256

/-- ln 2. -/
def fixLn2 : Nat := 0xb17217f7d1cf79abc9e3b39803f2f6af40f343267298b62d8a0d175b8baafa2b

/-- The series of e^y: the term of index k - 1 and the sum so far. -/
def expSeries (y : Nat) : Nat → Nat → Nat → Nat → Nat
  | 0, _, _, acc => acc
  | n + 1, k, term, acc =>
    let t := term * y / fixOne / k
    expSeries y n (k + 1) t (acc + t)

/-- e^y for y below 1. -/
def fixExp (y : Nat) : Nat := expSeries y 70 1 fixOne fixOne

/-- The series of z + z^3/3 + z^5/5 + ...: `p` is the power z^k. -/
def atanhSeries (z2 : Nat) : Nat → Nat → Nat → Nat → Nat
  | 0, _, _, acc => acc
  | n + 1, k, p, acc => atanhSeries z2 n (k + 2) (p * z2 / fixOne) (acc + p / k)

/-- |ln (num / den)| for a quotient of 3/4 to 3/2. -/
def fixLn (num den : Nat) : Nat :=
  let d := if den ≤ num then num - den else den - num
  let z := d * fixOne / (num + den)
  2 * atanhSeries (z * z / fixOne) 64 1 z 0

/-- e^a for a value `a` in fixed point, as (r, n) for r * 2^n with r below 2. -/
def fixExpBig (a : Nat) : Nat × Nat := (fixExp (a % fixLn2), a / fixLn2)

/-- A finite magnitude in fixed point. -/
def fixOf (m : Nat) (e : Int) : Nat := m * 2 ^ (e + 256).toNat

/-! ### Error bounds (R125) -/

/-- The codes of the binary32 magnitudes next to `m 2^e`: the largest not above it, and the smallest not below it. -/
def nextCodes (m : Nat) (e : Int) : Nat × Nat :=
  if m = 0 then (0, 0)
  else
    let q := max (lastPlace m e 24) (-149)
    if q ≤ e then
      let c := fmtF32.magnitude (m * 2 ^ (e - q).toNat) q
      (c, c)
    else
      let d := 2 ^ (q - e).toNat
      let c := fmtF32.magnitude (m / d) q
      (c, if m % d = 0 then c else c + 1)

/-- The codes within `d * 2^u` of `m 2^e`, lowest and highest. -/
def codesWithin (m : Nat) (e : Int) (d : Nat) (u : Int) : Nat × Nat :=
  let q := min e u
  let m' := m * 2 ^ (e - q).toNat
  let d' := d * 2 ^ (u - q).toNat
  ((nextCodes (m' - d') q).2, (nextCodes (m' + d') q).1)

/-- The exponent of one ulp at `m 2^e`; below 2^-126 the bound is 2^-149. -/
def ulpAt (m : Nat) (e : Int) : Int := max (lastPlace m e 24) (-149)

/-- R125, R126: the greatest of the codes up to `lo + n` whose threshold the input has reached, at least `lo`. A threshold
is a free value, so the result never decreases as `key` increases when `lo` and `lo + n` do not. [DESIGN CHOICE, log 13] -/
def pickCode (op : Nat) (subn : Bool) (key lo : Nat) : Nat → Nat
  | 0 => lo
  | n + 1 => if Config.transcend op subn (lo + n + 1) ≤ key then lo + n + 1 else pickCode op subn key lo n

/-- A code between two limits, which are themselves kept between the codes `least` and `most`. -/
def freeCode (op : Nat) (subn : Bool) (key least most : Nat) (r : Nat × Nat) : Nat :=
  let lo := clamp least most r.1
  pickCode op subn key lo (clamp least most r.2 - lo)

/-- The place of a nonzero float in the order of its values. -/
def orderKey (w : Word) : Nat :=
  let mag := w.toNat % 2 ^ 31
  if w.getLsbD 31 then 2 ^ 31 - mag else 2 ^ 31 + mag

/-- The power 2^n as magnitude bits, for n of -149 to 127. -/
def pow2Mag (n : Int) : Nat :=
  if n < -126 then 2 ^ (n + 149).toNat else (n + 127).toNat * 2 ^ 23

/-- The magnitude bits of a natural number below 2^24. -/
def natMag (n : Nat) : Nat := if n = 0 then 0 else (fmtF32.roundMag n 0).1

/-- The floor of `m 2^e`, signed. -/
def flFloor (neg : Bool) (m : Nat) (e : Int) : Int :=
  if 0 ≤ e then (if neg then -1 else 1) * ((m * 2 ^ e.toNat : Nat) : Int)
  else
    let d := 2 ^ (-e).toNat
    if neg then -(((m + d - 1) / d : Nat) : Int) else ((m / d : Nat) : Int)

/-- Whether `m 2^e` is an integer. -/
def flIsInt (m : Nat) (e : Int) : Bool := decide (0 ≤ e) || m % 2 ^ (-e).toNat == 0

/-! ### Results -/

/-- R92: an overflow of a transcendental. -/
def transOverflow (sat neg : Bool) : Word × FpFlags :=
  (BitVec.ofNat 32 (fmtF32.overflowCode sat neg), flOverflow)

/-- R102, R106: a result of the given magnitude code; whether its exact value is tiny, and whether it is exact. INEXACT is
never set. -/
def transResult (subn neg tiny exact : Bool) (code : Nat) : Word × FpFlags :=
  if tiny && subn then (BitVec.ofNat 32 (fmtF32.code neg 0), flFlushed ||| flUnderflow)
  else (BitVec.ofNat 32 (fmtF32.code neg code), flIf (tiny && !exact) flUnderflow)

/-- VEXP2 of a finite value that is not zero. -/
def vexp2Fin (subn sat neg : Bool) (m : Nat) (e : Int) (w : Word) : Word × FpFlags :=
  let n := flFloor neg m e
  if 128 ≤ n then transOverflow sat false
  else if flIsInt m e ∧ -149 ≤ n then transResult subn false (decide (n < -126)) true (pow2Mag n)
  else if n < -150 then transResult subn false true false (pickCode 0 subn (orderKey w) 0 1)
  else
    let x : Int := if neg then -(fixOf m e : Int) else fixOf m e
    let y := fixExp ((x - n * fixOne).toNat * fixLn2 / fixOne)
    let q := n - 256
    let most := if n = 127 then fmtF32.maxCode else pow2Mag (n + 1)
    transResult subn false (fmtF32.tiny y q) false
      (freeCode 0 subn (orderKey w) (if n < -149 then 0 else pow2Mag n) most (codesWithin y q 1 (ulpAt y q)))

/-- VLOG2 of a positive finite value. -/
def vlog2Fin (m : Nat) (e : Int) (w : Word) (subn : Bool) : Word :=
  let l := Nat.log2 m
  let n : Int := e + l
  if m = 2 ^ l then BitVec.ofNat 32 (fmtF32.code (decide (n < 0)) (natMag n.natAbs))
  else
    let upper : Bool := decide (3 * 2 ^ l ≤ 2 * m)
    let n' := if upper then n + 1 else n
    let frac := fixLn m (2 ^ (if upper then l + 1 else l)) * fixOne / fixLn2
    let y := (n' * fixOne + (if upper then -(frac : Int) else frac)).natAbs
    -- the range [0.75, 1.5], with an absolute bound of 2^-24
    let near : Bool := (n == -1 && upper) || (n == 0 && (!upper || 3 * 2 ^ l == 2 * m))
    let r := if near then codesWithin y (-256) 1 (-24) else codesWithin y (-256) 1 (ulpAt y (-256))
    if 0 ≤ n then
      BitVec.ofNat 32 (freeCode 1 subn (orderKey w) (natMag n.toNat) (natMag (n + 1).toNat) r)
    else
      BitVec.ofNat 32 (fmtF32.code true
        (freeCode 6 subn (2 ^ 32 - orderKey w) (natMag (-(n + 1)).toNat) (natMag (-n).toNat) r))

/-- VRCP of a finite value: 1 / (m 2^e). -/
def recip (subn sat neg : Bool) (m : Nat) (e : Int) (w : Word) : Word × FpFlags :=
  let l := Nat.log2 m
  let exact : Bool := m == 2 ^ l
  -- 2^n is the largest power not above the quotient
  let n : Int := -e - (if exact then (l : Int) else l + 1)
  if 128 ≤ n then transOverflow sat neg
  else
    let y := 2 ^ 300 / m
    let q := -300 - e
    if exact then transResult subn neg (decide (n < -126)) true (pow2Mag n)
    else
      transResult subn neg (fmtF32.tiny y q) false
        (freeCode 2 subn (2 ^ 31 - w.toNat % 2 ^ 31) (pow2Mag n) (if n = 127 then fmtF32.maxCode else pow2Mag (n + 1))
          (codesWithin y q 1 (ulpAt y q)))

/-- VRSQ of a positive finite value: 1 / sqrt (m 2^e). -/
def recipSqrt (subn : Bool) (m : Nat) (e : Int) (w : Word) : Word × FpFlags :=
  let odd := e.emod 2 == 1
  let m' := if odd then 2 * m else m
  let e' := if odd then e - 1 else e
  -- 1/sqrt m' lies in (2^-t, 2^-(t-1)), or is 2^-t when m' = 4^t
  let l := Nat.log2 m'
  let exact : Bool := m' == 2 ^ l && l % 2 == 0
  let t := if exact then l / 2 else l / 2 + 1
  let n : Int := -(e' / 2) - t
  if exact then transResult subn false false true (pow2Mag n)
  else
    let y := isqrt (2 ^ 400 / m') 201 0
    let q := -(e' / 2) - 200
    transResult subn false false false
      (freeCode 3 subn (2 ^ 31 - w.toNat % 2 ^ 31) (pow2Mag n) (pow2Mag (n + 1)) (codesWithin y q 1 (ulpAt y q)))

/-- VTANH of a magnitude of 2^-12 up to 9, as a magnitude code. -/
def tanhMag (subn : Bool) (m : Nat) (e : Int) (mag : Nat) : Nat :=
  let (r, n) := fixExpBig (2 * fixOf m e)
  let big := r * 2 ^ n
  let y := (big - fixOne) * 2 ^ 300 / (big + fixOne)
  freeCode 4 subn mag 0x397FFFFF 0x3F800000 (codesWithin y (-300) 2 (ulpAt y (-300)))

/-- VSIG of a finite value that is not zero, below 18. -/
def vsigFin (subn neg : Bool) (m : Nat) (e : Int) (w : Word) : Word × FpFlags :=
  if neg = true ∧ flFloor false m e ≥ 110 then transResult subn false true false (pickCode 5 subn (orderKey w) 0 1)
  else
    let (r, n) := fixExpBig (fixOf m e)
    let big := r * 2 ^ n
    let y := (if neg then fixOne else big) * 2 ^ 500 / (big + fixOne)
    let q : Int := -500
    let k := if fmtF32.tiny y q then 1 else 2
    transResult subn false (fmtF32.tiny y q) false
      (freeCode 5 subn (orderKey w) (if neg then 0 else 0x3F000000) (if neg then 0x3F000000 else 0x3F800000)
        (codesWithin y q k (ulpAt y q)))

/-- R106: 0 VEXP2, 1 VLOG2, 2 VRCP, 3 VRSQ, 4 VTANH, 5 VSIG. [DESIGN CHOICE, log 13] -/
def vtrans (subn sat : Bool) (op : Nat) (w : Word) : Word × FpFlags :=
  let nan : Word := BitVec.ofNat 32 fmtF32.nan
  let one : Word := 0x3F800000
  let (x, f) := operand32 subn w
  let (r, g) : Word × FpFlags :=
    match op, x with
    | _, .nan => (nan, 0)
    | 0, .inf neg => (if neg then 0 else BitVec.ofNat 32 (fmtF32.infCode false), 0)
    | 0, .zero _ => (one, 0)
    | 0, .fin neg m e => vexp2Fin subn sat neg m e w
    | 1, .inf neg => if neg then (nan, flInvalid) else (BitVec.ofNat 32 (fmtF32.infCode false), 0)
    | 1, .zero _ => (BitVec.ofNat 32 (fmtF32.infCode true), 0)
    | 1, .fin neg m e => if neg then (nan, flInvalid) else (vlog2Fin m e w subn, 0)
    | 2, .inf neg => (BitVec.ofNat 32 (fmtF32.code neg 0), 0)
    | 2, .zero neg => (BitVec.ofNat 32 (fmtF32.infCode neg), 0)
    | 2, .fin neg m e => recip subn sat neg m e w
    | 3, .inf neg => if neg then (nan, flInvalid) else (0, 0)
    | 3, .zero neg => (BitVec.ofNat 32 (fmtF32.infCode neg), 0)
    | 3, .fin neg m e => if neg then (nan, flInvalid) else recipSqrt subn m e w
    | 4, .inf neg => (if neg then 0xBF800000 else one, 0)
    | 4, .zero neg => (BitVec.ofNat 32 (fmtF32.code neg 0), 0)
    | 4, .fin neg m e =>
      let mag := w.toNat % 2 ^ 31
      if mag < 0x39800000 then transResult subn neg (decide (mag < 0x00800000)) true mag
      else if 0x41100000 ≤ mag then (BitVec.ofNat 32 (fmtF32.code neg 0x3F800000), 0)
      else (BitVec.ofNat 32 (fmtF32.code neg (tanhMag subn m e mag)), 0)
    | _, .inf neg => (if neg then 0 else one, 0)
    | _, .zero _ => (0x3F000000, 0)
    | _, .fin neg m e =>
      if neg = false ∧ 0x41900000 ≤ w.toNat then (one, 0) else vsigFin subn neg m e w
  (r, f ||| g)

end Sys2Proof.Machine
end

