-- ==== Sys2Proof/Machine/Vector.lean ====
section
/-!
DEFINITION. The vector instructions VOP, VLD and VST (R46, R52, R101-R106, R125).
-/

namespace Sys2Proof.Machine

/-- The registers that a VOP's fields must name: v a vector register, g a general one, z zero (R46, R52). -/
inductive FieldKind where
  | v | g | z
deriving DecidableEq, Repr

/-- R46: the field's value suits its kind. -/
def fieldOk (kind : FieldKind) (r : BitVec 5) : Bool :=
  match kind with
  | .v => decide (r.toNat < 16)
  | .g => true
  | .z => decide (r = 0)

/-- R52: the operations that read no operand through rs2. -/
def vopUnary (func : Nat) : Bool :=
  func == 0x09 || func == 0x0A || (0x24 ≤ func && func ≤ 0x26) || (0x30 ≤ func && func ≤ 0x35)

/-- R52: the kinds of rd, rs1 and rs2; none where the code is not listed. -/
def vopFields (func : Nat) : Option (FieldKind × FieldKind × FieldKind) :=
  if func = 0x21 then some (.v, .g, .z)
  else if func = 0x22 then some (.g, .v, .g)
  else if func = 0x23 then some (.v, .g, .g)
  else if vopUnary func then some (.v, .v, .z)
  else if func ≤ 0x08 ∨ (0x10 ≤ func ∧ func ≤ 0x1A) ∨ func = 0x20 then some (.v, .v, .v)
  else none

/-- R52: the integer lane operations 0x010 to 0x01A. -/
def vintOp (func : Nat) (a b : Word) : Word :=
  match func with
  | 0x10 => a + b
  | 0x11 => a - b
  | 0x12 => a * b
  | 0x13 => a &&& b
  | 0x14 => a ||| b
  | 0x15 => a ^^^ b
  | 0x16 => shiftOp 0 a (b.toNat % 32)
  | 0x17 => shiftOp 1 a (b.toNat % 32)
  | 0x18 => shiftOp 2 a (b.toNat % 32)
  | 0x19 => if a.toInt < b.toInt then a else b
  | _ => if a.toInt < b.toInt then b else a

/-- R52, R101-R104, R106: one lane of a lane-wise operation: vd, vs1, vs2. -/
def laneOp (subn sat : Bool) (func : Nat) (d a b : Word) : Word × FpFlags :=
  match func with
  | 0x00 => vfadd subn sat a b
  | 0x01 => vfsub subn sat a b
  | 0x02 => vfmul subn sat a b
  | 0x03 => vfma subn sat d a b
  | 0x04 => vfminmax subn sat false a b
  | 0x05 => vfminmax subn sat true a b
  | 0x06 => vfcmp subn 0 a b
  | 0x07 => vfcmp subn 1 a b
  | 0x08 => vfcmp subn 2 a b
  | 0x09 => vfsign false a
  | 0x0A => vfsign true a
  | 0x20 => (if d = 0 then b else a, 0)
  | 0x24 => vcvtfi subn a
  | 0x25 => vcvtif subn sat a
  | 0x30 => vtrans subn sat 0 a
  | 0x31 => vtrans subn sat 1 a
  | 0x32 => vtrans subn sat 2 a
  | 0x33 => vtrans subn sat 3 a
  | 0x34 => vtrans subn sat 4 a
  | 0x35 => vtrans subn sat 5 a
  | n => (vintOp n a b, 0)

/-- The results of all lanes and the union of their flags. -/
def laneOps (subn sat : Bool) (func : Nat) : List Word → List Word → List Word → List Word × FpFlags
  | d :: ds, a :: as, b :: bs =>
    let (w, f) := laneOp subn sat func d a b
    let (ws, fs) := laneOps subn sat func ds as bs
    (w :: ws, f ||| fs)
  | _, _, _ => ([], 0)

/-- R52: what a VOP with legal fields does to the core. -/
def vopCore (k : Core) (f : FmtA) : Core :=
  let d := f.rd.toNat
  let a := f.rs1.toNat
  let b := f.rs2.toNat
  match f.func.toNat with
  | 0x21 => k.setLanes d 0 (List.replicate 32 (k.getG f.rs1))
  | 0x22 => k.setG f.rd (k.getV a ((k.getG f.rs2).toNat % 32))
  | 0x23 => k.setV d ((k.getG f.rs2).toNat % 32) (k.getG f.rs1)
  | 0x26 =>
    let (w, fl) := vrsum k.subn k.sat (k.lanes a)
    (k.setLanes d 0 (w :: List.replicate 31 0)).raise fl
  | n =>
    let (ws, fl) := laneOps k.subn k.sat n (k.lanes d) (k.lanes a) (k.lanes b)
    (k.setLanes d 0 ws).raise fl

/-- VOP (R52). -/
def execVop (c : CoreRef) (f : FmtA) (s : State) : Host.Outcome State Fault Refusal :=
  issue c s fun s k =>
    match vopFields f.func.toNat with
    | none => .trap causeIllegal (wordA 0x20 f)
    | some (x, y, w) =>
      if fieldOk x f.rd && fieldOk y f.rs1 && fieldOk w f.rs2 then .done s (vopCore k f) (nextPc k)
      else .trap causeIllegal (wordA 0x20 f)

/-- The words of little-endian bytes. -/
def wordsOf (bs : List Byte) : List Word := (pieces 4 bs.length bs).map fun b => BitVec.ofNat 32 (natOf b)

/-- VLD (R52): 128 bytes into v[rd]; rd bit 4 must be zero (R46). -/
def execVld (c : CoreRef) (f : FmtI) (s : State) : Host.Outcome State Fault Refusal :=
  issue c s fun s k =>
    if 16 ≤ f.rd.toNat then .trap causeIllegal (wordI 0x21 f)
    else loadOp c f portVector 128
      (fun k v => k.setLanes f.rd.toNat 0 (wordsOf (bytesOf 128 v))) s k

/-- VST (R52, R129): v[rd] as 128 bytes through the vector port, both rows together; rd bit 4 must be zero (R46). It
stalls while an earlier store of the core is not in the scratchpad (R51) or a request of a higher rank waits at one of its
banks (R130). -/
def execVst (c : CoreRef) (f : FmtI) (s : State) : Host.Outcome State Fault Refusal :=
  issue c s fun s k =>
    if 16 ≤ f.rd.toNat then .trap causeIllegal (wordI 0x22 f)
    else
      match eaTrap k (loadEa k f) 128 with
      | some cause => .trap cause (loadEa k f)
      | none =>
        if k.stores ≠ [] ∨ k.banks.any (fun e => e.2.deferred.any fun w => w.port == 0) ∨
            k.opens portVector (loadEa k f).toNat 128 = false then .stall
        else
          let o := spWrite s c k portVector (loadEa k f).toNat
            ((k.lanes f.rd.toNat).flatMap fun w => bytesOf 4 w.toNat)
          .done o.s o.k (nextPc k)

end Sys2Proof.Machine
end

