-- ==== Sys2Proof/Machine/Flumes.lean ====
section
/-!
DEFINITION. Flumes at their ends (R187, R190) and collectors: contributions (R196-R198), combines (R197, R199), the
delivered stream (R107, R198) and link collectors (R256).
-/

namespace Sys2Proof.Machine

/-! ### Collector entries (R183) -/

def flumeOp (e : Nat) : Nat := bits e 97 2
def flumeCfmt (e : Nat) : Nat := bits e 99 2
def flumeSubn (e : Nat) : Bool := bit e 101
def flumeCw (e : Nat) : Nat := bits e 102 9
def flumeCh (e : Nat) : Nat := bits e 111 9

/-- R196: a coordinate `n` steps on; a flag for the decreasing direction. -/
def stepsOn (v n : Nat) (down : Bool) : Nat := if down then v - n else v + n

/-- R196: contributor (r, i). -/
def contributor (e r i : Nat) : CoreRef :=
  coreXY (stepsOn (bits e 18 9) i (bit e 120)) (stepsOn (bits e 27 9) r (bit e 121))

/-- R196: the end corner. -/
def endCorner (e : Nat) : CoreRef := contributor e (flumeCh e - 1) (flumeCw e - 1)

/-- R196: row and place in the row of a contributor. -/
def contributorAt (e : Nat) (c : CoreRef) : Nat × Nat :=
  (apart c.y.toNat (bits e 27 9), apart c.x.toNat (bits e 18 9))

/-- R197: one element ⊕ another, in CFMT, with the flags raised (R107). -/
def combineOp (e : Nat) (a b : Word) : Word × FpFlags :=
  if flumeCfmt e = 2 then
    match flumeOp e with
    | 0 => (a + b, 0)
    | 1 => (if a.toInt < b.toInt then b else a, 0)
    | _ => (if a.toInt < b.toInt then a else b, 0)
  else
    match flumeOp e with
    | 0 => vfadd (flumeSubn e) false a b
    | 1 => vfminmax (flumeSubn e) false true a b
    | _ => vfminmax (flumeSubn e) false false a b

/-- A flit of 16 words and its flags. -/
def wordsFlit (ws : List Word) (flags : FpFlags) (c : CoreRef) : FlumeFlit :=
  { data := ws.flatMap fun w => bytesOf 4 w.toNat, flags, srcX := c.x, srcY := c.y }

/-- R197, R199: two flits combined element by element; the flags of both travel on. The combined flit names the end corner,
and FLOW 0, as its source. [DESIGN CHOICE, log 71] -/
def combineFlits (e : Nat) (a b : FlumeFlit) : FlumeFlit :=
  let ws := List.zipWith (combineOp e) (wordsOf a.data) (wordsOf b.data)
  wordsFlit (ws.map (·.1)) (flUnion (ws.map (·.2)) ||| a.flags ||| b.flags) (endCorner e)

/-- R198: a contribution flit as partial-stream flits: BF16 is widened exactly to two flits of binary32. -/
def widen (e : Nat) (f : FlumeFlit) : List FlumeFlit :=
  if flumeCfmt e = 1 then
    let ws := (pieces 2 f.data.length f.data).map fun b => BitVec.ofNat 32 (natOf b * 2 ^ 16)
    [wordsFlit (ws.take 16) f.flags (endCorner e), wordsFlit (ws.drop 16) f.flags (endCorner e)]
  else [{ f with srcX := (endCorner e).x, srcY := (endCorner e).y }]

/-- REDUCE_CONTRIB (R196, R197): the contribution's first flit enters the 4-flit buffer of the contributor's router. -/
def execReduceContrib (c : CoreRef) (ep : BitVec 3) (s : State) : Host.Outcome State Fault Refusal :=
  coreEvent c s fun s k =>
    let e := k.endpoint ep
    match tget [] k.flumeOut ep.toNat with
    | f :: rest =>
      if e.valid = false ∨ e.role ≠ 3 ∨ 4 ≤ (tget [] k.contrib ep.toNat).length then s
      else
        (s.setCore c { k with
          flumeOut := tset [] k.flumeOut ep.toNat rest
          contrib := tpush k.contrib ep.toNat [f] }).freeSent c
    | [] => s

/-! ### Combining -/

/-- What a combining router takes and sends. -/
structure Combined where
  k : Core
  out : List FlumeFlit
deriving DecidableEq, Repr

/-- R197, R199: the row leg at contributor (r, i): its own contribution joins the partial stream; none while either is
missing. -/
def rowCombine (e ep i : Nat) (k : Core) : Option Combined :=
  match tget [] k.contrib ep with
  | [] => none
  | f :: rest =>
    let own := widen e f
    let k1 := { k with contrib := tset [] k.contrib ep rest }
    if i = 0 then some ⟨k1, own⟩
    else
      let part := (tget [] k.rowIn ep).take own.length
      if part.length < own.length then none
      else some ⟨{ k1 with rowIn := tset [] k.rowIn ep ((tget [] k.rowIn ep).drop own.length) },
        List.zipWith (combineFlits e) part own⟩

/-- R197: the column leg in the end column: col := col ⊕ p(r). -/
def colCombine (e ep r : Nat) (x : Combined) : Option Combined :=
  if r = 0 then some x
  else
    let part := (tget [] x.k.colIn ep).take x.out.length
    if part.length < x.out.length then none
    else some ⟨{ x.k with colIn := tset [] x.k.colIn ep ((tget [] x.k.colIn ep).drop x.out.length) },
      List.zipWith (combineFlits e) part x.out⟩

/-- R196: put combined flits on their way from a contributor's router: along its leg, or, from the end corner, on the path
to the destination. The manual gives no room for them there; the model takes that of the contribution buffer. [DESIGN CHOICE, log 71] -/
def State.toPath (s : State) (c : CoreRef) (part : BitVec 4) (flume : BitVec 12) (fs : List FlumeFlit) : Option State :=
  let r := s.router c
  match r.flumeAt part flume 4 with
  | none => none
  | some h =>
    if h.stopped ∨ 4 < h.buf.length + fs.length then none
    else
      some (s.setRouter c { r with flumes := r.flumes.map fun g =>
        if g.part = part ∧ g.flume = flume ∧ g.inp = 4 then { g with buf := g.buf ++ fs } else g })

/-- The report of a collector whose combine failed its residue check. -/
def State.combineReport (s : State) (c : CoreRef) : Report := s.coreReport c 0x0209

/-- R199: a mismatch stops the flume: none of its flits moves or is combined until the report ends the job (R192). -/
def State.stopFlume (s : State) (c : CoreRef) (part : BitVec 4) (flume : BitVec 12) : State :=
  State.report { s with routers := tmap {} (fun _ r => { r with flumes := r.flumes.map fun h =>
      if h.part = part ∧ h.flume = flume then { h with stopped := true } else h }) s.routers } (s.combineReport c)

/-- R255: the link of a collector to its chain: its ports, and how its stream travels. -/
structure CollectorLink where
  up : Option (BitVec 6)
  down : Option (BitVec 6)
  code : Option LinkCode
deriving DecidableEq, Repr

/-- R255, R256: the link of a collector of a partition, if its link table has one. -/
def State.collectorLink (s : State) (n : Nat) (flume : BitVec 12) : Option CollectorLink :=
  (s.part n).img.links.findSome? fun sp =>
    match sp.kind with
    | .collector f up down => if f = flume then some ⟨up, down, s.linkCode n sp⟩ else none
    | _ => none

/-- R256: from the end corner of a linked collector its own result waits for the stream of the chain, in the room of `toPath`;
from every other place it goes on its way. -/
def State.toNext (s : State) (c : CoreRef) (part : BitVec 4) (flume : BitVec 12) (e : Nat) (fs : List FlumeFlit) :
    Option State :=
  if c = endCorner e ∧ (s.collectorLink part.toNat flume).isSome then
    let key := 4096 * part.toNat + flume.toNat
    let col := tget [] s.linkCol key
    if 4 < col.length + fs.length then none else some { s with linkCol := tset [] s.linkCol key (col ++ fs) }
  else s.toPath c part flume fs

/-- One combine at a contributor's router. -/
def State.combine (s : State) (c : CoreRef) (k : Core) (ep : BitVec 3) (e : Nat) (mismatch : Bool) : State :=
  let flume := (k.endpoint ep).flume
  let (r, i) := contributorAt e c
  let last : Bool := i + 1 == flumeCw e
  match (rowCombine e ep.toNat i k).bind (fun x => if last then colCombine e ep.toNat r x else some x) with
  | none => s
  | some x =>
    if mismatch then s.stopFlume c k.partNo flume
    else ((s.setCore c x.k).toNext c k.partNo flume e x.out).getD s

/-- COLLECTOR_COMBINE (R199): the flits of one stream position are combined once both are present and the next place has
room. -/
def execCollectorCombine (c : CoreRef) (ep : BitVec 3) (mismatch : Bool) (s : State) :
    Host.Outcome State Fault Refusal :=
  coreEvent c s fun s k =>
    let p := k.endpoint ep
    match s.flumeEntry k.partNo p.flume with
    | some e =>
      if p.valid ∧ p.role = 3 ∧ flumeKind e = 2 then s.combine c k ep e mismatch else s
    | none => s

/-- R256, R258: flits of a collector's stream as they leave for the next panel: binary32, or compressed from it. -/
def State.streamSlot (s : State) (part : BitVec 4) (flume : BitVec 12) (code : Option LinkCode) (fs : List FlumeFlit) :
    LinkSlot :=
  let raw := fs.flatMap fun f => f.data
  let flags := flUnion (fs.map (·.flags))
  let out : List Byte × FpFlags := match code with
    | some c => encodeStream { c with wide := true } raw
    | none => (raw, 0)
  ⟨.flume, 0, .stream { flume, tag := s.linkTag part.toNat 0 code.isSome, code, data := out.1, flags := flags ||| out.2 }⟩

/-- R256: one step of a collector's chain: out := in ⊕ col, or col on the first panel, to the downstream port, or on the last
panel to the destination. Compressed, a step takes the 32 elements of a block. -/
def State.linkCombine (s : State) (c : CoreRef) (part : BitVec 4) (flume : BitVec 12) (e : Nat) (l : CollectorLink)
    (mismatch : Bool) : State :=
  let key := 4096 * part.toNat + flume.toNat
  let n := if l.code.isSome then 2 else 1
  let col := (tget [] s.linkCol key).take n
  let up := (tget [] s.linkIn key).take n
  let stopped := (((s.router c).flumeAt part flume 4).map fun h => h.stopped).getD true
  if stopped ∨ col.length < n ∨ (l.up.isSome ∧ up.length < n) then s
  else if mismatch then s.stopFlume c part flume
  else
    let out := if l.up.isSome then List.zipWith (combineFlits e) up col else col
    let s1 := { s with
      linkCol := tset [] s.linkCol key ((tget [] s.linkCol key).drop n)
      linkIn := if l.up.isSome then tset [] s.linkIn key ((tget [] s.linkIn key).drop n) else s.linkIn }
    match l.down with
    | none => (s1.toPath c part flume out).getD s
    | some m => s1.pushPort m.toNat [s1.streamSlot part flume l.code out]

/-- LINK_COLLECTOR_COMBINE (R256): at the end corner the upstream panel's stream joins this panel's result. -/
def execLinkCollectorCombine (c : CoreRef) (ep : BitVec 3) (mismatch : Bool) (s : State) :
    Host.Outcome State Fault Refusal :=
  coreEvent c s fun s k =>
    let p := k.endpoint ep
    match s.flumeEntry k.partNo p.flume, s.collectorLink k.partNo.toNat p.flume with
    | some e, some l =>
      if p.valid ∧ p.role = 3 ∧ flumeKind e = 2 ∧ c = endCorner e then s.linkCombine c k.partNo p.flume e l mismatch else s
    | _, _ => s

/-! ### Delivery -/

/-- R102, R107: one binary32 element rounded to BF16 on delivery, with the destination's SAT and the collector's SUBN. -/
def toBf16 (subn sat : Bool) (w : Word) : Nat × FpFlags :=
  match operand32 subn w with
  | (.fin neg m e, _) =>
    let (mag, inexact) := fmtBf16.roundMag m e
    if fmtBf16.maxCode < mag then (fmtBf16.overflowCode sat neg, flOverflow ||| flInexact)
    else if fmtBf16.tiny m e then
      if subn then (fmtBf16.code neg 0, flFlushed ||| flUnderflow ||| flInexact)
      else (fmtBf16.code neg mag, flIf inexact (flUnderflow ||| flInexact))
    else (fmtBf16.code neg mag, flIf inexact flInexact)
  | (.nan, f) => (fmtBf16.nan, f)
  | (.inf neg, f) => (fmtBf16.infCode neg, f)
  | (.zero neg, f) => (fmtBf16.code neg 0, f)

/-- R198: the flits of a stream position as they are delivered: 64 bytes, and the flags for the destination. -/
def delivered (e : Nat) (sat : Bool) (fs : List FlumeFlit) : List Byte × FpFlags :=
  let flags := flUnion (fs.map (·.flags))
  if flumeKind e = 2 ∧ flumeCfmt e = 1 then
    let ws := (fs.flatMap fun f => wordsOf f.data).map (toBf16 (flumeSubn e) sat)
    (ws.flatMap fun w => bytesOf 2 w.1, flags ||| flUnion (ws.map (·.2)))
  else (fs.flatMap fun f => f.data, flags)

/-- R167, R190: a flume flit as the packet that its answer answers. -/
def State.flumePacket (s : State) (c : CoreRef) (k : Core) (f : FlumeFlit) (off : Nat) : Packet :=
  { opcode := opWrite, part := k.partNo, part2 := k.partNo, job := ((s.dieOf c).map fun d => (s.die d).job).getD 0
    srcX := f.srcX, srcY := f.srcY, flow := f.flow, notify := f.notifySlot.isSome, ackSlot := f.notifySlot.getD 0
    len := f.pieceEnd.getD 64, dest := BitVec.ofNat 48 (spAddr c off) }

/-- R190: the SEND that a flit belongs to is sunk at this receiver. The flits of a collector's delivered stream, which no
single SEND carries, all count as one. [DESIGN CHOICE, log 71] -/
def Core.sinks (k : Core) (f : FlumeFlit) : Bool := k.flumeSink.contains (f.srcX, f.srcY, f.flow)

/-- R187, R190: sink the SEND of a flit from here on. -/
def Core.sinkSend (k : Core) (f : FlumeFlit) : Core :=
  if k.sinks f then k else { k with flumeSink := (f.srcX, f.srcY, f.flow) :: k.flumeSink }

/-- R166, R190: the checks of a flume flit: a status when one fails, and whether the bank is the reason. -/
def State.flumeCheck (s : State) (c : CoreRef) (k : Core) (off : Nat) : Option (BitVec 8 × Bool) :=
  match s.dieOf c with
  | none => some (0x04, false)
  | some d =>
    if (s.die d).net = .reset ∨ k.testing then some (0x02, false)
    else if (s.die d).assigned = false ∨ (s.die d).net ≠ .running then some (0x03, false)
    else if s.coreRetired d (coreIndex c) then some (0x04, false)
    else if 2 ^ 19 < off + 64 then some (0x01, false)
    else if k.rangeOn off 64 = false then some (0x01, true)
    else none

/-- R187: flume-flit parity: a fault contained in the flume's partition. -/
def State.flumeParity (s : State) (c : CoreRef) : State :=
  let s1 := s.report (s.coreReport c 0x0201)
  match s1.dieOf c with
  | some d => s1.onDie d fun die => { die with parityErr := satInc die.parityErr }
  | none => s1

/-- R190: write a stream position at the receiver's POS, count it, raise its flags (R199), acknowledge a piece that ends
here. -/
def State.flumeLand (s : State) (c : CoreRef) (k : Core) (ep : BitVec 3) (e off : Nat) (fs : List FlumeFlit)
    (f : FlumeFlit) : State :=
  let (bs, flags) := delivered e k.sat fs
  let q := k.endpoint ep
  s.landFor c ((k.raise flags).setEndpoint ep (q.advance 1))
    [{ off := BitVec.ofNat 19 off, bytes := bs, port := 5, ctr := some q.ctr }] []
    (if f.pieceEnd.isSome ∧ f.notifySlot.isSome then some (s.flumePacket c k f off) else none)

/-- FLUME_FLIT_DELIVER (R187, R190): the next flit of a receiving endpoint is checked and written; one that is sunk takes its
stream position with it. -/
def execFlumeFlitDeliver (c : CoreRef) (ep : BitVec 3) (parityBad : Bool) (s : State) :
    Host.Outcome State Fault Refusal :=
  coreEvent c s fun s k =>
    let q := k.endpoint ep
    match s.flumeEntry k.partNo q.flume, tget [] k.flumeIn ep.toNat with
    | some e, f :: _ =>
      let n := if flumeKind e = 2 ∧ flumeCfmt e = 1 then 2 else 1
      let fs := (tget [] k.flumeIn ep.toNat).take n
      let off := 64 * (q.base.toNat + q.pos.toNat)
      let k0 := { k with flumeIn := tset [] k.flumeIn ep.toNat ((tget [] k.flumeIn ep.toNat).drop n) }
      let past := k0.setEndpoint ep (q.advance 1)
      if q.valid = false ∨ fs.length < n then s
      else if k.sinks f then s.setCore c past
      else if parityBad then (s.setCore c (past.sinkSend f)).flumeParity c
      else
        match s.flumeCheck c k off with
        | none => s.flumeLand c k0 ep e off fs f
        | some (st, bank) =>
          let s1 := s.setCore c (past.sinkSend f)
          let s2 := if bank then s1.report (s1.endReport c 0x0107 0x0313 0) else s1
          (s2.discard c).answerPacket c (s2.flumePacket c k f off) st
    | _, _ => s

end Sys2Proof.Machine
end

