-- ==== Sys2Proof/Machine/JobEnd.lean ====
section
/-!
DEFINITION. The end of a job (R298) with what it takes along: the tear-down of flumes and groups (R192, R205), the HBM
steps (R239), the scratchpads (R143), the abort token (R263), and the replies (R284, R287, R302).
-/

namespace Sys2Proof.Machine

/-! ### Messages to other panels -/

/-- R260: put a message on the ring: the origin keeps it until it comes back round. A bypassed port sends none. -/
def State.ringSend (s : State) (kind : RingKind) (m : RingMsg) : State :=
  if s.ring.state = 0 then s
  else { s with ring := { s.ring with own := s.ring.own ++ [(kind, m)] } }

/-- The live ports: up with 8 or 4 lanes. -/
def State.livePorts (s : State) : List Nat :=
  (List.range 64).filter fun n => decide ((s.port n).state = 2 ∨ (s.port n).state = 3)

/-- Put a message in a port's control slot (R246). -/
def State.portSend (s : State) (n : Nat) (kind : RingKind) (m : RingMsg) : State :=
  s.setPort n { s.port n with ctlOut := (s.port n).ctlOut ++ [(kind, m)] }

/-- A message of this panel with the next sequence number (R260). -/
def State.newMsg (s : State) (b : GroupBinding) : RingMsg × State :=
  ({ origin := s.panel.panelId, seq := s.ring.seq, group := b.group, epoch := b.epoch, barrier := 0, gen := 0, sum := 0
     reason := 0, panels := 0, circuit := 0 },
   { s with ring := { s.ring with seq := s.ring.seq + 1 } })

/-- R265: the partition is bound as a shadow. -/
def State.isShadow (s : State) (n : Nat) : Bool := decide ((s.shadow n).role = 2)

/-- R263, R265: the abort token of a bound partition, on every live port and on the ring; a shadow sends none. -/
def State.abortTokenOut (s : State) (n : Nat) (reason : BitVec 16) : State :=
  match (s.part n).bound with
  | none => s
  | some b =>
    if s.isShadow n then s
    else
      let (m, s1) := s.newMsg b
      let t := { m with reason }
      let s2 := { s1 with ring := { s1.ring with seen := (t.origin, t.seq) :: s1.ring.seen.take 255 } }
      (s2.livePorts.foldl (fun (s : State) p => s.portSend p .abort t) s2).ringSend .abort t

/-! ### The parts of an end -/

/-- R298 step 1: every placed core of the partition stops. -/
def State.stopCores (s : State) (n : Nat) : State :=
  (s.partCores n).foldl (fun s c => s.onCore c fun k => if k.placed then k.stop else k) s

/-- The barrier groups of a partition. -/
def State.partGroups (s : State) (n : Nat) : List Nat :=
  (List.range 64).filter fun g => (s.group g).valid && decide ((s.group g).part.toNat = n)

/-- R205: every sense bit, mask and pending arrival of the partition's groups is cleared, and the groups become free. -/
def State.freeGroups (s : State) (n : Nat) : State :=
  let gs := s.partGroups n
  let s1 := gs.foldl (fun (s : State) g => s.setGroup g { s.group g with
    valid := false, dies := 0, pending := 0, fallback := false, arrivedDies := [], sentDies := [], releasing := [], panelsIn := [] }) s
  { s1 with dies := tmap {} (fun _ d => { d with arrivedMembers := tkeep (fun g => !gs.contains g) d.arrivedMembers }) s1.dies }

/-- R238: marked rows of erased regions are under soft repair from then on. -/
def Stack.repair (k : Stack) (hit : HbmRow → Bool) : Stack :=
  let now := k.marked.filter hit
  { k with soft := k.soft ++ now, marked := k.marked.filter fun r => !hit r
           seen := k.seen.filter fun f => f.ue || !now.contains f.row }

/-- R234, R238, R239: the regions of the ranges are erased: their bytes, tags, errors and buffered writes are gone, and
their marked rows are repaired. -/
def State.eraseRanges (s : State) (ranges : List (BitVec 9 × BitVec 9)) : State :=
  let n := s.liveStacks.length
  let hit (a : Nat) : Bool := inRanges ranges n a
  { s with
    mem := memDrop s.mem fun a => decide (a < 2 ^ 41) && hit a
    tags := tkeep (fun u => !hit (256 * u)) s.tags
    hbmErr := tkeep (fun b => !hit (64 * b)) s.hbmErr
    given := tkeep (fun b => !hit (64 * b)) s.given
    hbm := tmap {} (fun _ k =>
      { k with wbuf := k.wbuf.filter fun w => !hit w.addr }.repair fun r =>
        ranges.any fun e => decide (e.1.toNat ≤ r.region) && decide (r.region ≤ e.2.toNat)) s.hbm }

/-- R239 steps 1-3: ranges cleared, descriptors and credits discarded, the key slot zeroised; step 4: the erase. -/
def State.endHbm (s : State) (n : Nat) : State :=
  let ranges := (s.part n).img.ranges
  let s1 := { s with
    dies := tmap {} (fun d die => if (s.partSites n).contains d then { die with ranges := [], gran := 0 } else die) s.dies
    msds := tmap {} (fun _ m => { m with
      keys := tdel m.keys n
      queues := tmap [] (fun _ q => q.filter fun j => decide (j.part.toNat ≠ n)) m.queues }) s.msds }
  s1.eraseRanges ranges

/-- R143: a core's banks are powered down and hold nothing; R158: its acknowledgement slots are free; R228: its copy
credits are back. -/
def Core.powerDown (k : Core) : Core :=
  { k with
    powered := 0, zeroising := 0, zeroWait := 0, banks := [], ecc := [], inject := none, stores := [], ibuf := []
    slots := [], copies := [], flumeSink := [], notice := none }

/-- R143: the scratchpads of the listed cores hold nothing. -/
def State.dropScratchpads (s : State) (mine : CoreRef → Bool) : State :=
  { s with
    mem := memDrop s.mem fun a =>
      decide (2 ^ 47 ≤ a) && mine (coreXY (bits a 37 9) (bits a 28 9))
    cores := tmap {} (fun key k => if mine (coreOfKey key) then k.powerDown else k) s.cores }

/-- R158, R164, R205: what a core loses when its job ends besides its banks. [DEDUCED, log 59] -/
def Core.endJob (k : Core) : Core :=
  { k with
    placed := false, linkEps := []
    ccnt := tmap {} (fun _ t => { t with overrun := false }) k.ccnt
    sync := tmap {} (fun _ h => { h with bound := false }) k.sync }

/-- R298 step 4: STATE to idle; forecasts and the determinism hold end with the job. -/
def State.idleDies (s : State) (n : Nat) : State :=
  (s.partSites n).foldl (fun s d => s.onDie d fun die =>
    { die with net := .idle, forecast := none, detHold := false, det := false }) s

/-- R318, R329: a region whose supply is switched off; a dark region stays dark. -/
def Region.off (r : Region) : Region :=
  { r with
    state := if r.state = .dark then .dark else .off
    vout := 0, cap := 0, transfer := false, nbWaiting := false, boost := false, allPhases := false
    thermalCap := 8, budgetCap := 8 }

/-- Every region of the sites that a test picks is switched off. -/
def State.regionsOff (s : State) (sites : Nat → Bool) : State :=
  { s with
    regions := tmap {} (fun k r => if sites (k / 64) then r.off else r) s.regions
    panel := { s.panel with wave := s.panel.wave.filter fun e => !sites (siteKey e.1) } }

/-- R314, R373: with no placed core left, the partition's regions are off, and their floors end with the job. -/
def State.endRegions (s : State) (n : Nat) : State :=
  let mine (d : Nat) : Bool := (s.partSites n).contains d
  let s1 := s.regionsOff mine
  { s1 with regions := tmap {} (fun k r => if mine (k / 64) then { r with floor := 0 } else r) s1.regions }

/-! ### Replies -/

/-- R287. -/
def JobEnd.detail (e : JobEnd) (job : BitVec 8) : List Byte :=
  bytesOf 2 e.x.toNat ++ bytesOf 2 e.y.toNat ++ bytesOf 2 e.code.toNat ++ [job, 0] ++ bytesOf 4 e.count.toNat ++
    bytesOf 4 e.seq.toNat ++ bytesOf 4 e.hook.toNat

/-- The JOB number of a partition: that of the die at its origin. -/
def State.partJob (s : State) (n : Nat) : BitVec 8 :=
  let p := s.part n
  ((s.dieAt p.row p.col).map fun d => (s.die d).job).getD 0

/-- R298 step 5, R302: JOB_WAIT and CKPT_WAIT reply with the end. -/
def State.wakeJob (s : State) (n : Nat) (e : JobEnd) : State :=
  s.wake (fun w => decide (w.2.part.toNat = n) && (w.1 == .job || w.1 == .checkpoint)) e.status (e.detail (s.partJob n))

/-- The loads that wait end with a status. -/
def State.dropLoads (s : State) (n : Nat) (status : BitVec 16) : State :=
  (s.part n).loadWait.foldl (fun s w => s.answer w.h status)
    (s.onPart n fun p => { p with loadWait := [] })

/-- The load that the end stopped. -/
def State.answerEnd (s : State) (n : Nat) : State :=
  let s1 := s.onPart n fun p => { p with loading := none }
  match (s.part n).loading with
  | some h => s1.answer h stStopped
  | none => s1

/-! ### The end -/

/-- A partition whose job an event can end. -/
def PartState.hasJob : PartState → Bool
  | .loading => true
  | .loaded => true
  | .running => true
  | .checkpoint => true
  | .held => true
  | .ending => true
  | _ => false

/-- R426: the ports keyed for a sealed group take open keys again, by a new exchange (R425). -/
def State.unsealPorts (s : State) (group : BitVec 16) : State :=
  { s.tick with ports := tmap {} (fun _ p =>
      if p.sealedGroup = some group then { p.rekeyed s.free [] with sealedGroup := none } else p) s.ports }

/-- R426: the sealed keying ends with the job. -/
def State.endSealing (s : State) (n : Nat) : State :=
  match (s.part n).secrets, (s.part n).bound with
  | some _, some b => s.unsealPorts b.group
  | _, _ => s

/-- R298 steps 2-4 and the partition's own state afterwards; sealed secrets are gone (R429). [DEDUCED, log 19] -/
def State.endSteps (s : State) (n : Nat) : State :=
  let p := s.part n
  let mine (c : CoreRef) : Bool := p.hasCore c
  let s1 := ((s.endSealing n).tearFlumes fun q _ => decide (q.toNat = n)).freeGroups n
  let s2 := (s1.endHbm n).dropScratchpads mine
  let s3 := { s2 with cores := tmap {} (fun key k => if mine (coreOfKey key) then k.endJob else k) s2.cores }
  ((s3.idleDies n).endRegions n).onPart n fun p => { p with
    state := .idle, img := {}, hold := false, limit := 0, phase := 0, secrets := none, detHold := false, imageAt := 0
    imageLen := 0, chunks := [] }

/-- R297, R298, R302: the job of a partition ends. A load that is stopped is only undone (steps 2-4) and ends with 0x0008;
a Held job keeps 0x0300. An abort of a bound partition sends its token. [DEDUCED, log 19] -/
def State.endJob (s : State) (n : Nat) (e : JobEnd) : State :=
  let p := s.part n
  if p.state.hasJob = false then s
  else if p.state = .loading then (s.endSteps n).answerEnd n
  else
    let final := if p.state = .held then p.ended.getD { status := 0x0300 } else e
    let s1 := if e.status = 0x0300 then s else (s.stopCores n).abortTokenOut n e.status
    let s2 := (s1.endSteps n).onPart n fun p => { p with ended := some final }
    let s3 := s2.record { kind := 0x02, part := BitVec.ofNat 8 n, job := s.partJob n, related := e.seq
                          data := final.detail (s.partJob n) }
    (s3.wakeJob n final).answerEnd n

end Sys2Proof.Machine
end

