-- ==== Sys2Proof/Machine/Sync.lean ====
section
/-!
DEFINITION. The sync network: die hubs and the headworks hub (R201-R206), releases at the cores (R61), the determinism
hold (R343), multi-panel groups (R262, R265, R266), and what a release brings: phases and forecasts (R325, R357, R358).
-/

namespace Sys2Proof.Machine

/-! ### Members -/

/-- The channel of a core that is bound to a group. -/
def Core.chanOf (k : Core) (g : Nat) : Option (BitVec 4) :=
  ((List.range 16).find? fun n =>
    let h := k.chan (BitVec.ofNat 4 n)
    h.bound && decide (h.group.toNat = g)).map (BitVec.ofNat 4)

/-- R201: the members of a group: the cores whose channels are bound to it. -/
def State.members (s : State) (g : Nat) : List CoreRef :=
  (s.cores.filter fun e => (e.2.chanOf g).isSome).map fun e => coreOfKey e.1

/-- The members on one die. -/
def State.membersOn (s : State) (g d : Nat) : List CoreRef :=
  (s.members g).filter fun c => decide (s.dieOf c = some d)

/-- The dies with members of a group. -/
def State.memberDies (s : State) (g : Nat) : List Nat := distinct ((s.members g).filterMap s.dieOf)

/-! ### Phases (R325) and forecasts (R357, R358) -/

/-- R348: the temperature of a hot spot of a unit, 1/16 degrees. -/
def State.spot (s : State) (u h : Nat) : Int := tget 0 s.panel.spots (32 * u + h)

/-- The hottest of a unit's hot spots of a layer, 1/16 degrees. -/
def State.hottest (s : State) (u : Nat) (keys : List Nat) : Int :=
  keys.foldl (fun m h => max m (s.spot u h)) (s.spot u (keys.headD 0))

def logicSpots : List Nat := List.range 16
def arraySpots : List Nat := [16, 17, 18, 19]

/-- R357: the forecast cap of a die for the next phase; `n` numbers the model's predictions. [DESIGN CHOICE, log 55] -/
def State.forecastFor (s : State) (d n : Nat) (ph : Phase) : Option Nat :=
  let hot (layer throttle : Nat) (keys : List Nat) : Bool :=
    decide (16 * throttle < Config.forecastPeak (2 * n + layer) ph.pavg ph.ppeak ph.dur) &&
      decide ((16 * (throttle - 3) : Nat) ≤ s.hottest d keys)
  if hot 0 90 logicSpots || hot 1 80 arraySpots then
    some (clamp 4 8 (Config.forecastDuty n ph.pavg ph.ppeak ph.dur))
  else none

/-- R358: the hints follow the prediction; a change of 1 kW or more sends an event. [DESIGN CHOICE, log 55] -/
def State.updateHint (s : State) (ph : Phase) : State :=
  let heat := Config.predictedHeat s.free
  let far := decide (s.panel.hint + 1000 ≤ heat) || decide (heat + 1000 ≤ s.panel.hint)
  s.tick.onPanel fun p => { p with
    hint := heat, hintMs := ph.dur / 1000, pldm := if far then p.pldm ++ [0xFFFF] else p.pldm }

/-- R325, R357: a job enters a phase of its profile. -/
def State.enterPhase (s : State) (n phase : Nat) : State :=
  let s1 := s.onPart n fun p => { p with phase }
  match (s.part n).img.phases[phase]? with
  | none => s1
  | some ph =>
    let s2 := (s1.partSites n).foldl (fun (s : State) d =>
      (s.onDie d fun die => { die with forecast := s.forecastFor d s.free ph }).tick) s1
    s2.updateHint ph

/-- R325: a release of ADVGROUP moves the job to the NEXT of its record. -/
def State.advancePhase (s : State) (n : Nat) : State :=
  match (s.part n).img.phases[(s.part n).phase]? with
  | some ph => s.enterPhase n ph.next
  | none => s

/-! ### Releases -/

/-- R62, R343 step 2: the headworks hub withholds the releases of a partition. -/
def State.withholds (s : State) (n : Nat) : Bool :=
  (s.part n).img.detreq && ((s.part n).detHold || (s.partSites n).any fun d => (s.die d).detLost)

/-- R205, R343 step 3: a release is withheld, and Velty ends the job. -/
def State.withhold (s : State) (g : Nat) : State :=
  let n := (s.group g).part.toNat
  (s.setGroup g { s.group g with detHold := true }).endJob n { status := 0x031A }

/-- R202: a group is released: the hub counts it, and the release travels to every member. -/
def State.releaseGroup (s : State) (g : Nat) : State :=
  let b := s.group g
  let s1 := s.setGroup g { b with
    gen := b.gen + 1, gens := satInc b.gens, pending := b.dies, arrivedDies := [], sentDies := [], panelsIn := []
    releaseIn := false, releasing := s.members g }
  { s1 with dies := tmap {} (fun _ d => { d with arrivedMembers := tdel d.arrivedMembers g }) s1.dies }

/-- R266: the shadow compares one window with the primary's. -/
def Shadow.compare (sh : Shadow) (own peer : Reg64) : Shadow :=
  { sh with windows := satInc sh.windows, mismatch := if own = peer then sh.mismatch else satInc sh.mismatch }

/-- R266, R407: a mismatch is recorded. -/
def State.compareWindow (s : State) (n : Nat) (own peer : Reg64) : State :=
  let s1 := s.setShadow n ((s.shadow n).compare own peer)
  if own = peer then s1
  else s1.record { kind := 0x0D, part := BitVec.ofNat 8 n, data := bytesOf 8 own.toNat ++ bytesOf 8 peer.toNat }

/-- R266: a release of the group that the binding names for digests closes a window. [DESIGN CHOICE, log 38] -/
def State.closeWindow (s : State) (g : Nat) : State :=
  let b := s.group g
  let n := b.part.toNat
  let sh := s.shadow n
  if b.index.toNat ≠ sh.digestGroup.toNat ∨ sh.role = 0 then s
  else
    match (s.part b.part.toNat).bound with
    | none => s
    | some gb =>
      let s1 := s.setShadow n { sh with sum := 0 }
      if sh.role = 1 then
        let (m, s2) := s1.newMsg gb
        s2.ringSend .digest { m with barrier := b.index.setWidth 6, gen := b.gen, sum := sh.sum }
      else
        match sh.peerSums.find? fun e => e.1 = b.gen with
        | some e =>
          (s1.setShadow n { s1.shadow n with peerSums := eraseOne e sh.peerSums }).compareWindow n sh.sum e.2
        | none => s1.setShadow n { s1.shadow n with closed := sh.closed ++ [(b.gen, sh.sum)] }

/-- R262: the release of a multi-panel group at a panel. -/
def State.releaseMulti (s : State) (g : Nat) : State := (s.closeWindow g).releaseGroup g

/-! ### Multi-panel groups (R262) -/

/-- R267: the binding's barriers travel by tree: the upstream port, none at the root, and the downstream ports. [DESIGN CHOICE, log 55] -/
def GroupBinding.tree (b : GroupBinding) : Option (Option Nat × List Nat) :=
  if b.ports = [] then none
  else
    let up := fieldOf b.ports 0 1
    some (if up = 0xFF then none else some up, ((b.ports.drop 2).take (fieldOf b.ports 1 1)).map (·.toNat))

/-- How many ARRIVEs of other panels complete the group here: those below it in the tree, or at the root every other
member. -/
def State.arrivesNeeded (s : State) (b : GroupBinding) : Nat :=
  match b.tree with
  | some (_, down) => down.length
  | none => if b.root = s.panel.panelId then Config.ringMembers b.group - 1 else 0

/-- A message of a barrier group of this panel. -/
def State.barrierMsg (s : State) (g : Nat) (b : GroupBinding) : RingMsg × State :=
  let (m, s1) := s.newMsg b
  ({ m with barrier := (s.group g).index.setWidth 6, gen := (s.group g).gen }, s1)

/-- R264: the time of an arrival at the headworks hub. -/
def BGroup.stamp (b : BGroup) (ticks : BitVec 64) : BGroup :=
  { b with
    firstTick := if b.arrivedDies = [] ∧ b.panelsIn = [] then ticks else b.firstTick
    lastTick := ticks }

/-- R264: the spread of a generation of which every arrival is in, saturating. -/
def BGroup.spread (b : BGroup) : BGroup :=
  let w : Word := BitVec.ofNat 32 (min (b.lastTick.toNat - b.firstTick.toNat) (2 ^ 32 - 1))
  { b with lastWait := w, maxWait := if b.maxWait.toNat < w.toNat then w else b.maxWait }

/-- R264: the last local arrival. -/
def BGroup.lastFrom (b : BGroup) (d : Site) (col : Nat) (own : BitVec 16) : BGroup :=
  { b with dieRow := d.row, dieCol := BitVec.ofNat 4 col, panel := own }

/-- R262: the headworks hub's own arrivals and the ARRIVEs from other panels: when all are in, the root releases and
every other member sends ARRIVE on; a withheld release withholds both (R205). A shadow sends none and waits for the RELEASE (R265). -/
def State.multiArrived (s0 : State) (g : Nat) : State :=
  let bg := s0.group g
  let full := ((s0.part bg.part.toNat).bound.map fun b => decide (s0.arrivesNeeded b ≤ bg.panelsIn.length)).getD true
  let s := if bg.pending = 0 ∧ full then s0.setGroup g bg.spread else s0
  match (s.part bg.part.toNat).bound with
  | none => s.releaseGroup g
  | some b =>
    if bg.pending ≠ 0 ∨ bg.arrivedDies = [] then s
    else if s.withholds bg.part.toNat then s.withhold g
    else if s.isShadow bg.part.toNat then (if bg.releaseIn then s.releaseMulti g else s)
    else if bg.panelsIn.length < s.arrivesNeeded b then s
    else
      let (m, s1) := s.barrierMsg g b
      match b.tree with
      | some (some up, _) => s1.portSend up .arrive m
      | some (none, down) => (down.foldl (fun (s : State) p => s.portSend p .release m) s1).releaseMulti g
      | none => if b.root = s.panel.panelId then (s1.ringSend .release m).releaseMulti g else s1.ringSend .arrive m

/-! ### The commands -/

/-- SYNC_ARRIVAL (R202 step 3): every member of the group on the die has arrived. The hub of a group on one die has its one
arrival first and last (R264). [DEDUCED, log 18] -/
def execSyncArrival (d : Site) (group : BitVec 6) (s : State) : Host.Outcome State Fault Refusal :=
  siteEvent d s fun s k =>
    let g := group.toNat
    let b := s.group g
    let here := s.membersOn g k
    let arrived := tget [] (s.die k).arrivedMembers g
    if b.valid = false ∨ here = [] ∨ (here.all fun c => arrived.contains c) = false ∨ b.sentDies.contains d ∨
        b.arrivedDies.contains d then s
    else if s.memberDies g = [k] ∧ b.multi = false then
      if (s.part b.part.toNat).img.detreq ∧ ((s.die k).detLost ∨ (s.die k).detHold) then s.withhold g
      else (s.setGroup g (({ b with firstTick := 0, lastTick := 0 } : BGroup).spread.lastFrom d ((s.colOf k).getD 0)
        s.panel.panelId)).releaseGroup g
    else s.setGroup g { b with sentDies := b.sentDies ++ [d] }

/-- R202, R264: an arrival of a die hub at the headworks hub. -/
def BGroup.arrival (b : BGroup) (d : Site) (col : Nat) (own : BitVec 16) (ticks : BitVec 64) : BGroup :=
  { (b.stamp ticks).lastFrom d col own with
    sentDies := eraseOne d b.sentDies, arrivedDies := b.arrivedDies ++ [d], pending := b.pending - 1 }

/-- HWD_HUB_ARRIVAL (R202 step 4, R205, R262, R264): a die hub's arrival reaches the headworks hub. [DEDUCED, log 18] -/
def execHwdHubArrival (d : Site) (group : BitVec 6) (ticks : BitVec 64) (s : State) : Host.Outcome State Fault Refusal :=
  siteEvent d s fun s k =>
    let g := group.toNat
    let b := s.group g
    if b.valid = false ∨ b.sentDies.contains d = false then s
    else
      let b1 := b.arrival d ((s.colOf k).getD 0) s.panel.panelId ticks
      if b1.pending ≠ 0 then s.setGroup g b1
      else if b.multi then (s.setGroup g b1).multiArrived g
      else
        let s1 := s.setGroup g b1.spread
        if s1.withholds b.part.toNat then s1.withhold g else s1.releaseGroup g

/-- R61: a release at a member: a core that stalls in WAITF or BARRIER completes it. -/
def Core.released (k : Core) (ch : BitVec 4) : Core :=
  let h := k.chan ch
  let h1 := { h with arrived := false, gen := h.gen + 1 }
  if k.mode = .wait ∧ k.wait = .sync ch then
    { k.setChan ch { h1 with released := false } with
      mode := .run, wait := .none, pc := k.pc + 4, progress := k.progress + 1 }
  else k.setChan ch { h1 with released := true }

/-- SYNC_RELEASE (R61): a release reaches one member. With the first of them the profile advances (R325). [DEDUCED, log 18] -/
def execSyncRelease (c : CoreRef) (group : BitVec 6) (s : State) : Host.Outcome State Fault Refusal :=
  coreEvent c s fun s k =>
    let g := group.toNat
    let b := s.group g
    if b.releasing.contains c = false then s
    else
      let s1 := s.setGroup g { b with releasing := eraseOne c b.releasing }
      let s2 := match k.chanOf g with
        | some ch => s1.setCore c (k.released ch)
        | none => s1
      let n := b.part.toNat
      if (s.part n).img.advGroup = some group ∧ b.releasing.length = (s.members g).length then s2.advancePhase n
      else s2

/-- SYNC_CULVERT_LOSS (R204): `count` of a die hub's two sync culverts are lost. [DEDUCED, log 60] -/
def execSyncCulvertLoss (d : Site) (count : BitVec 2) (s : State) : Host.Outcome State Fault Refusal :=
  siteEvent d s fun s k =>
    let lost := min 2 (max (s.die k).culvertsLost count.toNat)
    if lost = (s.die k).culvertsLost then s
    else
      let s1 := s.onDie k fun die => { die with culvertsLost := lost }
      let s2 := s1.report (s1.dieReport k 0xFFFF 0x020A)
      if lost < 2 then s2
      else { s2 with groups := tmap {} (fun g b =>
        if b.valid ∧ s.membersOn g k ≠ [] then { b with fallback := true } else b) s2.groups }

/-- DET_HOLD (R343 steps 1 and 2): the flag of a die holds every release of its partition. -/
def execDetHold (d : Site) (s : State) : Host.Outcome State Fault Refusal :=
  siteEvent d s fun s k =>
    match s.partOfSite k with
    | none => s
    | some n =>
      if (s.die k).detLost = false ∨ (s.part n).img.detreq = false then s
      else
        (s.partSites n).foldl (fun (s : State) e => s.onDie e fun die => { die with detHold := true })
          (s.onPart n fun p => { p with detHold := true })

/-- FORECAST_EXPIRE (R357): the temperature has failed to rise as predicted. -/
def execForecastExpire (d : Site) (s : State) : Host.Outcome State Fault Refusal :=
  siteEvent d s fun s k => s.onDie k fun die => { die with forecast := none }

end Sys2Proof.Machine
end

