-- ==== Sys2Proof/Machine/Collector.lean ====
section
/-!
DEFINITION. The fault collector (R385-R393): classes, records and their windows, what each class does, and which
retirements a fault decides (R398-R400). FAULT_REPORT takes in a die agent's report; what Velty finds itself it takes in
at once.
-/

namespace Sys2Proof.Machine

/-! ### Classes (R385, R386) -/

/-- R386. -/
def sourceClass (source : BitVec 16) : Nat :=
  let n := source.toNat
  if [0x0101, 0x0102, 0x0201, 0x0202, 0x0205, 0x0206, 0x0208, 0x0209, 0x0302, 0x0304, 0x0305, 0x0402, 0x0502, 0x0505,
      0x0602].contains n then 1
  else if [0x0203, 0x0509, 0x0603].contains n then 2
  else if [0x0504, 0x0506, 0x050A].contains n then 3
  else if [0x0104, 0x0105, 0x0106, 0x0107, 0x0108, 0x0109, 0x010A, 0x0403].contains n then 4
  else 0

/-- R386: the sources that name every partition. -/
def everyPartition (source : BitVec 16) : Bool := source == 0x0305 || source == 0x0602

/-- R385: the status with which a source ends a job. -/
def sourceStatus (r : Report) : BitVec 16 :=
  if sourceClass r.source = 4 then r.status else if r.source = 0x0305 then 0x0317 else 0x0316

/-- The partitions that a record or report names. -/
def namedParts (source : BitVec 16) (part part2 : BitVec 8) : List Nat :=
  if everyPartition source then List.range 16
  else distinct ([part, part2].filterMap fun p => if p.toNat < 16 then some p.toNat else none)

/-! ### Records -/

/-- R389: the record that a report opens. -/
def openRecord (r : Report) (seq : Word) : FaultRec :=
  { seq, source := r.source, cls := BitVec.ofNat 3 (sourceClass r.source), injected := r.injected
    classMap := BitVec.ofNat 8 (2 ^ sourceClass r.source), site := r.site, unit := r.unit, part := r.part, job := r.job
    x := r.x, y := r.y, localCount := r.localCount, part2 := r.part2, detail := r.detail }

/-- R390: whether an open record's window covers a report. -/
def FaultRec.covers (f : FaultRec) (r : Report) : Bool :=
  let c := sourceClass r.source
  let wide := [2, 3].contains f.cls.toNat
  f.opened &&
    (if c = 2 ∨ c = 3 then wide
     else if wide then !f.cleared
     else if f.cls = 0 then c == 0 && f.source == r.source && f.site == r.site && f.unit == r.unit
     else (namedParts r.source r.part r.part2).any fun p => (namedParts f.source f.part f.part2).contains p)

/-- R390: a report merged into a record. -/
def FaultRec.merge (f : FaultRec) (r : Report) (overflow : Bool) : FaultRec :=
  let c := sourceClass r.source
  { f with
    merges := satInc f.merges, classMap := f.classMap ||| BitVec.ofNat 8 (2 ^ c)
    cls := if c = 1 ∧ f.cls = 4 then 1 else f.cls, overflow := f.overflow || overflow }

/-- Change the first record that a test picks. -/
def changeRec (p : FaultRec → Bool) (f : FaultRec → FaultRec) : List FaultRec → List FaultRec
  | [] => []
  | r :: l => if p r then f r :: l else r :: changeRec p f l

/-- R391: the record that a new one may overwrite, the oldest first. -/
def FaultRec.replaceable (f : FaultRec) : Bool := !f.opened && (f.cls == 0 || f.cls == 4 || f.cleared)

/-- Drop the first record that may be overwritten. -/
def dropRec : List FaultRec → List FaultRec
  | [] => []
  | r :: l => if r.replaceable then l else r :: dropRec l

/-- R392, R410: the level of FAULT_N is compared with what it was; a change is an event. -/
def State.faultEdge (s : State) (before : Bool) (seq : Word) : State :=
  if s.faultLow = before then s else s.event 5 seq

/-- R303: PLDM events for classes 1-3. -/
def State.pldmEvent (s : State) (source : BitVec 16) : State := s.onPanel fun p => { p with pldm := p.pldm ++ [source] }

/-- The newest record of the recorder. -/
def Recorder.newest (r : Recorder) : Option RecRec :=
  match r.circ.getLast? with
  | some x => some x
  | none => r.perm.getLast?

/-- R355, R405: the fatal slot keeps the newest record, with the coolant samples. [DEDUCED, log 31] -/
def State.keepFatal (s : State) : State :=
  { s with flash := { s.flash with fatal := s.recorder.newest, fatalCool := s.panel.coolSamples } }

/-- R389, R405, R407: what the recorder keeps of a fault record that opens. -/
def State.recordFault (s : State) (f : FaultRec) : State :=
  let data := bytesOf 2 f.source.toNat ++ bytesOf 1 f.cls.toNat
  let s1 := s.record { kind := 0x01, filter := f.source, site := f.site, unit := f.unit, part := f.part, job := f.job
                       related := f.seq, data } (f.cls ≠ 0)
  if f.cls = 3 then s1.keepFatal else s1

/-- R388-R391, R407, R410: a report opens a record or merges into one; the answer gives the record's SEQ. -/
def State.fileReport (s : State) (r : Report) : Word × State :=
  let c := sourceClass r.source
  match s.faults.find? fun f => f.covers r with
  | some f => (f.seq, { s with faults := changeRec (fun f => f.covers r) (fun f => f.merge r false) s.faults })
  | none =>
    if 4096 ≤ s.faults.length ∧ (s.faults.any FaultRec.replaceable) = false then
      match s.faults.reverse with
      | [] => (0, s)
      | f :: rest => (f.seq, { s with faults := (f.merge r true :: rest).reverse })
    else
      let low := s.faultLow
      let (seq, s1) := s.takeSeq
      let kept := if 4096 ≤ s1.faults.length then dropRec s1.faults else s1.faults
      let f := openRecord r seq
      let s2 := { s1 with faults := kept ++ [f] }.recordFault f
      let s3 := if 1 ≤ c ∧ c ≤ 3 then (s2.pldmEvent r.source).event 0 seq else s2
      (seq, (s3.event 1 seq).faultEdge low seq)

/-! ### Retirement decisions (R398-R401) -/

/-- The die of a unit. -/
def retHome : RetUnit → Site
  | .core d _ => d
  | .region d _ => d
  | .die d => d

/-- R398: the unit to which a class-1 fault is counted; unit 0xFFFF is the die as a whole. -/
def countedUnit (r : Report) : Option RetUnit :=
  let d := siteOfKey (r.site.toNat / 256)
  let n := r.source.toNat
  if r.injected then none
  else if r.unit = 0xFFFF ∧ (n = 0x0102 ∨ n = 0x0502) then some (.die d)
  else if n = 0x0101 ∨ n = 0x0102 then some (.core d (r.unit.setWidth 10))
  else if n = 0x0208 ∨ n = 0x0502 then some (.region d (r.unit.setWidth 6))
  else if n = 0x0205 ∨ n = 0x0304 ∨ n = 0x0505 then some (.die d)
  else none

/-- How many of `n` past events lie within a window. [DESIGN CHOICE, log 14] -/
def State.recent (s : State) (salt n : Nat) : Nat := min n (Config.recent (s.free + salt) n)

/-- R398, R400: recent counted faults of a die and of its units. -/
def State.countedOn (s : State) (d : Nat) : Nat :=
  s.recent d (s.flash.counted.filter fun e => siteKey (retHome e.1) = d).length

/-- R401: a retirement is decided; it waits in the flash list until it takes place. -/
def State.decideRetire (s : State) (u : RetUnit) (source : BitVec 16) (seq : Word) : State :=
  if (s.flash.pendingRet.any fun e => e.1 = u) || (s.flash.retLog.any fun e => e.1 = u) then s
  else
    { s with flash := { s.flash with pendingRet := s.flash.pendingRet ++ [(u, source, seq)] } }.onDie (siteKey (retHome u))
      fun die => { die with retPending := true }

/-- R400: of the two ends of an edge, or of a weir (4), the die with more counted faults; of equal ones that at the higher column, or the
higher row. Site keys rise with row and then column. -/
def State.edgeVictim (s : State) (d edge : Nat) : Nat :=
  let two (d e : Nat) : Nat :=
    let a := s.countedOn d
    let b := s.countedOn e
    if a < b then e else if b < a then d else max d e
  if edge = 4 then ((s.weirEnds d).map fun e => two e.1 e.2).getD d
  else ((s.edgePeer d edge).map (two d)).getD d

/-- R399: the core takes its post-fault test, once its partition is Idle. -/
def State.beginTest (s : State) (d index : Nat) : State :=
  match s.coreAt d index with
  | some c => s.onCore c fun k => { k with testing := true }
  | none => s

/-- R399: a word that a core corrected; more than 10,000 of them within 24 hours retire it. -/
def State.countCorrection (s : State) (r : Report) (seq : Word) : State :=
  let key := 1024 * (r.site.toNat / 256) + r.unit.toNat
  let n := tget 0 s.flash.corrected key + 1
  let s1 := { s with flash := { s.flash with corrected := tset 0 s.flash.corrected key n } }.tick
  if 10000 < s.recent key n then
    s1.decideRetire (.core (siteOfKey (r.site.toNat / 256)) (r.unit.setWidth 10)) r.source seq
  else s1

/-- R349, R399: what a fault decides. [DESIGN CHOICE, log 14] -/
def State.judge (s : State) (r : Report) (seq : Word) : State :=
  match countedUnit r with
  | none =>
    if r.source = 0x0507 ∧ r.unit = 0xFFFF ∧ bits r.site.toNat 5 3 = 0 then
      s.decideRetire (.die (siteOfKey (r.site.toNat / 256))) r.source seq
    else if r.source = 0x0103 ∧ r.injected = false then s.countCorrection r seq
    else s
  | some u =>
    let again := decide (0 < s.recent 0 (s.flash.counted.filter fun e => e.1 = u).length)
    let s1 := { s with flash := { s.flash with counted := s.flash.counted ++ [(u, seq)] } }.tick
    match u with
    | .core d i =>
      if again then s1.decideRetire u r.source seq else s1.beginTest (siteKey d) i.toNat
    | .region _ _ => s1.decideRetire u r.source seq
    | .die d =>
      let k := siteKey d
      if r.unit = 0xFFFF then s1.decideRetire u r.source seq
      else if r.source = 0x0205 then
        if 4 < r.unit.toNat ∨ (r.unit = 4 ∧ s.weirEnds k = none) then s1 else s1.decideRetire (.die (siteOfKey (s.edgeVictim k r.unit.toNat))) r.source seq
      else if r.source = 0x0304 then
        if facing r.unit.toNat d then s1 else s1.decideRetire u r.source seq
      else s1.decideRetire u r.source seq

/-! ### Effects of a class -/

/-- R375, R373: a core in a region that is switched off keeps only its error counters. -/
def Core.gated (k : Core) : Core := { ceCount := k.ceCount, ue := k.ue }

/-- R373: every compute region is off, and the panel is Region-gated. -/
def State.gatePanel (s : State) : State :=
  let s1 := (s.regionsOff fun _ => true).onPanel fun p => { p with pstate := .regionGated }
  { s1 with
    cores := tmap {} (fun _ k => k.gated) s1.cores
    mem := memDrop s1.mem fun a => decide (2 ^ 47 ≤ a) }

/-- Every job ends with a status. -/
def State.endAll (s : State) (e : JobEnd) : State := (List.range 16).foldl (fun s n => s.endJob n e) s

/-- R387: the panel stop. -/
def State.panelStop (s : State) (seq : Word) : State :=
  ((s.endAll { status := 0x0316, seq }).gatePanel).onPanel fun p => { p with stopped := true }

/-- The end that a report brings (R287). -/
def reportEnd (r : Report) (seq : Word) : JobEnd :=
  { status := sourceStatus r, x := r.x, y := r.y, code := r.code, seq
    count := if r.source = 0x0109 then BitVec.ofNat 32 (fieldOf r.detail 0 2) else if r.x = 0xFFFF then 0 else 1 }

/-- R390: a class-1 or class-4 record closes when every partition it names is Idle or Free and no core of theirs is in
its post-fault test. -/
def State.settled (s : State) (f : FaultRec) : Bool :=
  (namedParts f.source f.part f.part2).all fun n =>
    (decide ((s.part n).state = .idle) || decide ((s.part n).state = .free)) &&
      (s.partCores n).all fun c => !(s.core c).testing

/-- R390: windows that have ended. -/
def State.closeRecords (s : State) : State :=
  { s with faults := s.faults.map fun f =>
      if (f.cls = 1 ∨ f.cls = 4) ∧ s.settled f then { f with opened := false } else f }

/-- R385: what the class of a fault does. -/
def State.classEffect (s : State) (r : Report) (seq : Word) : State :=
  match sourceClass r.source with
  | 1 => (namedParts r.source r.part r.part2).foldl (fun s n => s.endJob n (reportEnd r seq)) s
  | 4 => (namedParts r.source r.part r.part2).foldl (fun s n => s.endJob n (reportEnd r seq)) s
  | 2 => s.panelStop seq
  | 3 => s.onPanel fun p => { p with stopped := true }
  | _ => s

/-- R385-R400: the headworks accepts a report. -/
def State.accept (s : State) (r : Report) : State :=
  let (seq, s1) := s.fileReport r
  ((s1.classEffect r seq).judge r seq).closeRecords

/-- What Velty finds itself. [DEDUCED, log 20] -/
def State.acceptOwn (s : State) (r : Report) : State :=
  s.tick.accept { r with localCount := Config.localCount s.free }

/-- RECORD_WINDOW_EXPIRE (R390): the window of a class-0 record ends 1 ms after it opened. -/
def execRecordWindowExpire (seq : Word) (s : State) : Host.Outcome State Fault Refusal :=
  .next { s with faults := s.faults.map fun f => if f.seq = seq ∧ f.cls = 0 then { f with opened := false } else f }

/-- SEQ_FLUSH (R388): every 10 minutes the sequence number goes to flash. -/
def execSeqFlush (s : State) : Host.Outcome State Fault Refusal :=
  .next { s with flash := { s.flash with seq := s.panel.seq } }

end Sys2Proof.Machine
end

