-- ==== Sys2Proof/Machine/Memory.lean ====
section
/-!
DEFINITION. The memory side: HBM blocks with their code and compression (R232-R238), what an MSD does with packets (R222),
copy descriptors (R225-R228), stack retirement (R216), and culverts (R217-R221).
-/

namespace Sys2Proof.Machine

/-! ### Stored blocks: R232-R236 -/

/-- The site of an MSD, and a stack of it, in a report (R22, R389). -/
def State.stackReport (s : State) (p : Nat) (source : BitVec 16) : Report :=
  { source, site := unitWord ⟨1, BitVec.ofNat 4 (p / 4), 15⟩, unit := BitVec.ofNat 16 (p % 4)
    detail := bytesOf 8 (s.stackReg p).toNat }

/-- R389: the partition's number and its JOB in a report; 0xFF names no partition. -/
def State.partReport (s : State) (n : Nat) (r : Report) : Report :=
  { r with part := BitVec.ofNat 8 n, job := if n < 16 then s.partJob n else 0 }

/-- R232: the stored block that serves an HBM block: a compressed or erased unit is one block. -/
def State.storedBlock (s : State) (b : Nat) : Nat := if tget .erased s.tags (b / 4) = .raw then b else b / 4 * 4

/-- R239: the partition whose job owns an HBM address. -/
def State.regionOwner (s : State) (a : Nat) : Option Nat :=
  (List.range 16).find? fun n => (s.part n).state.hasJob && inRanges (s.part n).img.ranges s.liveStacks.length a

/-- R215: the granule of the region that holds an HBM address. -/
def State.regionGran (s : State) (a : Nat) : BitVec 2 := ((s.regionOwner a).map fun n => (s.part n).img.gran).getD 0

/-- R213, R238: the row that holds an HBM block. [DESIGN CHOICE, log 75] -/
def State.rowOfBlock (s : State) (b : Nat) : HbmRow :=
  let off := ((s.hbmMap (s.regionGran (64 * b)) (64 * b)).map (·.2)).getD 0
  let at_ := Config.hbmRow off
  ⟨off / (96 * 2 ^ 20), at_.1, at_.2⟩

/-- R238, R394: a bad block that a stack found counts for its row and its stack, unless injection made it. -/
def State.foundBad (s : State) (p b : Nat) (ue : Bool) : State :=
  if (tget ({} : HbmErr) s.hbmErr b).injected then s
  else s.setStack p { s.stack p with found := (s.stack p).found ++ [⟨s.rowOfBlock b, ue⟩] }

/-- R235, R236: the code of one stored block is checked. A corrected one is written back. -/
def checkBlock (p owner : Nat) (o : State × Bool) (b : Nat) : State × Bool :=
  let s := o.1
  let e := tget {} s.hbmErr b
  let s0 := s.foundBad p b (decide (2 < e.bytes))
  let k := s0.stack p
  if e.bytes = 0 then o
  else if e.bytes ≤ 2 then
    let s1 := { s0 with hbmErr := tdel s.hbmErr b, given := tdel s.given b }.setStack p { k with ce := satInc k.ce }
    (s1.report (s1.partReport owner { s1.stackReport p 0x0301 with injected := e.injected }), o.2)
  else
    let s1 := s0.setStack p { k with ue := satInc k.ue }
    (s1.report (s1.partReport owner { s1.stackReport p 0x0302 with injected := e.injected }), false)

/-- The check of every stored block that bytes of a stack touch; `owner` is the partition that owns the region. -/
def State.checkBlocks (s : State) (p owner a len : Nat) : State × Bool :=
  (distinct ((List.range ((a + len + 63) / 64 - a / 64)).map fun i => s.storedBlock (a / 64 + i))).foldl
    (checkBlock p owner) (s, true)

/-- R232: sixteen equal words. -/
def uniformBlock (bs : List Byte) : Bool := (wordsOf bs).all fun w => w == (wordsOf bs).headD 0

/-- R232: all four blocks of a unit are uniform. -/
def State.uniformUnit (s : State) (u : Nat) : Bool :=
  (List.range 4).all fun i => uniformBlock (memRead s.mem (256 * u + 64 * i) 64)

/-- R233: how a unit is stored after a write. -/
def State.tagAfter (s : State) (u : Nat) (full : Bool) (old : UnitTag) : UnitTag :=
  if full = false ∧ old = .raw then .raw else if s.uniformUnit u then .header else .raw

/-- R233: the stored blocks that a write inside one unit must read first: the header of a unit, and those it covers in
part. -/
def readFirst (old : UnitTag) (a len : Nat) : List Nat :=
  if len = 256 then []
  else if old ≠ .raw then [a / 256 * 4]
  else distinct ((if a % 64 = 0 then [] else [a / 64]) ++ if (a + len) % 64 = 0 then [] else [(a + len - 1) / 64])

/-- R233, R234, R394: a write inside one unit. A merged write over an uncorrectable block is not made. -/
def State.writeUnit (s : State) (p owner a : Nat) (bs : List Byte) : State :=
  let u := a / 256
  let full : Bool := bs.length == 256
  let old := tget .erased s.tags u
  let o := (readFirst old a bs.length).foldl (checkBlock p owner) (s, true)
  if o.2 = false then o.1
  else
    let s1 := o.1.store a bs
    let new := s1.tagAfter u full old
    let whole := full || decide (old ≠ UnitTag.raw)
    let read (b : Nat) : Bool := if whole then b / 4 == u else decide (a / 64 ≤ b) && decide (b ≤ (a + bs.length - 1) / 64)
    let written (b : Nat) : Bool := if whole ∧ new ≠ .raw then b == 4 * u else read b
    let s2 := { s1 with
      tags := tset .erased s1.tags u new
      hbmErr := tkeep (fun b => !read b) s1.hbmErr
      given := tkeep (fun b => !written b) s1.given }
    let k := s2.stack p
    match k.inject with
    | some n => { s2 with hbmErr := tset {} s2.hbmErr (s2.storedBlock (a / 64)) ⟨n, true⟩ }.setStack p { k with inject := none }
    | none => s2

/-- Bytes from an address cut at the units, by fuel. -/
def unitsOf : Nat → Nat → List Byte → List (Nat × List Byte)
  | 0, _, _ => []
  | _, _, [] => []
  | fuel + 1, a, bs =>
    let n := 256 - a % 256
    (a, bs.take n) :: unitsOf fuel (a + n) (bs.drop n)

/-- R222, R224: bytes accepted into the write buffer of a stack, where they are visible. -/
def State.hbmWrite (s : State) (p owner a : Nat) (bs : List Byte) : State :=
  let s1 := (unitsOf (bs.length + 1) a bs).foldl (fun (s : State) e => s.writeUnit p owner e.1 e.2) s
  s1.setStack p { s1.stack p with wbuf := (s1.stack p).wbuf ++ [⟨a, bs.length⟩] }

/-! ### Packets at an MSD: R222 -/

/-- R218: the router of a site at which a packet of an MSD enters. -/
def State.entryOfMsd (s : State) (k m : Nat) (p : Packet) : Option CoreRef :=
  (s.colOf k).map fun col => culvertCore (coreXY (32 * col) (32 * (k / 16))) m (pktTarget p).x.toNat

/-- R218, R220: a packet of an MSD enters the mesh of a site on the MSD's group, on VC0, or on VC3 where it answers a
priority READ; a group that is down loses it. -/
def State.msdInject (s : State) (k m : Nat) (p : Packet) : State :=
  if (s.culvert k m).state = 0 then s.culvertLoses k m [p]
  else
    match s.entryOfMsd k m p with
    | none => s
    | some c => s.enter c 5 (if p.opcode = opReadResp then p else pktOnChannel p 0)

/-- R167, R222: the answer of an MSD. -/
def State.msdAnswer (s : State) (k m : Nat) (p : Packet) (status : BitVec 8) : State :=
  if p.opcode = opReadResp ∨ p.opcode = opCompletion then s
  else if p.notify then s.ackPacket p status
  else s.msdInject k m (pktAnswer p status)

/-- R222: the READ_RESP of an MSD. -/
def hbmResponse (p : Packet) (data : List Byte) : Packet :=
  pktSeal { readResponse p data with srcX := p.srcX, srcY := p.srcY }

/-- R222: a write is acknowledged, and counted at its source. -/
def State.msdDone (s : State) (k m : Nat) (p : Packet) (bytes : Nat) : State :=
  let s1 := if p.notify then s.ackPacket p 0x00 else s
  if p.ctrEn then s1.msdInject k m (completionTo p p.ctr true bytes) else s1

/-- R222: a packet that passes the checks. -/
def State.msdPerform (s : State) (k m : Nat) (p : Packet) (owner a stack : Nat) : State :=
  if p.opcode = opWrite ∨ p.opcode = opWriteNotify then
    (s.hbmWrite stack owner a p.payload).msdDone k m p p.len.toNat
  else if p.opcode = opAtomicAdd then
    let o := s.checkBlocks stack owner a 4
    if o.2 = false then o.1
    else
      let sum := natOf (memRead o.1.mem a 4) + fieldOf p.payload 0 4
      (o.1.hbmWrite stack owner a (bytesOf 4 sum)).msdDone k m p 4
  else if p.opcode = opReadReq then
    let o := s.checkBlocks stack owner a p.len.toNat
    if o.2 = false then o.1 else o.1.msdInject k m (hbmResponse p (memRead o.1.mem a p.len.toNat))
  else s.msdAnswer k m p 0x01

/-- R222, R253: the checks of an MSD. -/
def State.msdCheck (s : State) (k m : Nat) (p : Packet) (a : Nat) : State :=
  match s.hbmOwner a with
  | none => if s.liveStacks.length * 36 * 2 ^ 30 ≤ a then s.msdAnswer k m p 0x01 else s.msdAnswer k m p 0x03
  | some n =>
    match s.hbmMap (s.part n).img.gran a with
    | none => s.msdAnswer k m p 0x01
    | some (stack, _) =>
      if s.foreign p then
        if s.bindOk n p then s.msdPerform k m p n a stack else s.msdAnswer k m p 0x05
      else if p.job ≠ s.partJob n then s.msdAnswer k m p 0x03
      else if p.part.toNat ≠ n then
        s.report (s.partReport n { s.stackReport stack 0x0206 with part2 := p.part.setWidth 8 })
      else s.msdPerform k m p n a stack

/-- The packet has left the culvert group. -/
def State.tookCulvert (s : State) (k m : Nat) (p : Packet) : State :=
  s.setCulvert k m { s.culvert k m with inq := eraseOne p (s.culvert k m).inq }

/-- R223: two packets of one core for one stack that an MSD performs in the order in which they came: writes and
ATOMIC_ADDs of route 0b01, and READ_REQs of it. -/
def State.msdOrdered (s : State) (p q : Packet) : Bool :=
  let stackOf (x : Packet) : Option Nat :=
    match decodeAddr x.dest.toNat with
    | .hbm a => (s.hbmMap (s.regionGran a) a).map (·.1)
    | _ => none
  p.route == 1 && q.route == 1 && p.srcX == q.srcX && p.srcY == q.srcY && p.spanel == q.spanel &&
    (p.opcode == opReadReq) == (q.opcode == opReadReq) && stackOf p == stackOf q

/-- R223: a packet that stands before this one in its group and must be performed first. -/
def State.msdOvertakes (s : State) (k m : Nat) (p : Packet) : Bool :=
  ((s.culvert k m).inq.takeWhile (· != p)).any fun q => s.msdOrdered q p

/-- MSD_PACKET (R222). A packet that must wait for an earlier one is not performed. [DESIGN CHOICE, log 7] -/
def execMsdPacket (m : BitVec 3) (src : Site) (p : Packet) (s : State) : Host.Outcome State Fault Refusal :=
  siteEvent src s fun s k =>
    if (s.msd m.toNat).failed ∨ ((s.culvert k m.toNat).inq.contains p ∧ s.msdOvertakes k m.toNat p) then s
    else
      let s1 := s.tookCulvert k m.toNat p
      match decodeAddr p.dest.toNat with
      | .hbm a => s1.msdCheck k m.toNat p a
      | _ => s1.msdAnswer k m.toNat p 0x01

/-! ### Copy engines: R225-R228 -/

/-- COPY_DESCRIPTOR (R227 step 1): the descriptor goes to its queue; with its job ended it is answered with 0x03. -/
def execCopyDescriptor (m : BitVec 3) (src : Site) (queue : BitVec 3) (p : Packet) (s : State) :
    Host.Outcome State Fault Refusal :=
  siteEvent src s fun s k =>
    if (s.msd m.toNat).failed then s
    else
      let s1 := s.tookCulvert k m.toNat p
      if (s.part p.part.toNat).state.runs = false ∨ p.job ≠ s.partJob p.part.toNat then s1.msdAnswer k m.toNat p 0x03
      else
        let d := s1.msd m.toNat
        let j : CopyJob :=
          { desc := BitVec.ofNat 256 (natOf p.payload), srcX := p.srcX, srcY := p.srcY, part := p.part, job := p.job
            flow := p.flow }
        s1.setMsd m.toNat { d with queues := tpush d.queues (8 * k + queue.toNat) [j] }

/-- R225-R227: the 2 KiB pieces of a descriptor on an MSD's own stacks: the line, the offset in it, and the length. -/
def State.ownPieces (s : State) (m : Nat) (j : CopyJob) : List (Nat × Nat × Nat) :=
  let d := copyDesc j.desc
  (List.range d.lines).flatMap fun l =>
    let h := d.haddr + l * d.hstride
    (cutRange h (64 * d.line)).filterMap fun e =>
      match s.hbmMap (s.part j.part.toNat).img.gran (h + e.1) with
      | some (p, _) => if p / 4 = m then some (l, e.1, e.2) else none
      | none => none

/-- R226: a packet of a LOAD. -/
def State.copyPacket (s : State) (j : CopyJob) (d : CDesc) (dest : CoreRef) (off : Nat) (bs : List Byte) : Packet :=
  pktSeal {
    opcode := opWrite, ctr := d.rctr, ctrEn := d.rctrEn, len := BitVec.ofNat 12 bs.length, part := j.part
    part2 := j.part, home := j.part, job := j.job, dest := BitVec.ofNat 48 (spAddr dest off), srcX := j.srcX, srcY := j.srcY
    route := 1, flow := j.flow, spanel := s.panel.panelId, payload := bs }

/-- R228: a COMPLETION to the issuing core. -/
def State.copyCompletion (s : State) (j : CopyJob) (d : CDesc) (bytes : Nat) (last : Bool) : Packet :=
  pktSeal {
    opcode := opCompletion, vc := 0, last, ctr := d.ctr, ctrEn := d.ctrEn, part := j.part, part2 := j.part, job := j.job
    dest := BitVec.ofNat 48 (spAddr ⟨j.srcX, j.srcY⟩ 0), srcX := j.srcX, srcY := j.srcY, flow := j.flow
    spanel := s.panel.panelId, payload := bytesOf 4 bytes }

/-- R226: the LOAD of one piece: the bytes sent. -/
def State.loadPiece (s : State) (m : Nat) (j : CopyJob) (d : CDesc) (l off len : Nat) : State × Nat :=
  let (c, i) := d.place l
  match decodeAddr d.saddr, along (bits d.saddr 37 9) (bits d.saddr 28 9) d.axis d.dir c with
  | .sp _ _ so, some (x, y) =>
    let dest := coreXY x y
    let to_ := so + i * d.sstride + off
    let a := d.haddr + l * d.hstride + off
    match s.dieOf dest, s.hbmMap (s.part j.part.toNat).img.gran a with
    | some k, some (p, _) =>
      (cutRange to_ len).foldl (fun (o : State × Nat) e =>
        let r := o.1.checkBlocks p j.part.toNat (a + e.1) e.2
        if r.2 then
          (r.1.msdInject k m (s.copyPacket j d dest (to_ + e.1) (memRead r.1.mem (a + e.1) e.2)), o.2 + e.2)
        else (r.1, o.2)) (s, 0)
    | _, _ => (s, 0)
  | _, _ => (s, 0)

/-- R226: the FILL of one piece. -/
def State.fillPiece (s : State) (j : CopyJob) (d : CDesc) (l off len : Nat) : State × Nat :=
  let a := d.haddr + l * d.hstride + off
  match s.hbmMap (s.part j.part.toNat).img.gran a with
  | some (p, _) =>
    (s.hbmWrite p j.part.toNat a ((List.replicate (len / 4) (bytesOf 4 (bits d.saddr 0 32))).flatten), len)
  | none => (s, 0)

/-- R224, R227: whether the next piece of a queue can go: a LOAD waits for credit at its destination die. -/
def State.copyReady (s : State) (m key : Nat) : Bool :=
  match tget [] (s.msd m).queues key with
  | [] => false
  | j :: _ =>
    (copyDesc j.desc).kind == 1 ||
      ((s.colOf (key / 8)).map fun col => (List.range 2).all fun x =>
        (tget [] (s.router (culvertCore (coreXY (32 * col) (32 * (key / 8 / 16))) m x)).wait 20).isEmpty).getD true

/-- R227 step 5: the queue whose turn it is: of those that can go, the next one after the last served. -/
def State.nextQueue (s : State) (m : Nat) : Option Nat :=
  let keys := ((s.msd m).queues.map (·.1)).filter fun q => s.copyReady m q
  match keys.find? fun q => decide ((s.msd m).turn < q) with
  | some q => some q
  | none => keys.head?

/-- R226-R228: the current descriptor of a queue at an MSD: its next piece, and the COMPLETION for it. -/
def State.copyStep (s : State) (m key : Nat) (j : CopyJob) (rest : List CopyJob) : State :=
  let d := copyDesc j.desc
  let todo := (s.ownPieces m j).drop j.done
  let o := match todo with
    | [] => (s, 0)
    | (l, off, len) :: _ => if d.kind = 1 then s.fillPiece j d l off len else s.loadPiece m j d l off len
  let last := decide (todo.length ≤ 1)
  let left := if last then rest else { j with done := j.done + 1 } :: rest
  let n := o.1.msd m
  let s1 := o.1.setMsd m { n with queues := tset [] n.queues key left, turn := key }
  if last ∨ d.ctrEn then s1.msdInject (key / 8) m (s.copyCompletion j d o.2 last) else s1

/-- COPY_PIECE (R226-R228): an engine takes a piece of the queue whose turn it is. -/
def execCopyPiece (m : BitVec 3) (s : State) : Host.Outcome State Fault Refusal :=
  let msd := s.msd m.toNat
  if msd.failed ∨ 64 ≤ msd.deadEngines.length then .next s
  else
    match s.nextQueue m.toNat with
    | none => .next s
    | some key =>
      match tget [] msd.queues key with
      | [] => .next s
      | j :: rest => .next (s.copyStep m.toNat key j rest)

/-! ### Stacks -/

/-- HBM_WRITE_DRAIN (R224): the oldest buffered write goes into the stack. -/
def execHbmWriteDrain (stack : BitVec 5) (s : State) : Host.Outcome State Fault Refusal :=
  if s.stackCount ≤ 8 * (stack.toNat % 4) then .fault .noSuchUnit
  else
    let k := s.stack stack.toNat
    .next (s.setStack stack.toNat { k with wbuf := k.wbuf.drop 1 })

/-- R216, R401: a stack is retired: every job ends, the map is rebuilt, and every region is erased. -/
def State.retireStack (s : State) (p : Nat) : State :=
  let k := s.stack p
  if k.state = 3 ∨ k.state = 0 then s
  else
    let s1 := s.acceptOwn (s.stackReport p 0x0305)
    let s2 := s1.setStack p { s1.stack p with state := 3 }
    let s3 := { s2 with
      panel := { s2.panel with liveStacks := s2.panel.liveStacks &&& ~~~((1 : BitVec 32) <<< p) }
      flash := { s2.flash with retStacks := s2.flash.retStacks ++ [BitVec.ofNat 5 p] }
      mem := memDrop s2.mem fun a => decide (a < 2 ^ 41)
      tags := [], hbmErr := [], given := []
      hbm := tmap {} (fun _ k => { k with wbuf := [] }.repair fun _ => true) s2.hbm }
    let (s4, seq) := s3.recordSeq
      { kind := 0x03, site := unitWord ⟨1, BitVec.ofNat 4 (p / 4), 15⟩, unit := BitVec.ofNat 16 (p % 4) }
    s4.event 2 seq

/-- HBM_SUPPLY_FAIL (R238). -/
def execHbmSupplyFail (stack : BitVec 5) (s : State) : Host.Outcome State Fault Refusal :=
  if s.stackCount ≤ 8 * (stack.toNat % 4) then .fault .noSuchUnit else .next (s.retireStack stack.toNat)

/-! ### Repair and retirement: R238 -/

/-- R238: the rows of a bank of a stack that use one of its spare rows. -/
def State.bankUsed (s : State) (p bank : Nat) : Nat :=
  let k := s.stack p
  ((k.marked ++ k.soft.drop k.hardened ++ tget [] s.hardRows p).filter fun r => r.bank == bank).length

/-- R238: what one bad block decides for its row: 3 corrected blocks or an uncorrectable one mark it; without a spare row
left in its bank the stack is retired. -/
def State.judgeRow (s : State) (p : Nat) (f : HbmFind) : State :=
  let k := s.stack p
  let corrected := (k.seen.filter fun e => e.row = f.row ∧ e.ue = false).length
  if k.marked.contains f.row ∨ (f.ue = false ∧ s.recent 0 corrected < 3) then s
  else if Config.spareRows p f.row.bank ≤ s.bankUsed p f.row.bank then s.retireStack p
  else s.setStack p { k with marked := k.marked ++ [f.row] }

/-- R238: the headworks judges what a stack has found: each row, and 4 uncorrectable blocks. [DESIGN CHOICE, log 75] -/
def State.judgeStack (s : State) (p : Nat) : State :=
  let new := (s.stack p).found
  let s1 := new.foldl (fun (t : State) f =>
    (t.setStack p { t.stack p with seen := (t.stack p).seen ++ [f], found := [] }).tick.judgeRow p f) s
  if new.any (·.ue) ∧ 4 ≤ s1.recent 1 ((s1.stack p).seen.filter (·.ue)).length then s1.retireStack p else s1

/-- R389: the stack that a report names. -/
def stackOfReport (r : Report) : Option Nat :=
  if r.source = 0x0301 ∨ r.source = 0x0302 then
    (List.range 32).find? fun p => unitWord ⟨1, BitVec.ofNat 4 (p / 4), 15⟩ = r.site ∧ p % 4 = r.unit.toNat
  else none

/-- FAULT_REPORT (R388): a report reaches the collector. -/
def execFaultReport (r : Report) (s : State) : Host.Outcome State Fault Refusal :=
  let s1 := { s with reports := eraseOne r s.reports }.accept r
  .next (((stackOfReport r).map s1.judgeStack).getD s1)

/-! ### The scrubber: R237 -/

/-- R213: the HBM address of a byte of a stack, under the granule of the partition that owns its region. -/
def State.hbmAddrOf (s : State) (p off : Nat) : Nat :=
  let live := s.liveStacks
  let n := live.length
  let r := off / (96 * 2 ^ 20)
  let f := off % (96 * 2 ^ 20)
  let g := granule (s.regionGran (r * regionSize n))
  r * regionSize n + f / g * (g * n) + (live.idxOf p) * g + f % g

/-- R236, R237: the scrubber meets an uncorrectable block of a region that no job owns: it is written erased. -/
def State.eraseBlock (s : State) (p b : Nat) : State :=
  let wide := decide (tget .erased s.tags (b / 4) ≠ .raw)
  let hit (x : Nat) : Bool := if wide then x / 4 == b / 4 else x == b
  let s0 := s.foundBad p b true
  let e := tget {} s.hbmErr b
  let k := s0.stack p
  let s1 := { s0 with
    mem := memDrop s0.mem fun a => decide (a < 2 ^ 41) && hit (a / 64)
    tags := if wide then tdel s0.tags (b / 4) else s0.tags
    given := tdel s0.given b
    hbmErr := tkeep (fun x => !hit x) s0.hbmErr }.setStack p { k with ue := satInc k.ue }
  s1.report { s1.stackReport p 0x0301 with injected := e.injected }

/-- HBM_SCRUB (R237): the scrubber of a live stack reads its next stored block, a compressed or erased unit's only once;
`wrong` bytes of it are found bad. [DESIGN CHOICE, log 75] -/
def execHbmScrub (stack : BitVec 5) (wrong : BitVec 3) (s : State) : Host.Outcome State Fault Refusal :=
  if s.stackCount ≤ 8 * (stack.toNat % 4) then .fault .noSuchUnit
  else
    let p := stack.toNat
    let k := s.stack p
    if s.panel.liveStacks.getLsbD p = false then .next s
    else
      let b := s.storedBlock (s.hbmAddrOf p k.scrubAt / 64)
      let old := tget {} s.hbmErr b
      let s0 := if old.bytes < wrong.toNat then { s with hbmErr := tset {} s.hbmErr b ⟨wrong.toNat, false⟩ } else s
      let s1 := match s.regionOwner (64 * b) with
        | some n => (checkBlock p n (s0, true) b).1
        | none => if (tget ({} : HbmErr) s0.hbmErr b).bytes ≤ 2 then (checkBlock p 0xFF (s0, true) b).1 else s0.eraseBlock p b
      let next := if tget .erased s.tags (b / 4) = .raw then k.scrubAt + 64 else (k.scrubAt / 256 + 1) * 256
      let wraps := decide (36 * 2 ^ 30 ≤ next)
      let s2 := s1.setStack p { s1.stack p with scrubAt := if wraps then 0 else next }
      let lastLive := (s.liveStacks.filter fun q => q / 4 == p / 4).foldl max 0
      let m := s2.msd (p / 4)
      .next (if wraps ∧ lastLive = p then s2.setMsd (p / 4) { m with passes := m.passes + 1 } else s2)

/-- HBM_TEMPERATURE_READOUT (R348, R350): 1/16 degrees; from 85 degrees on the request rate is halved. -/
def execHbmTemperatureReadout (stack : BitVec 5) (temp : Int) (s : State) : Host.Outcome State Fault Refusal :=
  if s.stackCount ≤ 8 * (stack.toNat % 4) then .fault .noSuchUnit
  else .next (s.setStack stack.toNat { s.stack stack.toNat with temp, throttled := decide (16 * 85 ≤ temp) })

/-! ### Culverts: R217-R221 -/

/-- R219, R220: a group's STATE by its live channels. -/
def Culv.settle (g : Culv) : Culv :=
  { g with state := if g.live = 0xFF then 1 else if g.live = 0 then 0 else 2 }

/-- R220: the group's last channel has parked: its packets are lost, and its traffic moves or its die is retired. -/
def State.groupDown (s : State) (d : Site) (k m : Nat) : State :=
  let g := s.culvert k m
  (s.setCulvert k m { g with inq := [], state := if facing m d then 3 else 0 }).culvertLoses k m g.inq

/-- R219: a channel parks. -/
def State.parkChannel (s : State) (d : Site) (k m : Nat) (chan : BitVec 3) : State :=
  let g := s.culvert k m
  let s1 := s.setCulvert k m { g with live := g.live &&& ~~~((1 : BitVec 8) <<< chan.toNat) }.settle
  let s2 := s1.report (s1.culvertReport k m 0x0303)
  if (s2.culvert k m).live = 0 then s2.groupDown d k m else s2

/-- R219: a live channel parks and relocks; while another of its group does so it waits. -/
def State.startRelock (s : State) (d : Site) (k m : Nat) (chan : BitVec 3) : State :=
  let g := s.culvert k m
  if g.live.getLsbD chan.toNat = false ∨ g.relockWait.contains chan then s
  else if g.relock.isSome then s.setCulvert k m { g with relockWait := g.relockWait ++ [chan] }
  else (s.setCulvert k m { g with relock := some chan, relocks := satInc g.relocks }).parkChannel d k m chan

/-- R217: the groups of a left-out site are parked. -/
def State.parkSite (s : State) (k : Nat) : State :=
  (List.range 8).foldl (fun (t : State) m =>
    t.setCulvert k m { t.culvert k m with live := 0, state := 0, relock := none, relockWait := [], inq := [] }) s

/-- R219, R364: every culvert channel of a site locks, but for those that cannot: these stay parked. -/
def State.lockSite (s : State) (k : Nat) (dead : List (Site × BitVec 3 × BitVec 3)) : State :=
  let s1 := (List.range 8).foldl (fun (t : State) m =>
    if (t.msd m).failed then t else t.setCulvert k m { t.culvert k m with live := 0xFF, state := 1 }) s
  (dead.filter fun e => siteKey e.1 = k ∧ (s1.msd e.2.1.toNat).failed = false).foldl (fun (t : State) e =>
    if (t.culvert k e.2.1.toNat).live.getLsbD e.2.2.toNat then t.parkChannel e.1 k e.2.1.toNat e.2.2 else t) s1

/-- CULVERT_REPLAY (R221): a flit fails its CRC the given number of times in a row; `chan` is the worst channel. -/
def execCulvertReplay (d : Site) (grp : BitVec 3) (chan : BitVec 3) (attempts : BitVec 3) (s : State) :
    Host.Outcome State Fault Refusal :=
  siteEvent d s fun s k =>
    let m := grp.toNat
    let g := s.culvert k m
    if g.state = 0 ∨ attempts = 0 then s
    else
      let s1 := s.setCulvert k m { g with retries := satInc g.retries (min 4 attempts.toNat) }
      if attempts.toNat < 4 ∨ g.live.getLsbD chan.toNat = false then s1 else s1.parkChannel d k m chan

/-- CULVERT_RELOCK (R219). -/
def execCulvertRelock (d : Site) (grp : BitVec 3) (chan : BitVec 3) (s : State) : Host.Outcome State Fault Refusal :=
  siteEvent d s fun s k => s.startRelock d k grp.toNat chan

/-- CULVERT_RELOCK_DONE (R219): the channel carries traffic again, or stays parked; the next one that waits begins. -/
def execCulvertRelockDone (d : Site) (grp : BitVec 3) (chan : BitVec 3) (locked : Bool) (s : State) :
    Host.Outcome State Fault Refusal :=
  siteEvent d s fun s k =>
    let m := grp.toNat
    let g := s.culvert k m
    if g.relock ≠ some chan then s
    else
      let s1 :=
        if locked then s.setCulvert k m { g with relock := none, live := g.live ||| ((1 : BitVec 8) <<< chan.toNat) }.settle
        else
          let s0 := s.setCulvert k m { g with relock := none }
          s0.report (s0.culvertReport k m 0x0303)
      match g.relockWait.dropWhile fun c => !(s1.culvert k m).live.getLsbD c.toNat with
      | [] => s1.setCulvert k m { s1.culvert k m with relockWait := [] }
      | next :: rest => (s1.setCulvert k m { s1.culvert k m with relockWait := rest }).startRelock d k m next

/-- REDUNDANT_LASER_SWITCH (R219): every channel that the laser feeds relocks, one at a time in each group. -/
def execRedundantLaserSwitch (feeds : List (Site × BitVec 3 × BitVec 3)) (s : State) :
    Host.Outcome State Fault Refusal :=
  .next (feeds.foldl (fun (s : State) f =>
    if s.siteOk f.1 then s.startRelock f.1 (siteKey f.1) f.2.1.toNat f.2.2 else s) s)

end Sys2Proof.Machine
end

