-- ==== Sys2Proof/Machine/Links.lean ====
section
/-!
DEFINITION. Ports between panels: training, frames, retry and lanes (R245-R249), keys (R247, R425), transit and arrival
(R251-R253, R258), and the sync ring with its messages (R260-R266).
-/

namespace Sys2Proof.Machine

/-! ### Port reports -/

/-- The IOD of a port and the port's number in it, as a report names them. -/
def State.portReport (s : State) (n : Nat) (source : BitVec 16) : Report :=
  { source, site := unitWord ⟨2, BitVec.ofNat 4 (n / 8), 15⟩, unit := BitVec.ofNat 16 (n % 8)
    detail := bytesOf 8 (s.port n).reg.toNat }

/-- The port carries traffic: up with 8 or 4 lanes. -/
def Port.up (p : Port) : Bool := p.state == 2 || p.state == 3

/-- The partition whose packet a flit slot carries. -/
def slotParts : LinkBody → List (BitVec 8)
  | .flit p _ => [p.part.setWidth 8]
  | .ack a => [a.part.setWidth 8]
  | .stream _ => []

/-- R248, R249: a port fails: every packet that it holds is lost. -/
def State.portFail (s : State) (n : Nat) : State :=
  let q := s.port n
  let parts := distinct ((q.txq ++ q.replay.flatMap (·.slots)).flatMap fun e => slotParts e.body)
  let s1 := s.setPort n { q with
    state := 5, txq := [], replay := [], resend := none, ctlOut := [], nak := false, inject := none, fails := 0, tagFails := 0 }
  State.reportParts (s1.portReport n 0x0402) parts s1

/-- An event of a port. -/
def portEvent (port : BitVec 6) (s : State) (body : State → Nat → Port → State) :
    Host.Outcome State Fault Refusal :=
  .next (body s port.toNat (s.port port.toNat))

/-! ### Arriving packets -/

/-- R265: the primary copies what arrives for the bound partition to the mirror port. -/
def State.mirrorCopy (s : State) (n : Option Nat) (fs : List LinkSlot) : State :=
  match n with
  | some q => if (s.shadow q).role = 1 then s.pushPort (s.shadow q).mirrorPort.toNat fs else s
  | none => s

/-- R265: the partition whose primary a panel holds: a shadow takes what is addressed to that panel as its own. -/
def State.shadowOf (s : State) (panel : BitVec 16) : Option Nat :=
  (List.range 16).find? fun n => (s.shadow n).role == 2 && (s.shadow n).peer == panel

/-- R251: what a link sinks is answered with 0x05, back to SPANEL. -/
def State.linkAnswer (s : State) (n : Nat) (p : Packet) : State :=
  if p.opcode = opReadResp ∨ p.opcode = opCompletion then s
  else if p.notify then s.ackPacket p 0x05
  else
    let a := pktAnswer p 0x05
    s.sendPort ((s.pktPort a).getD n) a

/-- R251: Velty records a misrouting. The manual gives its kind no number. [DESIGN CHOICE, log 38] -/
def State.misrouted (s : State) (n : Nat) : State :=
  s.record { kind := 0x0B, site := unitWord ⟨2, BitVec.ofNat 4 (n / 8), 15⟩, unit := BitVec.ofNat 16 (n % 8) }

/-- R251: the port of the same IOD by which a packet for another panel goes on; none where it would need class 4 or another
IOD, or where that port carries nothing. -/
def State.onward (s : State) (n cls : Nat) (p : Packet) : Option Nat :=
  match s.pktPort p with
  | some m => if cls < 3 ∧ m / 8 = n / 8 ∧ (s.port m).dead = false then some m else none
  | none => none

/-- R251, R252: a packet for another panel goes on in the next class, or is sunk. -/
def State.transit (s : State) (n cls : Nat) (p : Packet) : State :=
  match s.onward n cls p with
  | some m =>
    let c : BitVec 2 := BitVec.ofNat 2 (cls + 1)
    let tag : BitVec 64 := (p.linkTag &&& ~~~((3 : BitVec 64) <<< 32)) ||| (BitVec.ofNat 64 (cls + 1) <<< 32)
    s.pushPort m (pktSlots c (pktSeal { p with linkTag := tag }))
  | none => (s.misrouted n).linkAnswer n p

/-- R258: the receiving IOD expands a compressed payload; a result beyond the format follows the destination core's SAT. -/
def State.expanded (s : State) (p : Packet) : Packet :=
  match p.cmp with
  | some c =>
    let (bs, flags) := decodeStream c (s.core (pktTarget p)).sat p.payload
    { p with payload := bs, cmp := none, flags := p.flags ||| flags }
  | none => p

/-- R37, R251-R253, R258, R265: the receiving IOD takes a packet of this panel: it keeps the tag for the checks of R253 and
clears it in the header. The copies of a primary's packets are a shadow's own. [DESIGN CHOICE, log 38] -/
def State.linkArrive (s : State) (n cls : Nat) (p : Packet) : State :=
  let p1 := if (s.shadowOf p.dpanel).isSome then { p with dpanel := s.panel.panelId } else p
  if pktHeaderOk p = false then
    s.headerBad (s.attachCore n (pktTarget p)) p (!p.laneBad.getLsbD 0) (!p.laneBad.getLsbD 3)
  else if s.panel.panelId = 0xFFFF then s
  else if p1.dpanel ≠ s.panel.panelId then s.transit n cls p
  else
    let q := s.destPart p1
    let s1 := s.mirrorCopy q (pktSlots 0 p)
    let p2 := { s1.expanded p1 with
      linkTag := 0, link := none, home := BitVec.ofNat 4 (q.getD 0), via := some (BitVec.ofNat 6 n, p.linkTag) }
    s1.enter (s1.attachCore n (pktTarget p2)) 6 (pktSeal p2)

/-- R158, R251, R265: an ACK from another panel goes to its core, or on to its panel. -/
def State.ackArrive (s : State) (n cls : Nat) (a : AckMsg) : State :=
  let own := a.panel = some s.panel.panelId ∨ (a.panel.bind s.shadowOf).isSome
  if own then
    let q := s.partOfDie (a.y.toNat / 32) (a.x.toNat / 32)
    let s1 := s.mirrorCopy q [⟨.answer, 0, .ack a⟩]
    { s1 with acks := s1.acks ++ [{ a with panel := none }] }
  else
    match s.onward n cls { dpanel := a.panel.getD 0, srcX := a.x, srcY := a.y, offPanel := true } with
    | some m => s.pushPort m [⟨.answer, BitVec.ofNat 2 (cls + 1), .ack a⟩]
    | none => s.misrouted n

/-- R255, R256: the partition and the collector of the flume table that take a collector's stream from a port. -/
def State.streamEnd (s : State) (n : Nat) (x : StreamFlit) : Option (Nat × Nat) :=
  ((List.range 16).find? fun q =>
    (s.part q).tagOk x.tag && (s.part q).img.links.any fun l =>
      match l.kind with
      | .collector f up _ => f == x.flume && up == some (BitVec.ofNat 6 n)
      | _ => false).bind fun q => (s.flumeEntry (BitVec.ofNat 4 q) x.flume).map fun e => (q, e)

/-- R256, R258: words of a collector's stream from the upstream panel wait at the end corner; elements that were rounded to BF16
are binary32 again. [DESIGN CHOICE, log 38] -/
def State.streamArrive (s : State) (n : Nat) (x : StreamFlit) : State :=
  match s.streamEnd n x with
  | none => s
  | some (q, e) =>
    let (bs, flags) := match x.code with
      | some c =>
        let o := decodeStream c (s.core (flumeDst e)).sat x.data
        (if c.wide then o.1 else (pieces 2 o.1.length o.1).flatMap fun b => [0, 0] ++ b, o.2)
      | none => (x.data, 0)
    let key := 4096 * q + x.flume.toNat
    { s with linkIn := tpush s.linkIn key ((pieces 64 bs.length bs).map fun b => { data := b, flags := x.flags ||| flags }) }

/-- R246, R251: one flit slot of an accepted frame; a packet is whole with its last flit. -/
def State.slotArrive (s : State) (n : Nat) (f : LinkSlot) : State :=
  match f.body with
  | .flit p i => if i = linkFlits p then s.linkArrive n f.cls.toNat p else s
  | .ack a => s.ackArrive n f.cls.toNat a
  | .stream x => s.streamArrive n x

/-! ### Frames sent (R246-R248) -/

/-- The number of a channel among the credits. -/
def chanKey (chan : LinkChan) (cls : BitVec 2) : Nat :=
  4 * (match chan with
    | .request => 0
    | .answer => 1
    | .flume => 2) + cls.toNat

/-- R251: a channel has a credit. -/
def Port.credit (q : Port) (f : LinkSlot) : Bool :=
  let k := chanKey f.chan f.cls
  decide (tget 0 q.used k < Config.linkCredits (k / 4))

/-- The stream of a flume flit: the partition and the entry of its link flume, or 1024 for a collector's and in transit. -/
def slotStream (f : LinkSlot) : Nat :=
  match f.body with
  | .flit p _ => if f.cls = 0 then (p.link.map fun r => 64 * p.home.toNat + r.toNat).getD 1024 else 1024
  | _ => 1024

/-- R246, R251, R255: flits that fit into a frame, in their order: those of a pass that have a credit, at most as many of each
stream as its share gives. A channel from which one flit stays sends none of the later ones. -/
def takeSlots (pick : LinkSlot → Bool) (share : Nat → Nat) :
    List LinkSlot → Nat → List Nat → Tbl Nat → Port → List LinkSlot × List LinkSlot × Port
  | [], _, _, _, q => ([], [], q)
  | f :: rest, room, shut, spent, q =>
    let k := chanKey f.chan f.cls
    let st := slotStream f
    if pick f ∧ 0 < room ∧ shut.contains (1025 * k + st) = false ∧ q.credit f ∧ tget 0 spent st < share st then
      let o := takeSlots pick share rest (room - 1) shut (tset 0 spent st (tget 0 spent st + 1))
        { q with used := tset 0 q.used k (tget 0 q.used k + 1) }
      (f :: o.1, o.2.1, o.2.2)
    else
      let o := takeSlots pick share rest room ((1025 * k + st) :: shut) spent q
      (o.1, f :: o.2.1, o.2.2)

/-- R255: the flits of a frame that a stream's SHARE of its port gives it. -/
def State.shareOf (s : State) (st : Nat) : Nat :=
  match s.linkSpec (st / 64) (st % 64) with
  | some ⟨.flume _ _ share _ _ _ _ _, _⟩ => if st < 1024 then 2 * share.toNat else 0
  | _ => 0

/-- R246, R255: the 16 flits of the next frame: the shares of link flumes first, then requests and answers in their order,
then what flumes have left. [DESIGN CHOICE, log 38] -/
def State.fillFrame (s : State) (q : Port) : List LinkSlot × Port :=
  let flume (f : LinkSlot) : Bool := f.chan == .flume
  let a := takeSlots flume s.shareOf q.txq 16 [] [] q
  let b := takeSlots (fun f => !flume f) (fun _ => 16) a.2.1 (16 - a.1.length) [] [] a.2.2
  let c := takeSlots flume (fun _ => 16) b.2.1 (16 - a.1.length - b.1.length) [] [] b.2.2
  (a.1 ++ b.1 ++ c.1, { c.2.2 with txq := c.2.1 })

/-- R248: the replay buffer is 2 MiB: so many frames of 1,088 bytes. -/
def replayRoom : Nat := 2 ^ 21 / 1088

/-- R246-R248: the port sends its next frame: of a replay, or a new one, which may be idle. The frame takes one control
message, returns the credits owed and carries NAK. -/
def State.sendFrame (s : State) (n : Nat) : State :=
  let q := s.port n
  let q1 := { q with tx := { q.tx with count := q.tx.count + 1 }, nak := false, owed := [] }
  match q.resend.bind fun i => q.replay.find? fun f => f.seq = i with
  | some f =>
    s.setPort n { q1 with resend := if q.replay.any fun g => g.seq = f.seq + 1 then some (f.seq + 1) else none }
  | none =>
    if replayRoom ≤ q.replay.length then s.setPort n { q1 with resend := none }
    else
      let (slots, q2) := s.fillFrame q1
      s.setPort n { q2 with
        resend := none, replay := q2.replay ++ [⟨q2.txSeq, slots, q2.ctlOut.head?⟩], ctlOut := q2.ctlOut.drop 1
        txSeq := q2.txSeq + 1 }

/-! ### Frames received (R246-R248) -/

/-- R268: corrected codewords count in units of 2^16. -/
def Port.corrected (p : Port) (n : Nat) : Port :=
  let t := p.fecPart + n
  { p with fecPart := t % 2 ^ 16, fecCorr := satInc p.fecCorr (t / 2 ^ 16) }

/-- R394: what an armed injection makes of the next frame: FEC result, tag result, corrected codewords. -/
def Port.injected (p : Port) (f : Frame) : Bool × Bool × Nat :=
  match p.inject with
  | some (t, n) => if t = 3 then (f.fecOk && decide (n ≤ 15), f.tagOk, f.corrected.toNat + (if n ≤ 15 then 1 else 0))
                   else (f.fecOk, false, f.corrected.toNat)
  | none => (f.fecOk, f.tagOk, f.corrected.toNat)

/-- R248: a frame that is discarded: NAK is returned. The attempts of one frame that fail are counted; the 8th in a row fails
the port. A frame out of order is no attempt of the one expected. -/
def State.frameBad (s : State) (n : Nat) (q : Port) (f : Frame) (fecOk tagOk : Bool) : State :=
  let tagBad := fecOk && !tagOk
  let attempt := decide (f.seq = q.rxSeq) && !(fecOk && tagOk)
  let q1 := { q with
    nak := true, inject := none, tagFail := if tagBad then satInc q.tagFail else q.tagFail
    fails := q.fails + b2n attempt, tagFails := q.tagFails + b2n (attempt && tagBad) }
  let s1 := s.setPort n q1
  if q1.fails < 8 then s1
  else
    let s2 := s1.portFail n
    if q1.tagFails < 8 then s2
    else s2.record { kind := 0x0B, site := unitWord ⟨2, BitVec.ofNat 4 (n / 8), 15⟩, unit := BitVec.ofNat 16 (n % 8) }

/-- R248: NAK from the peer: the port replays from the frame that the peer expects. -/
def State.replayFrames (s : State) (n : Nat) (seq : Word) (injected : Bool) : State :=
  let q := s.port n
  let s1 := s.setPort n { q with retries := satInc q.retries, resend := some seq }
  s1.report { s1.portReport n 0x0401 with injected }

/-- R246, R251: credits that a frame returns, and credits for the flits that it brings. -/
def Port.credited (q : Port) (f : Frame) : Port :=
  { q with
    used := f.credits.foldl (fun t e => tset 0 t (chanKey e.1 e.2.1) (tget 0 t (chanKey e.1 e.2.1) - e.2.2)) q.used
    owed := f.slots.foldl (fun t e => tset 0 t (chanKey e.chan e.cls) (tget 0 t (chanKey e.chan e.cls) + 1)) q.owed }

/-- R248: a frame that is accepted: what it acknowledges leaves the replay buffer. -/
def State.frameGood (s : State) (n : Nat) (q : Port) (f : Frame) (corrected : Nat) : State :=
  let q1 := { (q.corrected corrected).credited f with
    rxSeq := q.rxSeq + 1, inject := none, fails := 0, tagFails := 0
    replay := q.replay.filter fun e => (e.seq - f.ackSeq).toNat < 2 ^ 31 }
  let s1 := s.setPort n q1
  let s2 := if f.nak then s1.replayFrames n f.ackSeq false else s1
  f.slots.foldl (fun (s : State) e => s.slotArrive n e) s2

/-- LINK_FRAME (R246-R253): a frame time of a port that is up and keyed: it sends a frame, and one arrives. [DESIGN CHOICE, log 7; DESIGN CHOICE, log 38; DESIGN CHOICE, log 62] -/
def execLinkFrame (port : BitVec 6) (f : Frame) (s : State) : Host.Outcome State Fault Refusal :=
  portEvent port s fun s n q =>
    if q.up = false ∨ q.keyed = false then s
    else
      let s1 := s.sendFrame n
      let q1 := { s1.port n with rx := { q.rx with count := q.rx.count + 1 } }
      let (fecOk, tagOk, corrected) := q1.injected f
      if fecOk ∧ tagOk ∧ f.seq = q.rxSeq then s1.frameGood n q1 f corrected else s1.frameBad n q1 f fecOk tagOk

/-- LANE_FAIL (R249): the port stalls and retrains on the half without the failed lane. -/
def execLaneFail (port : BitVec 6) (lane : BitVec 3) (s : State) : Host.Outcome State Fault Refusal :=
  portEvent port s fun s n q =>
    let low := decide (lane.toNat < 4)
    if q.up = false ∨ (q.half = 1 ∧ low = false) ∨ (q.half = 2 ∧ low = true) then s
    else
      let s1 := s.setPort n { q with state := 1, half := if low then 2 else 1, laneFail := satInc q.laneFail }
      s1.report (s1.portReport n 0x0401)

/-- LANE_RETRAIN_DONE (R249): the port resumes on four lanes, the frames of the replay buffer resent, or fails. -/
def execLaneRetrainDone (port : BitVec 6) (trained : Bool) (s : State) : Host.Outcome State Fault Refusal :=
  portEvent port s fun s n q =>
    if q.state ≠ 1 ∨ q.half = 0 then s
    else if trained then s.setPort n { q with state := 3, resend := q.replay.head?.map (·.seq) }
    else s.portFail n

/-- PORT_TRAINING (R245, R268): the port comes up and learns its peer. -/
def execPortTraining (port : BitVec 6) (peerPanel : BitVec 16) (peerPort : BitVec 6) (eight : Bool) (s : State) :
    Host.Outcome State Fault Refusal :=
  portEvent port s fun s n q =>
    if q.fused = false ∨ q.state ≠ 0 ∨ s.iodUp n = false then s
    else s.setPort n { q with state := if eight then 2 else 3, half := if eight then 0 else 1, peerPanel, peerPort }

/-- LINK_KEY_EXCHANGE (R425): keys come into force, or the failure is recorded. -/
def execLinkKeyExchange (port : BitVec 6) (peerOk : Bool) (s : State) : Host.Outcome State Fault Refusal :=
  portEvent port s fun s n q =>
    if q.up = false ∨ q.keyed then s
    else if peerOk then (s.setPort n (q.rekeyed s.free [])).tick
    else s.record { kind := 0x0B, site := unitWord ⟨2, BitVec.ofNat 4 (n / 8), 15⟩, unit := BitVec.ofNat 16 (n % 8) }

/-- R247: a direction has used its key for 2^32 frames. -/
def Port.worn (q : Port) : Bool := decide (2 ^ 32 ≤ q.tx.count) || decide (2 ^ 32 ≤ q.rx.count)

/-- R426: the link secret of the sealed partition whose group a port is keyed for. -/
def State.groupSecret (s : State) (g : Option (BitVec 16)) : List Byte :=
  ((List.range 16).findSome? fun n =>
    match (s.part n).bound, (s.part n).secrets with
    | some b, some k => if g = some b.group then some k.linkSecret else none
    | _, _ => none).getD []

/-- LINK_REKEY (R247, R425): new keys after 2^32 frames, with no frame lost. -/
def execLinkRekey (port : BitVec 6) (s : State) : Host.Outcome State Fault Refusal :=
  portEvent port s fun s n q =>
    if q.keyed ∧ q.worn then (s.setPort n (q.rekeyed s.free (s.groupSecret q.sealedGroup))).tick else s

/-! ### The sync ring -/

/-- R260: a message goes on round the ring. -/
def State.ringForward (s : State) (kind : RingKind) (m : RingMsg) : State :=
  if s.ring.state = 0 then s
  else { s with ring := { s.ring with forwarded := (kind, m) :: s.ring.forwarded.take 255 } }

/-- R260, R263: a pair of origin and sequence number is acted on once; none where it has been. -/
def State.ringTake (s : State) (m : RingMsg) : Option State :=
  if m.origin = s.panel.panelId ∨ s.ring.seen.contains (m.origin, m.seq) then none
  else some { s with ring := { s.ring with seen := (m.origin, m.seq) :: s.ring.seen.take 255 } }

/-- R260: what the ring does with a message that it brings: the origin removes its own, every other panel passes it on. -/
def State.ringReturn (s : State) (kind : RingKind) (m : RingMsg) : State :=
  if m.origin = s.panel.panelId then
    { s with ring := { s.ring with
        own := s.ring.own.filter fun e => !(decide (e.1 = kind) && e.2.seq == m.seq) } }
  else s.ringForward kind m

/-- A message at this panel, from the ring or from a port's control slot: acted on, or not. -/
def ringEvent (kind : RingKind) (m : RingMsg) (via : Option (BitVec 6)) (s : State) (act : State → State) :
    Host.Outcome State Fault Refusal :=
  let s1 := if via.isNone then s.ringReturn kind m else s
  .next (((s1.ringTake m).map act).getD s1)

/-- The partition bound to a message's group and epoch. -/
def State.boundPart (s : State) (m : RingMsg) : Option Nat :=
  (List.range 16).find? fun n =>
    match (s.part n).bound with
    | some b => b.group == m.group && b.epoch == m.epoch
    | none => false

/-- The barrier group of a message, in its generation. -/
def State.msgGroup (s : State) (m : RingMsg) : Option Nat :=
  (s.boundPart m).bind fun n =>
    (List.range 64).find? fun g =>
      let b := s.group g
      b.valid && b.multi && decide (b.part.toNat = n) && decide (b.index.toNat = m.barrier.toNat) && b.gen == m.gen

/-- ARRIVE (R262): at the root, or at a node of the tree toward it. -/
def execArrive (m : RingMsg) (via : Option (BitVec 6)) (ticks : BitVec 64) (s : State) : Host.Outcome State Fault Refusal :=
  ringEvent .arrive m via s fun s =>
    match s.msgGroup m with
    | none => s
    | some g =>
      let b := s.group g
      let gb := (s.part b.part.toNat).bound
      let mine := match gb with
        | some x => x.tree.isSome || decide (x.root = s.panel.panelId)
        | none => false
      let root := match gb with
        | some x => decide (x.root = s.panel.panelId)
        | none => false
      if mine = false ∨ b.panelsIn.contains m.origin then s
      else
        (s.setGroup g { b.stamp ticks with
          panelsIn := b.panelsIn ++ [m.origin], panel := if root then m.origin else b.panel }).multiArrived g

/-- RELEASE (R262, R265): the hub releases its local members, or withholds the release (R205); a shadow waits for its
own arrivals. -/
def execRelease (m : RingMsg) (via : Option (BitVec 6)) (s : State) : Host.Outcome State Fault Refusal :=
  ringEvent .release m via s fun s =>
    match s.msgGroup m with
    | none => s
    | some g =>
      let b := s.group g
      let down := match (s.part b.part.toNat).bound with
        | some x => (x.tree.map Prod.snd).getD []
        | none => []
      let s1 := down.foldl (fun (s : State) p => s.portSend p .release m) s
      if b.pending = 0 ∧ b.arrivedDies ≠ [] then
        (if s1.withholds b.part.toNat then s1.withhold g else s1.releaseMulti g)
      else if s.isShadow b.part.toNat then s1.setGroup g { b with releaseIn := true }
      else s1

/-- R389: DETAIL of a token. -/
def tokenDetail (m : RingMsg) : List Byte :=
  bytesOf 2 m.origin.toNat ++ bytesOf 4 m.seq.toNat ++ bytesOf 2 m.reason.toNat

/-- ABORT_TOKEN (R263, R265): forwarded on every port and the ring except the one that it came from, and the matching bound
partition aborts. -/
def execAbortToken (m : RingMsg) (via : Option (BitVec 6)) (s : State) : Host.Outcome State Fault Refusal :=
  ringEvent .abort m via s fun s =>
    let ports := s.livePorts.filter fun p => via.map (·.toNat) ≠ some p
    let s0 := ports.foldl (fun (s : State) p => s.portSend p .abort m) s
    let s1 := if via.isSome then s0.ringForward .abort m else s0
    match s1.boundPart m with
    | none => s1
    | some n =>
      let r : Report :=
        { source := 0x0403, part := BitVec.ofNat 8 n, job := s1.partJob n, status := 0x0318, detail := tokenDetail m }
      if (s1.part n).state.hasJob || s1.faults.any (fun f => f.covers r) then s1.acceptOwn r else s1

/-- DIGEST (R266): the primary's sum for a window. -/
def execDigest (m : RingMsg) (s : State) : Host.Outcome State Fault Refusal :=
  ringEvent .digest m none s fun s =>
    match s.boundPart m with
    | none => s
    | some n =>
      let sh := s.shadow n
      if sh.role ≠ 2 then s
      else
        match sh.closed.find? fun e => e.1 = m.gen with
        | some e => (s.setShadow n { sh with closed := eraseOne e sh.closed }).compareWindow n e.2 m.sum
        | none => s.setShadow n { sh with peerSums := sh.peerSums ++ [(m.gen, m.sum)] }

/-- R267: DETAIL of a RING_JOIN's reply: PANELS, then CIRCUIT. -/
def joinDetail (m : RingMsg) : List Byte := bytesOf 2 m.panels.toNat ++ bytesOf 4 m.circuit.toNat

/-- HEARTBEAT (R260, R267): back at its origin it has completed a circuit; every other panel counts itself and passes it
on. -/
def execHeartbeat (m : RingMsg) (s : State) : Host.Outcome State Fault Refusal :=
  if s.ring.state = 0 then .next s
  else if m.origin = s.panel.panelId then
    let s1 := s.ringReturn .heartbeat m
    let s2 := { s1 with ring := { s1.ring with state := 2, panels := m.panels, circuit := m.circuit, joining := [] } }
    .next (s1.ring.joining.foldl (fun (s : State) h => s.answer h stOk (joinDetail m)) s2)
  else
    .next (s.ringForward .heartbeat { m with panels := m.panels + 1 })

/-- RING_RESEND (R260): every 100 us the messages that have not come back round are resent. -/
def execRingResend (s : State) : Host.Outcome State Fault Refusal :=
  if s.ring.state = 0 then .next s
  else .next { s with ring := { s.ring with resends := satInc s.ring.resends s.ring.own.length } }

/-- RING_DOWN (R261). -/
def execRingDown (s : State) : Host.Outcome State Fault Refusal :=
  if s.ring.state = 0 then .next s else .next { s with ring := { s.ring with state := 3 } }

end Sys2Proof.Machine
end

