-- ==== Sys2Proof/Machine/LinkCommands.lean ====
section
/-!
DEFINITION. The inter-panel commands (R267) with R37, R250, R253, R261, R265, R426 and R432. The management port accepts
none of them.
-/

namespace Sys2Proof.Machine

/-- R286: an invalid field of the command. -/
def State.badField (s : State) (h : Cmd) (off : Nat) : State := s.answer h stField (fieldDetail off)

/-- A command's output, at most `len` bytes of it, with DETAIL 15:12 giving the bytes written. -/
def State.deliverBytes (s : State) (h : Cmd) (addr : Reg64) (len : Word) (data : List Byte) : State :=
  let out := data.take len.toNat
  s.deliver h addr.toNat len.toNat out (bytesOf 4 out.length)

/-- PANEL_ID_SET (R37, R267). -/
def execPanelIdSet (h : Cmd) (id : BitVec 16) (lock : Bool) (s : State) : Host.Outcome State Fault Refusal :=
  command h (gateOf 0x0901) s (asks := fun s =>
    { refused := if s.panel.idLock then some (stState, []) else none, field := firstBad [(id == 0xFFFF, 16)] }) fun s =>
    let s1 := s.writeId id.toNat lock
    s1.answer h stOk (bytesOf 2 s1.panel.panelId.toNat)

/-! ### The route table -/

/-- R250: no partition that is bound to a panel group has a job. -/
def State.routesFree (s : State) : Bool :=
  (List.range 16).all fun n =>
    let p := s.part n
    p.bound.isNone || decide (p.state = .free) || decide (p.state = .idle) || decide (p.state = .ending)

/-- R267: an 8-byte route record is well formed and names ports that are fused in. -/
def State.routeOk (s : State) (r : List Byte) : Bool :=
  let n := fieldOf r 2 1
  decide (n ≤ 4) && (fieldOf r 3 1 == 0) &&
    (List.range 4).all fun i =>
      let p := fieldOf r (4 + i) 1
      if i < n then decide (p < 64) && (s.port p).fused else p == 0

/-- R250: write one route record. -/
def Panel.route (p : Panel) (r : List Byte) : Panel :=
  let ports := (List.range (fieldOf r 2 1)).map fun i => BitVec.ofNat 6 (fieldOf r (4 + i) 1)
  { p with routes := tset [] p.routes (fieldOf r 0 2 % 4096) ports }

/-- ROUTE_WRITE (R250, R267). -/
def execRouteWrite (h : Cmd) (addr : Reg64) (len : Word) (s : State) : Host.Outcome State Fault Refusal :=
  command h (gateOf 0x0902) s (asks := fun s =>
    { refused := if s.routesFree then none else some (stState, []), field := firstBad [(len.toNat % 8 != 0, 24)] }) fun s =>
    match s.input h addr.toNat len.toNat with
    | none => s.answer h stHost
    | some bs =>
      let rs := pieces 8 bs.length bs
      if (rs.all s.routeOk) = false then s.badField h 16
      else (s.onPanel fun p => rs.foldl Panel.route p).answer h stOk (bytesOf 4 rs.length)

/-! ### Panel groups -/

/-- R426: the ports that the route table names. -/
def State.routePorts (s : State) : List Nat :=
  distinct ((s.panel.routes.flatMap fun e => e.2).map (·.toNat))

/-- R426: one port is rekeyed with the link secret when both sides hold it. -/
def sealPort (group : BitVec 16) (secret : List Byte) (s : State) (n : Nat) : State :=
  if Config.linkSecretMatches s.free then
    (s.setPort n { (s.port n).rekeyed s.free secret with sealedGroup := some group }).tick
  else s.tick

/-- R267: the tree record's ports are in range. -/
def treeOk (bs : List Byte) : Bool :=
  let up := fieldOf bs 0 1
  let n := fieldOf bs 1 1
  (decide (up < 64) || up == 0xFF) && decide (n ≤ 62) && ((bs.drop 2).take n).all fun p => decide (p.toNat < 64)

/-- R253, R426: the binding. -/
def State.bindGroup (s : State) (h : Cmd) (b : GroupBinding) : State :=
  let n := h.part.toNat
  let s1 := s.onPart n fun p => { p with bound := some b }
  let s2 := match (s.part n).secrets with
    | some k => s1.routePorts.foldl (sealPort b.group k.linkSecret) s1
    | none => s1
  let keyed := ((List.range 64).filter fun p => (s2.port p).sealedGroup = some b.group).length
  s2.answer h stOk (bytesOf 2 keyed)

/-- GROUP_BIND (R253, R267, R426). -/
def execGroupBind (h : Cmd) (group epoch root : BitVec 16) (tree : Bool) (addr : Reg64) (len : Word) (s : State) :
    Host.Outcome State Fault Refusal :=
  command h (gateOf 0x0903) s (asks := fun _ =>
    { field := firstBad [(len.toNat != if tree then 64 else 0, 32)] }) fun s =>
    let taken := (s.part h.part.toNat).secrets.isSome &&
      s.routePorts.any fun p => (s.port p).sealedGroup.isSome && (s.port p).sealedGroup != some group
    match (if tree then s.input h addr.toNat len.toNat else some []) with
    | none => s.answer h stHost
    | some bs =>
      if tree ∧ treeOk bs = false then s.badField h 24
      else if taken then s.answer h stResources
      else s.bindGroup h ⟨group, epoch, root, bs⟩

/-- GROUP_UNBIND (R267, R426). -/
def execGroupUnbind (h : Cmd) (s : State) : Host.Outcome State Fault Refusal :=
  command h (gateOf 0x0904) s fun s =>
    let n := h.part.toNat
    let s1 := s.endSealing n
    (s1.onPart n fun p => { p with bound := none }).answer h stOk

/-! ### The ring -/

/-- RING_JOIN (R261, R267): the bypass opens; the reply comes with a completed circuit or after 100 ms. -/
def execRingJoin (h : Cmd) (s : State) : Host.Outcome State Fault Refusal :=
  command h (gateOf 0x0905) s fun s =>
    let r := s.ring
    let hb : RingMsg :=
      { origin := s.panel.panelId, seq := r.seq, group := 0, epoch := 0, barrier := 0, gen := 0, sum := 0, reason := 0
        panels := 1, circuit := 0 }
    { s with ring := { r with
        state := if r.state = 2 then 2 else 1
        joining := r.joining ++ [h], seq := r.seq + 1, own := r.own ++ [(.heartbeat, hb)] } }

/-- RING_JOIN_TIMEOUT (R267): no circuit within 100 ms. -/
def execRingJoinTimeout (h : Cmd) (s : State) : Host.Outcome State Fault Refusal :=
  if s.ring.joining.contains h = false then .next s
  else .next (({ s with ring := { s.ring with state := 3, joining := eraseOne h s.ring.joining } }).answer h stOk)

/-- R261, R286: the bypass closes; a RING_JOIN that waits for a circuit is stopped. -/
def State.closeBypass (s : State) : State :=
  s.ring.joining.foldl (fun (s : State) h => s.answer h stStopped)
    { s with ring := { s.ring with state := 0, own := [], forwarded := [], joining := [] } }

/-- RING_LEAVE (R261, R267): the bypass closes. -/
def execRingLeave (h : Cmd) (s : State) : Host.Outcome State Fault Refusal :=
  command h (gateOf 0x0906) s fun s =>
    s.closeBypass.answer h stOk

/-! ### Shadows and ports -/

/-- SHADOW_BIND (R265, R267, R432); a shadow of another shape than its primary is refused. [DESIGN CHOICE, log 38] -/
def execShadowBind (h : Cmd) (role : BitVec 8) (peer : BitVec 16) (peerPart mirrorPort digestGroup : BitVec 8)
    (s : State) : Host.Outcome State Fault Refusal :=
  command h (gateOf 0x0907) s (asks := fun s =>
    let p := s.part h.part.toNat
    { refused := if (role ≠ 0 ∧ p.bound.isNone) ∨ (role = 2 ∧ Config.peerShape peer peerPart ≠ (p.rows, p.cols)) then
        some (stState, []) else none
      field := firstBad [(decide (2 < role.toNat), 16), (role != 0 && decide (16 ≤ peerPart.toNat), 19),
        (role == 1 && decide (64 ≤ mirrorPort.toNat), 20)] }) fun s =>
    let n := h.part.toNat
    let sh : Shadow := if role = 0 then {} else { role := role.setWidth 2, peer, peerPart, mirrorPort, digestGroup }
    ({ s.setShadow n sh with shadowShown := n }).answer h stOk

/-- PORT_READ (R267). -/
def execPortRead (h : Cmd) (addr : Reg64) (len : Word) (s : State) : Host.Outcome State Fault Refusal :=
  command h (gateOf 0x0908) s fun s =>
    s.deliverBytes h addr len ((List.range 64).flatMap fun n =>
      bytesOf 8 (s.port n).reg.toNat ++ bytesOf 8 (s.port n).errReg.toNat)

end Sys2Proof.Machine
end

