-- ==== Sys2Proof/Machine/Commands.lean ====
section
/-!
DEFINITION. The command interface: control-core pairs and host links (R270-R274), queues, doorbells and fetch
(R277-R283), and the commands of R288 and R290: panel information, queues, partitions, flumes, memory and registers.
-/

namespace Sys2Proof.Machine

/-! ### Control-core pairs (R270, R271) -/

/-- The pair that takes over a role: a spare one, or the pair whose role stands lowest in the table. -/
def Panel.takeover (p : Panel) : Option (BitVec 3) :=
  let alive (x : BitVec 3) : Bool := !p.deadPairs.contains x
  match ([6, 7] : List (BitVec 3)).find? fun x => alive x && !p.roles.contains (some x) with
  | some x => some x
  | none => (p.roles.reverse.filterMap id).find? alive

/-- The roles of a stopped pair move. -/
def Panel.moveRoles (p : Panel) (pair : BitVec 3) : Panel :=
  let p1 := { p with deadPairs := p.deadPairs ++ [pair] }
  { p1 with roles := p1.roles.map fun r => if r = some pair then p1.takeover else r }

/-- A command that waits for an event or for a later step. -/
def State.isHeld (s : State) (h : Cmd) : Bool :=
  s.waiters.any (fun w => w.2 = h) || s.ring.joining.contains h ||
    s.parts.any fun e => decide (e.2.loading = some h) || e.2.loadWait.any fun w => w.h = h

/-- Commands in execution. -/
def State.startedCmds (s : State) (hostToo mgmtToo : Bool) : List Cmd :=
  (if hostToo then
    [false, true].flatMap fun h => (s.host h).queues.flatMap fun e =>
      e.2.started.map fun x => cmdOf (.host h) (BitVec.ofNat 4 e.1) x.1 x.2
  else []) ++
  (if mgmtToo then s.mgmtStarted.map fun x => { cmdOf .mgmt 0 0 x.1 with payload := x.2 } else [])

/-- R271: commands that a stopped pair was executing end with 0x000A; what goes on of them gives no second reply. -/
def State.loseCommands (s : State) (lost : List Cmd) : State :=
  let s1 := lost.foldl (fun (s : State) h => s.answer h stLost) s
  { s1 with fetched := s1.fetched.filter fun e => !lost.contains e.1 }.mute fun h => lost.contains h

/-- R271: the loads that the job sequencer's pair was executing end, undone. -/
def State.loseLoads (s : State) : State :=
  (List.range 16).foldl (fun (s : State) n =>
    match (s.part n).loading with
    | some h => ((s.onPart n fun p => { p with loading := none }).endSteps n).answer h stLost
    | none => s) s

/-- R271: a RING_JOIN that the links' pair was executing ends; the bypass stays open. -/
def State.loseJoins (s : State) : State :=
  s.ring.joining.foldl (fun (s : State) h => s.answer h stLost) { s with ring := { s.ring with joining := [] } }

/-- PAIR_MISCOMPARE (R271): the pair of the host service, or of the management port, executes the commands that neither the
job sequencer nor the links hold; a wait command waits on. [DEDUCED, log 54] -/
def execPairMiscompare (pair : BitVec 3) (s : State) : Host.Outcome State Fault Refusal :=
  let p := s.panel
  if p.deadPairs.contains pair then .next s
  else
    let had (r : Nat) : Bool := decide (nth none p.roles r = some pair)
    let s1 := s.onPanel fun p => p.moveRoles pair
    let r : Report := { source := 0x0601, site := unitWord ⟨3, 0, 15⟩, unit := pair.setWidth 16 }
    let s2 := s1.acceptOwn r
    let s3 := if p.roles.contains (some pair) then s2.recordKind 0x0E (bytesOf 1 pair.toNat) else s2
    let s4 := s3.loseCommands ((s3.startedCmds (had 0) (had 5)).filter fun h => !s3.isHeld h)
    let s5 := if had 1 then s4.loseLoads else s4
    let s6 := if had 4 then s5.loseJoins else s5
    let s7 := if had 1 ∧ nth none s6.panel.roles 1 = none then s6.acceptOwn { r with source := 0x0602 } else s6
    .next (if had 0 ∧ nth none s7.panel.roles 0 = none then s7.acceptOwn { r with source := 0x0603 } else s7)

/-- R274: the host die is cut off: its commands in flight are lost. A load in flight goes no further, and its partition stays
Loading. -/
def State.cutHost (s : State) (host : Bool) : State :=
  let mine (h : Cmd) : Bool := h.origin = .host host
  let h := s.host host
  let s1 := s.setHost host { h with
    cut := true, queues := tmap {} (fun _ q => { q with started := [], heldReplies := [] }) h.queues }
  { s1 with
    waiters := s.waiters.filter fun w => !mine w.2
    fetched := s.fetched.filter fun e => !mine e.1
    ring := { s.ring with joining := s.ring.joining.filter fun h => !mine h }
    parts := tmap {} (fun _ p => { p with
      loading := p.loading.filter fun h => !mine h, loadWait := p.loadWait.filter fun w => !mine w.h }) s.parts }.mute mine

/-- HOST_LINK_DEGRADE (R274). -/
def execHostLinkDegrade (host : Bool) (both : Bool) (s : State) : Host.Outcome State Fault Refusal :=
  let h := s.host host
  if both then .next (s.cutHost host)
  else if h.oneMod then .next s
  else
    .next ((s.setHost host { h with oneMod := true }).acceptOwn
      { source := 0x0604, site := unitWord ⟨4, BitVec.ofNat 4 (b2n host), 15⟩ })

/-! ### Queue pairs (R277, R278) -/

/-- R278: a pair is deleted: its commands that have started run to completion and take effect, without a reply. -/
def State.forgetPair (s : State) (host : Bool) (q : BitVec 4) : State :=
  (s.onPair host q fun _ => {}).mute fun h => decide (h.origin = .host host ∧ h.queue = q)

/-- R277, R278: the sizes and bases of a pair. -/
def pairOk (sqBase sqLog2 rqBase rqLog2 : Nat) : Bool :=
  decide (sqBase % 4096 = 0) && decide (rqBase % 4096 = 0) && decide (4 ≤ sqLog2) && decide (sqLog2 ≤ 12) &&
    decide (4 ≤ rqLog2) && decide (rqLog2 ≤ 12) && decide (sqLog2 ≤ rqLog2)

/-- R277: a write of `HWD_HAP_ADMSQ`. -/
def State.writeAdmSq (s : State) (host : Bool) (value : Reg64) : State :=
  let v := value.toNat
  let h := s.host host
  let kept : Reg64 := value &&& 0x800FFFFFFFFFFFFF
  if bit v 63 = false then (s.setHost host { h with admSq := kept }).forgetPair host 0
  else
    let sqBase := bits v 0 48
    let sqLog2 := bits v 48 4
    let rqBase := bits h.admRq.toNat 0 48
    let rqLog2 := bits h.admRq.toNat 48 4
    if pairOk sqBase sqLog2 rqBase rqLog2 then
      ((s.setHost host { h with admSq := kept, admErr := false }).forgetPair host 0).onPair host 0 fun _ =>
        { valid := true, sqBase := BitVec.ofNat 64 sqBase, sqLog2, rqBase := BitVec.ofNat 64 rqBase, rqLog2 }
    else s.setHost host { h with admSq := kept, admErr := true }

/-- ADMIN_QUEUE_CREATE (R277): a write of ENABLE = 1. [DEDUCED, log 54] -/
def execAdminQueueCreate (host : Bool) (value : Reg64) (s : State) : Host.Outcome State Fault Refusal :=
  .next (s.writeAdmSq host (value ||| 0x8000000000000000))

/-- ADMIN_QUEUE_DELETE (R278): a write of ENABLE = 0. [DEDUCED, log 54] -/
def execAdminQueueDelete (host : Bool) (value : Reg64) (s : State) : Host.Outcome State Fault Refusal :=
  .next (s.writeAdmSq host (value &&& 0x7FFFFFFFFFFFFFFF))

/-- The commands of a pair that have not been fetched. -/
def QPair.waiting (q : QPair) : Nat := (q.tail + 2 ^ q.sqLog2 - q.head) % 2 ^ q.sqLog2

/-- SQ_DOORBELL (R279): a new tail; one beyond the queue, or one that passes the head, is ignored and recorded. -/
def execSqDoorbell (host : Bool) (queue : BitVec 4) (value : Reg64) (s : State) : Host.Outcome State Fault Refusal :=
  let h := s.host host
  let q := h.pair queue
  let t := bits value.toNat 0 12
  if h.ready = false ∨ h.cut ∨ q.valid = false then .next s
  else if 2 ^ q.sqLog2 ≤ t ∨ { q with tail := t }.waiting < q.waiting then
    .next (s.setHost host { h with badTails := h.badTails + 1 })
  else .next (s.onPair host queue fun q => { q with tail := t })

/-- R283: held replies are written while the reply queue has room, by fuel. -/
def State.flushReplies (s : State) (host : Bool) (queue : BitVec 4) : Nat → State
  | 0 => s
  | fuel + 1 =>
    let q := (s.host host).pair queue
    match q.heldReplies with
    | [] => s
    | r :: rest =>
      if s.replyRoom host queue = false then s
      else
        ((s.onPair host queue fun q => { q with heldReplies := rest }).writeReply host queue r).flushReplies host queue fuel

/-- RQ_DOORBELL (R279 step 4, R283): the entries before HEAD are free. -/
def execRqDoorbell (host : Bool) (queue : BitVec 4) (value : Reg64) (s : State) : Host.Outcome State Fault Refusal :=
  let h := s.host host
  let q := h.pair queue
  let head := bits value.toNat 0 12
  if h.ready = false ∨ h.cut ∨ q.valid = false ∨ 2 ^ q.rqLog2 ≤ head then .next s
  else
    let freed := min q.unfreed ((head + 2 ^ q.rqLog2 - q.rqHead) % 2 ^ q.rqLog2)
    .next ((s.onPair host queue fun q => { q with rqHead := head, unfreed := q.unfreed - freed }).flushReplies host queue
      q.heldReplies.length)

/-! ### Fetch (R279, R282) -/

/-- R279: commands of a host die in execution, wait commands not counted. -/
def State.executing (s : State) (host : Bool) : Nat :=
  ((s.host host).queues.map fun e => e.2.started.length).sum - s.waitCount (.host host)

/-- R275, R279, R283: Velty can fetch from a queue. -/
def State.canFetch (s : State) (host : Bool) (queue : BitVec 4) : Bool :=
  let h := s.host host
  let q := h.pair queue
  h.ready && !h.cut && q.valid && decide (0 < q.waiting) && decide (q.heldReplies = []) &&
    decide (q.unfreed < 2 ^ q.rqLog2) && decide (s.executing host < 64) &&
    s.dmaOk host (q.sqBase.toNat + 64 * q.head) 64

/-- R279: the queue whose turn it is; queue q of host die h is number 16h + q. -/
def State.fetchTurn (s : State) : Option Nat :=
  ((List.range 32).map fun i => (s.panel.fetchNext + i) % 32).find? fun i =>
    s.canFetch (decide (16 ≤ i)) (BitVec.ofNat 4 i)

/-- R382, R428: the first parameter whose value names none of the operations of PANEL_RESET, DIE_RESET, RETIRE or DEBUG. [DEDUCED, log 17] -/
def formAt (b : List Byte) (op : Nat) : Option Nat :=
  let v (i : Nat) : Nat := fieldOf b i 1
  match op with
  | 0x0A04 => if 2 ≤ v 16 then some 16 else none
  | 0x0A05 => if 16 ≤ v 16 then some 16 else if 16 ≤ v 17 then some 17 else if 2 ≤ v 18 then some 18 else none
  | 0x0A06 => if 16 ≤ v 16 then some 16 else if 16 ≤ v 17 then some 17 else none
  | 0x0708 => if 4 ≤ v 16 then some 16 else none
  | _ => none

/-- R286: the answer to a command that names no opcode, or none of the operations of its opcode. [DEDUCED, log 17] -/
def State.refuseRaw (s : State) (h : Cmd) (b : List Byte) : State :=
  let op := fieldOf b 0 2
  if paramEnd op = 0 then s.answer h stOpcode
  else
    match s.refusal h (gateOf op) with
    | some (st, detail) => s.answer h st detail
    | none => s.answer h stField (fieldDetail ((badFieldOf h (formAt b op)).getD 16))

/-- R279 step 1: fetch entries from the head up to the tail, at most `fuel` of them. An ORDERED command waits until every
earlier one of its queue has replied, and the commands behind it wait with it (R282). [DESIGN CHOICE, log 16] -/
def State.fetchSome (s : State) (host : Bool) (queue : BitVec 4) : Nat → State
  | 0 => s
  | fuel + 1 =>
    let q := (s.host host).pair queue
    let b := s.hostBytes host (q.sqBase.toNat + 64 * q.head) 64
    let head := (q.head + 1) % 2 ^ q.sqLog2
    let h := cmdOf (.host host) queue head b
    if s.canFetch host queue = false ∨ (h.ordered ∧ q.started ≠ []) then s
    else
      let s1 := s.onPair host queue fun q => { q with head, started := q.started ++ [(head, b)] }
      { s1 with fetched := s1.fetched ++ [(h, b)] }.fetchSome host queue fuel

/-- COMMAND_FETCH (R279): up to 8 commands of the queue whose turn it is. -/
def execCommandFetch (host : Bool) (queue : BitVec 4) (s : State) : Host.Outcome State Fault Refusal :=
  let i := 16 * b2n host + queue.toNat
  if s.fetchTurn ≠ some i then .next s
  else .next ((s.onPanel fun p => { p with fetchNext := (i + 1) % 32 }).fetchSome host queue 8)

/-! ### R288 -/

/-- R39: logical coordinates of the cores of indices on present dies, by site. -/
def State.holeCores (s : State) (l : List (Nat × Nat)) : List Nat :=
  l.flatMap fun e =>
    match (s.coreAt e.1 e.2).filter fun c => (s.dieOf c).isSome with
    | some c => [c.x.toNat, c.y.toNat]
    | none => []

/-- R39, R288, R366, R452: what the panel information block lists, section by section: the identity, the site maps, the HBM
configuration, the fused ports, the partitions, the retired cores, the retired regions by their first core, the failed
weirs by physical site, and the routers that no longer combine. -/
def State.panelFacts (s : State) : List (List Nat) :=
  [[s.panel.idReg.toNat], (List.range 12).map fun r => (s.panelReg (0x1000 + 8 * r)).toNat,
    [(s.dieReg 0 0x800500).toNat], (List.range 64).map fun n => b2n (s.port n).fused,
    (List.range 16).flatMap fun n =>
      let p := s.part n
      [p.state.code, b2n p.owner, p.row, p.col, p.rows, p.cols],
    s.holeCores (s.flash.retCores.map fun e => (siteKey e.1, e.2.toNat)),
    s.holeCores (s.flash.retRegions.map fun e => (siteKey e.1, 128 * (e.2.toNat / 8) + 4 * (e.2.toNat % 8))),
    s.flash.weirs.flatMap fun w => [w.row.toNat, w.col.toNat],
    s.holeCores (s.dies.flatMap fun e => e.2.noCombine.map fun i => (e.1, i.toNat))]

/-- R288: the panel information block. [DESIGN CHOICE, log 15] -/
def State.panelBlock (s : State) : List Byte := Config.panelInfoLayout s.panelFacts

/-- PANEL_INFO (R288). -/
def execPanelInfo (h : Cmd) (addr : Reg64) (len : Word) (s : State) : Host.Outcome State Fault Refusal :=
  command h (gateOf 0x0101) s fun s => s.deliverBytes h addr len s.panelBlock

/-- The host die of a command. -/
def secondHost (h : Cmd) : Bool := h.origin = .host true

/-- QUEUE_CREATE (R275, R277, R278, R288): both queues lie in the DMA window. -/
def execQueueCreate (h : Cmd) (pair sqLog2 rqLog2 : BitVec 8) (sqBase rqBase : Reg64) (s : State) :
    Host.Outcome State Fault Refusal :=
  command h (gateOf 0x0102) s (asks := fun s =>
    { field := firstBad [
        (pair == 0 || decide (16 ≤ pair.toNat) || ((s.host (secondHost h)).pair (BitVec.ofNat 4 pair.toNat)).valid, 16),
        (decide (sqLog2.toNat < 4) || decide (12 < sqLog2.toNat), 17),
        (decide (rqLog2.toNat < sqLog2.toNat) || decide (12 < rqLog2.toNat), 18),
        (sqBase.toNat % 4096 != 0, 24), (rqBase.toNat % 4096 != 0, 32)] }) fun s =>
    let q : BitVec 4 := BitVec.ofNat 4 pair.toNat
    if s.dmaOk (secondHost h) sqBase.toNat (64 * 2 ^ sqLog2.toNat) = false ∨
        s.dmaOk (secondHost h) rqBase.toNat (32 * 2 ^ rqLog2.toNat) = false then s.answer h stHost
    else
      (s.onPair (secondHost h) q fun _ =>
        { valid := true, sqBase, sqLog2 := sqLog2.toNat, rqBase, rqLog2 := rqLog2.toNat }).answer h stOk

/-- QUEUE_DELETE (R278, R288): of any pair but the one that carries it. -/
def execQueueDelete (h : Cmd) (pair : BitVec 8) (s : State) : Host.Outcome State Fault Refusal :=
  command h (gateOf 0x0103) s (asks := fun s =>
    { field := firstBad [(decide (16 ≤ pair.toNat) || BitVec.ofNat 4 pair.toNat == h.queue ||
        !((s.host (secondHost h)).pair (BitVec.ofNat 4 pair.toNat)).valid, 16)] }) fun s =>
    let q : BitVec 4 := BitVec.ofNat 4 pair.toNat
    let x := (s.host (secondHost h)).pair q
    (s.forgetPair (secondHost h) q).answer h stOk (bytesOf 4 x.waiting ++ bytesOf 4 x.started.length)

/-- R288, R432: whether a rectangle can become a partition: inside the grid, over no partition, with no absent die. -/
def State.rectOk (s : State) (row col rows cols : Nat) : Bool :=
  decide (row + rows ≤ 12) && decide (col + cols ≤ s.lcols) &&
    (List.range rows).all fun r => (List.range cols).all fun c =>
      (match s.dieAt (row + r) (col + c) with | some d => !(s.die d).retired | none => false) && (s.partOfDie (row + r) (col + c)).isNone

/-- PART_CREATE (R285, R288, R432). -/
def execPartCreate (h : Cmd) (row col rows cols : BitVec 8) (s : State) : Host.Outcome State Fault Refusal :=
  command h (gateOf 0x0201) s (asks := fun s =>
    { refused := if s.rectOk row.toNat col.toNat rows.toNat cols.toNat then none else some (stState, [])
      field := firstBad [(rows == 0, 18), (cols == 0, 19)] }) fun s =>
    match (List.range 16).find? fun n => (s.part n).state = .free with
    | none => s.answer h stResources
    | some n =>
      let s1 := s.setPart n
        { state := .idle, owner := (secondHost h), row := row.toNat, col := col.toNat, rows := rows.toNat, cols := cols.toNat }
      let s2 := (s1.partSites n).foldl (fun (s : State) d => s.onDie d fun die =>
        { die with part := BitVec.ofNat 4 n, assigned := true, net := .idle }) s1
      s2.answer h stOk (bytesOf 1 n)

/-- PART_DESTROY (R284, R288): its dies are unassigned, and the wait commands of it end. -/
def execPartDestroy (h : Cmd) (s : State) : Host.Outcome State Fault Refusal :=
  command h (gateOf 0x0202) s fun s =>
    let n := h.part.toNat
    let s1 := (s.partSites n).foldl (fun (s : State) d => s.onDie d fun die => { die with assigned := false })
      ((s.endSealing n).dropLoads n stNoPart)
    let s2 := s1.setPart n {}
    let s3 := s2.setShadow n {}
    (s3.wake (fun w => decide (w.2.part.toNat = n) && (w.1 == .job || w.1 == .checkpoint || w.1 == .log)) stNoPart
      []).answer h stOk

/-- PART_QUERY (R288). -/
def execPartQuery (h : Cmd) (s : State) : Host.Outcome State Fault Refusal :=
  command h (gateOf 0x0204) s fun s =>
    let n := h.part.toNat
    let p := s.part n
    let flags := b2n p.bound.isSome + 2 * b2n p.secrets.isSome + 4 * b2n (s.isShadow n)
    s.answer h stOk ([p.state.code, (s.partJob n).toNat, p.rows, p.cols, p.row, p.col, b2n p.owner, flags].map
      (BitVec.ofNat 8))

/-! ### R290: flumes -/

/-- R290: the established flumes of a partition, each with its endpoints' POS values. [DESIGN CHOICE, log 15] -/
def State.flumeFacts (s : State) (n : Nat) : List Nat :=
  (s.part n).img.flumes.flatMap fun e =>
    e.toNat :: (s.partCores n).flatMap fun c =>
      ((s.core c).ep.filter fun x => x.2.valid && decide (x.2.flume.toNat = bits e.toNat 0 12)).map fun x =>
        x.2.pos.toNat

/-- FLUME_LIST (R290). -/
def execFlumeList (h : Cmd) (addr : Reg64) (len : Word) (s : State) : Host.Outcome State Fault Refusal :=
  command h (gateOf 0x0401) s fun s =>
    let data := (Config.flumeListLayout (s.flumeFacts h.part.toNat)).take len.toNat
    s.deliver h addr.toNat len.toNat data []

/-- FLUME_STATS (R186, R290): the flits sent at rank 2 and at rank 6 by the routers of the flume. -/
def execFlumeStats (h : Cmd) (index : BitVec 16) (s : State) : Host.Outcome State Fault Refusal :=
  command h (gateOf 0x0402) s (asks := fun s =>
    { field := firstBad [(!(s.part h.part.toNat).img.flumes.any fun e => bits e.toNat 0 12 == index.toNat, 16)] }) fun s =>
    let n := h.part.toNat
    let hops := s.routers.flatMap fun e =>
      e.2.flumes.filter fun x => decide (x.part.toNat = n) && decide (x.flume.toNat = index.toNat)
    s.answer h stOk (bytesOf 8 (hops.map (·.rank2)).sum ++ bytesOf 8 (hops.map (·.rank6)).sum)

/-! ### R290, R231: memory -/

/-- R235, R236: every block of a range is read through its code; `owner` owns the range. -/
def State.checkRange (s : State) (owner a len : Nat) : State × Bool :=
  let gran := (s.part owner).img.gran
  (distinct ((List.range (len / 64)).map fun i => s.storedBlock (a / 64 + i))).foldl (fun o b =>
    match o.1.hbmMap gran (64 * b) with
    | some (p, _) => checkBlock p owner o b
    | none => o) (s, true)

/-- R230: the tweak of a block: its stack offset / 64, then the physical stack. -/
def xtsTweak (p off : Nat) : BitVec 128 := BitVec.ofNat 128 (off / 64 + p * 2 ^ 32)

/-- The tag's code (R234). -/
def UnitTag.code : UnitTag → Nat
  | .raw => 0
  | .header => 1
  | .erased => 2

/-- R232: the header block of a compressed unit. -/
def State.headerBlock (s : State) (u : Nat) : List Byte :=
  ((List.range 4).flatMap fun b => memRead s.mem (256 * u + 64 * b) 4) ++ List.replicate 48 0

/-- R231, R290: the 72 bytes that stand in the stacks for a block of partition `n`: as a host gave them, or the ciphertext
under the key slot of the MSD, and its check bytes. [DESIGN CHOICE, log 9; DEDUCED, log 36] -/
def State.sealedBlock (s : State) (n a : Nat) : List Byte :=
  let t := tget .erased s.tags (a / 256)
  match s.hbmMap (s.part n).img.gran a, tget [] s.given (a / 64) with
  | none, _ => []
  | some (p, off), [] =>
    let key := tget [] (s.msd (p / 4)).keys n
    let cipher :=
      if t = .raw then xtsEncrypt key (xtsTweak p off) (memRead s.mem a 64)
      else if t = .header ∧ a % 256 = 0 then xtsEncrypt key (xtsTweak p off) (s.headerBlock (a / 256))
      else Config.unstoredBlock (s.free + a)
    cipher ++ Config.hbmCheckBytes cipher off (if a % 256 = 0 then t.code else 0)
  | some _, b => b

/-- R290: a bad HBM address or length. -/
def State.memField (s : State) (n a len : Nat) : Option Nat :=
  let ok (l : Nat) : Bool := rangesHold (s.part n).img.ranges s.liveStacks.length a l
  if a % 64 ≠ 0 ∨ ok 1 = false then some 16
  else if len % 64 ≠ 0 ∨ (len ≠ 0 ∧ ok len = false) then some 32
  else none

/-- MEM_READ (R231, R290). -/
def execMemRead (h : Cmd) (hbm host : Reg64) (len : Word) (s : State) : Host.Outcome State Fault Refusal :=
  command h (gateOf 0x0501) s (asks := fun s => { field := s.memField h.part.toNat hbm.toNat len.toNat }) fun s =>
    let n := h.part.toNat
    let a := hbm.toNat
    let p := s.part n
    let out := if p.img.sealed then len.toNat / 64 * 72 else len.toNat
    if s.outputStatus h host.toNat out out ≠ stOk then s.answer h (s.outputStatus h host.toNat out out)
    else
      let o := s.checkRange n a len.toNat
      if o.2 = false then o.1.answer h stStopped
      else
        let data :=
          if p.img.sealed then (List.range (len.toNat / 64)).flatMap fun i => o.1.sealedBlock n (a + 64 * i)
          else memRead o.1.mem a len.toNat
        o.1.tick.answerData h host.toNat data []

/-- R231, R233: open data goes into the stacks that hold it, granule by granule. [DEDUCED, log 36] -/
def State.memStore (s : State) (n a : Nat) (bs : List Byte) : State :=
  (cutRange a bs.length).foldl (fun (s : State) e =>
    match s.hbmMap (s.part n).img.gran (a + e.1) with
    | some (p, _) => s.hbmWrite p n (a + e.1) ((bs.drop e.1).take e.2)
    | none => s) s

/-- R234: what a stored block at a stack offset decodes to: its tag, its 64 bytes, and how many bytes were wrong; none where
it is uncorrectable. -/
def decodeBlock (off : Nat) (b : List Byte) : Option (Nat × List Byte × Nat) :=
  let holds (t : Nat) : Bool := Config.hbmCheckBytes (b.take 64) off t == b.drop 64
  match (List.range 3).find? holds with
  | some t => some (t, b.take 64, 0)
  | none => (Config.hbmCorrect b off).map fun e => (e.1, e.2, 1)

/-- R232, R234: what one stored block of a unit gives the unit's bytes. -/
def State.takeBlock (s : State) (n b tag : Nat) : State :=
  match s.hbmMap (s.part n).img.gran (64 * b) with
  | none => s
  | some (p, off) =>
    let plain (c : List Byte) : List Byte := xtsDecrypt (tget [] (s.msd (p / 4)).keys n) (xtsTweak p off) c
    let wrong (s : State) (k : Nat) : State := { s with hbmErr := tset {} s.hbmErr b ⟨k, false⟩ }
    match decodeBlock off (tget [] s.given b) with
    | none => wrong s 4
    | some (t, c, k) =>
      if t ≠ tag then wrong s 4
      else if t = 0 then wrong (s.store (64 * b) (plain c)) k
      else if t = 1 then
        wrong (s.store (64 * b) ((List.range 4).flatMap fun i =>
          (List.replicate 16 (((plain c).drop (4 * i)).take 4)).flatten)) k
      else wrong { s with mem := memDrop s.mem fun x => decide (x < 2 ^ 41) && x / 256 == b / 4 } k

/-- R231, R234: a unit as its stored blocks stand: the first one's tag says what it is. -/
def State.decodeUnit (s : State) (n u : Nat) : State :=
  match s.hbmMap (s.part n).img.gran (256 * u) with
  | none => s
  | some (_, off) =>
    match decodeBlock off (tget [] s.given (4 * u)) with
    | some (1, _) => ({ s with tags := tset .erased s.tags u .header }).takeBlock n (4 * u) 1
    | some (2, _) => ({ s with tags := tset .erased s.tags u .erased }).takeBlock n (4 * u) 2
    | some (0, _) =>
      (List.range 4).foldl (fun (t : State) i => t.takeBlock n (4 * u + i) 0)
        { s with tags := tset .erased s.tags u .raw }
    | _ => { s with hbmErr := tset {} s.hbmErr (4 * u) ⟨4, false⟩ }

/-- R231: one 72-byte block of a sealed job is stored as given. [DEDUCED, log 36] -/
def State.sealedStore (s : State) (n a : Nat) (b : List Byte) : State :=
  match s.hbmMap (s.part n).img.gran a with
  | none => s
  | some (p, _) =>
    let u := a / 256
    let s1 := s.setStack p { s.stack p with wbuf := (s.stack p).wbuf ++ [⟨a, 64⟩] }
    let as_ := (List.range 4).foldl (fun g i =>
      tset [] g (4 * u + i) (if 4 * u + i = a / 64 then b else s.sealedBlock n (256 * u + 64 * i))) s1.given
    { s1 with given := as_ }.tick.decodeUnit n u

/-- MEM_WRITE (R231, R290). -/
def execMemWrite (h : Cmd) (hbm host : Reg64) (len : Word) (s : State) : Host.Outcome State Fault Refusal :=
  command h (gateOf 0x0502) s (asks := fun s => { field := s.memField h.part.toNat hbm.toNat len.toNat }) fun s =>
    let n := h.part.toNat
    let a := hbm.toNat
    let p := s.part n
    let size := if p.img.sealed then len.toNat / 64 * 72 else len.toNat
    match s.input h host.toNat size with
    | none => s.answer h stHost
    | some bs =>
      let s1 :=
        if p.img.sealed then (List.range (len.toNat / 64)).foldl (fun (s : State) i =>
          s.sealedStore n (a + 64 * i) ((bs.drop (72 * i)).take 72)) s
        else s.memStore n a bs
      s1.answer h stOk

/-! ### R290: registers -/

/-- R33: an address in a physical-site window. -/
def physWindow (a : Nat) : Bool :=
  match decodeAddr a with
  | .reg 1 _ _ _ _ => true
  | _ => false

/-- R35: the gate of a register access: a physical-site window needs a session. -/
def regGate (op : Nat) (a : Nat) : Gate := { gateOf op with right := if physWindow a then some rightPhys else (gateOf op).right }

/-- R290: a register read. -/
def State.readRegs (s : State) (h : Cmd) (a host len : Nat) : State :=
  let s1 := s.sampleRegs a len
  s1.deliver h host len (s1.regBytes a len) []

/-- R290: every 8-byte word of the range of a read lies in some window. -/
def State.regField (s : State) (a len : Nat) : Option Nat :=
  firstBad [((List.range ((a + len + 7) / 8 - a / 8)).any fun i => s.regPlace (a / 8 * 8 + 8 * i) = .bad, 16)]

/-- REG_READ (R35, R290). -/
def execRegRead (h : Cmd) (panel host : Reg64) (len : Word) (s : State) : Host.Outcome State Fault Refusal :=
  command h (regGate 0x0503 panel.toNat) s (asks := fun s => { field := s.regField panel.toNat len.toNat }) fun s => s.readRegs h panel.toNat host.toNat len.toNat

/-- REG_READ_PHYS (R382). -/
def execRegReadPhys (h : Cmd) (panel host : Reg64) (len : Word) (s : State) : Host.Outcome State Fault Refusal :=
  command h (gateOf 0x0A07) s (asks := fun s => { field := s.regField panel.toNat len.toNat }) fun s => s.readRegs h panel.toNat host.toNat len.toNat

/-- REG_WRITE (R5, R290). -/
def execRegWrite (h : Cmd) (panel value : Reg64) (s : State) : Host.Outcome State Fault Refusal :=
  command h (regGate 0x0504 panel.toNat) s (asks := fun s =>
    { field := firstBad [(decide (s.regPlace panel.toNat = .bad), 16)] }) fun s =>
    (s.writeReg panel.toNat value.toNat false).answer h stOk

/-- R276: `HWD_HAP_STATUS` of a host die. -/
def State.hapStatus (s : State) (host : Bool) : Reg64 :=
  let h := s.host host
  reg64 [(0, b2n h.ready), (1, s.panel.lastReset.toNat), (4, b2n s.panel.stopped), (5, b2n h.oneMod), (6, b2n h.admErr),
    (7, b2n s.panel.ready), (32, s.panel.fw.version.toNat)]

/-- R275-R277: what a host die reads at an offset of its aperture; the doorbells are written only. -/
def State.apertureReg (s : State) (host : Bool) (off : Nat) : Reg64 :=
  let h := s.host host
  match off with
  | 0x00 => s.hapStatus host
  | 0x08 => reg64 [(0, h.dmaBase.toNat), (28, h.dmaSize.toNat), (63, b2n h.dmaLock)]
  | 0x10 => h.admSq
  | 0x18 => h.admRq
  | 0x20 => h.msiAddr
  | 0x28 => h.msiData.setWidth 64
  | _ => 0

/-- R275-R277: a write of an aperture register. -/
def State.writeAperture (s : State) (host : Bool) (off : Nat) (value : Reg64) : State :=
  let h := s.host host
  let v := value.toNat
  if off = 0x08 then
    if h.dmaLock then s
    else s.setHost host { h with
      dmaBase := BitVec.ofNat 28 v, dmaSize := BitVec.ofNat 28 (bits v 28 28), dmaLock := bit v 63 }
  else if off = 0x10 then s.writeAdmSq host value
  else if off = 0x18 then s.setHost host { h with admRq := value &&& 0x000FFFFFFFFFFFFF }
  else if off = 0x20 then s.setHost host { h with msiAddr := value }
  else if off = 0x28 then s.setHost host { h with msiData := BitVec.ofNat 32 v }
  else s

/-- REGISTER_WRITE (R5, R35): a write takes effect as the fields' types allow; a physical-site window needs a session. -/
def execRegisterWrite (t : RegTarget) (value : Reg64) (s : State) : Host.Outcome State Fault Refusal :=
  match t with
  | .aperture host offset => .next (s.writeAperture host offset.toNat value)
  | .panel addr session origin =>
    if physWindow addr.toNat ∧ s.sessionOk origin session rightPhys = false then
      .next (s.recordKind 0x0A (bytesOf 4 session.toNat))
    else .next (s.writeReg addr.toNat value.toNat true)

end Sys2Proof.Machine
end

