-- ==== Sys2Proof/Machine/SiteMaps.lean ====
section
/-!
DEFINITION. Site maps: the map that Velty chooses for a row (R13-R16, R21), the ports' attachments (R242, R243), and what
a rewrite moves (R17-R20, R402).
-/

namespace Sys2Proof.Machine

/-! ### The choice of a map -/

/-- R13: the physical columns of the window. -/
def State.window (s : State) : List Nat := (List.range (s.lcols + 1)).map (· + s.panel.windowStart.toNat)

/-- R21, R401: the site's die is retired, or it answers nothing. -/
def State.siteDead (s : State) (row col : Nat) : Bool := (s.die (16 * row + col)).retired

/-- R452: the site's weir has failed. -/
def State.weirBad (s : State) (row col : Nat) : Bool := s.flash.weirs.contains ⟨BitVec.ofNat 4 row, BitVec.ofNat 4 col⟩

/-- R14, R21: the physical columns that serve the logical columns when `left` is left out; 15 where the die is absent. -/
def State.columnsFor (s : State) (row left : Nat) : List Nat :=
  ((s.window.filter fun k => k ≠ left).map fun k => if s.siteDead row k then 15 else k)

/-- R18: LCOL as packed from its fields. -/
def lcolOf (fields : List Nat) : BitVec 48 :=
  BitVec.ofNat 48 (((List.range 12).map fun c => nth 15 fields c * 2 ^ (4 * c)).sum)

/-- R12, R15, R21: the weirs that a map needs work: that of a left-out site between two logical neighbours, and that of
an absent site with failed transit. -/
def State.mapAllowed (s : State) (row left : Nat) : Bool :=
  let w := s.window
  let inner (k : Nat) : Bool := decide (w.headD 0 < k) && decide (k < w.getLastD 0)
  w.all fun k =>
    !(inner k && s.weirBad row k && (decide (k = left) || (s.siteDead row k && (s.die (16 * row + k)).transitFailed)))

/-- The logical columns whose die is absent under a map. -/
def absentIn (fields : List Nat) : Nat := (fields.filter fun k => k = 15).length

/-- The logical columns whose die would move under a map. -/
def State.movesOf (s : State) (row : Nat) (fields : List Nat) : List Nat :=
  (List.range fields.length).filter fun c => decide (nth 15 fields c ≠ 15) && decide (nth 15 fields c ≠ s.lcolField row c)

/-- R21: a map is better with fewer absent dies, then with fewer moves. [DESIGN CHOICE, log 25] -/
def State.betterMap (s : State) (row a b : Nat) : Bool :=
  let fa := s.columnsFor row a
  let fb := s.columnsFor row b
  decide (absentIn fa < absentIn fb) ||
    (decide (absentIn fa = absentIn fb) && decide ((s.movesOf row fa).length < (s.movesOf row fb).length))

/-- R21: the left-out column that Velty chooses; the present one stands unless another is better. [DESIGN CHOICE, log 25] -/
def State.chooseLeft (s : State) (row : Nat) : Nat :=
  let now := (s.row row).leftOut.toNat
  (s.window.filter fun k => s.mapAllowed row k).foldl (fun best k => if s.betterMap row k best then k else best) now

/-- R14, R18: the map with a left-out column. -/
def State.mapWith (s : State) (row left : Nat) : SiteMap :=
  { s.row row with lcol := lcolOf (s.columnsFor row left), leftOut := BitVec.ofNat 4 left }

/-- The map that Velty chooses. -/
def State.planRow (s : State) (row : Nat) : SiteMap := s.mapWith row (s.chooseLeft row)

/-! ### Engagements (R19) -/

/-- The partitions that own a logical die which the row's planned map moves. -/
def State.movedParts (s : State) (row : Nat) : List Nat :=
  distinct ((s.movesOf row (s.columnsFor row (s.chooseLeft row))).filterMap fun c => s.partOfDie row c)

/-- R294, R402: an ordered engagement waits on the partition. -/
def State.engageWaits (s : State) (n : Nat) : Bool := s.panel.engage.any fun r => (s.movedParts r.toNat).contains n

/-- R19: the partition does not hold the engagement up. -/
def State.partQuiet (s : State) (n : Nat) : Bool :=
  decide ((s.part n).state = .free) || decide ((s.part n).state = .idle) || decide ((s.part n).state = .ending)

/-! ### Attachments (R242, R243) -/

/-- R242: the candidate sites of a port, and its die edge (0 north, 1 east, 2 south, 3 west). -/
def portCandidates (n : Nat) : List (Nat × Nat) × Nat :=
  let pair (row k edge : Nat) : List (Nat × Nat) × Nat := ([(row, k), (row, k + 1)], edge)
  match n / 8 with
  | 0 => pair 0 (n / 2) 0
  | 1 => pair 0 (n / 2) 0
  | 2 => pair 0 (n / 2) 0
  | 3 => ([(n - 24 + 2, 12)], 1)
  | 4 => pair 11 ((n - 32) / 2 + 8) 2
  | 5 => pair 11 ((n - 40) / 2 + 4) 2
  | 6 => pair 11 ((n - 48) / 2) 2
  | _ => ([(n - 56 + 2, 0)], 3)

/-- R243: the site at which a port attaches: of an east or west port at a left-out end site, the neighbour behind its
weir. [DEDUCED, log 26] -/
def State.portSite (s : State) (n : Nat) : Option (Nat × Nat) :=
  let (sites, edge) := portCandidates n
  let serves (e : Nat × Nat) : Bool := s.window.contains e.2 && (s.colOf (16 * e.1 + e.2)).isSome
  let inner (e : Nat × Nat) : Nat × Nat := (e.1, if edge = 1 then e.2 - 1 else e.2 + 1)
  let tried := sites ++
    (if edge % 2 = 1 then (sites.filter fun e => (s.row e.1).leftOut.toNat = e.2).map inner else [])
  tried.find? serves

/-- R243, R268: a port with its attachment, in logical dies; one without a site is parked, and a parked one that has a site is down. -/
def State.attachPort (s : State) (n : Nat) (p : Port) : Port :=
  match s.portSite n with
  | some (row, col) =>
    { p with
      attRow := BitVec.ofNat 4 row, attCol := BitVec.ofNat 4 ((s.colOf (16 * row + col)).getD 0), edge := BitVec.ofNat 2 (portCandidates n).2
      state := if p.state = 4 then 0 else p.state }
  | none => { p with state := if p.state = 5 then 5 else 4 }

/-- The attachments of every port that is fused in. -/
def State.attachPorts (s : State) : State :=
  (List.range 64).foldl (fun (s : State) n =>
    if (s.port n).fused then s.setPort n (s.attachPort n (s.port n)) else s) s

/-! ### A rewrite (R17, R402) -/

/-- Where the state kept at a core's key goes when a row's map changes: with its physical site. -/
def State.movedKey (s : State) (row : Nat) (new : SiteMap) (key : Nat) : Option Nat :=
  let c := coreOfKey key
  if dieRow c ≠ row then some key
  else
    ((s.siteAt row (dieCol c)).bind (s.setRow row new).placeOf).map fun k => 512 * c.y.toNat + 32 * k + c.x.toNat % 32

/-- A table by core, moved. -/
def State.moveTable {α : Type} (s : State) (row : Nat) (new : SiteMap) (t : Tbl α) : Tbl α :=
  t.foldl (fun out e =>
    match s.movedKey row new e.1 with
    | some k => tput out k e.2
    | none => out) []

/-- The die-level fields that belong to the logical die, and so follow it to its new site. [DEDUCED, log 65] -/
def Die.assignedAs (d old : Die) : Die :=
  { d with
    part := old.part, assigned := old.assigned, job := old.job, net := old.net, gran := old.gran, ranges := old.ranges }

/-- R217: of the sites of a row whose map changes, those that come into it lock their culverts, and those that leave it
park theirs. -/
def State.moveCulverts (s : State) (row : Nat) (new : SiteMap) (t : State) : State :=
  let sites (lcol : BitVec 48) : List Nat := (List.range s.lcols).map fun c => bits lcol.toNat (4 * c) 4
  (List.range 13).foldl (fun (t : State) m =>
    match (sites (s.row row).lcol).contains m, (sites new.lcol).contains m with
    | true, false => t.parkSite (16 * row + m)
    | false, true => t.lockSite (16 * row + m) []
    | _, _ => t) t

/-- R17, R18, R407, R410: a row's map is rewritten: EPOCH counts it, and it is recorded. [DEDUCED, log 65] -/
def State.rewriteRow (s : State) (row : Nat) (new : SiteMap) : State :=
  let movesTo := s.movesOf row ((List.range s.lcols).map fun c => bits new.lcol.toNat (4 * c) 4)
  let s1 := movesTo.foldl (fun (t : State) c =>
    let from_ := s.lcolField row c
    let to_ := bits new.lcol.toNat (4 * c) 4
    if from_ = 15 then t else t.onDie (16 * row + to_) fun d => d.assignedAs (s.die (16 * row + from_))) s
  let s2 := { s1 with cores := s.moveTable row new s1.cores, routers := s.moveTable row new s1.routers }
  let s3 := s2.setRow row { new with epoch := (s.row row).epoch + 1 }
  let s4 := s.moveCulverts row new (s3.onDie (16 * row + new.leftOut.toNat) fun d => { d with assigned := false })
  let (s5, seq) := s4.attachPorts.recordSeq
    { kind := 0x04, data := bytesOf 1 row ++ bytesOf 8 (s3.panelReg (0x1000 + 8 * row)).toNat }
  s5.event 3 seq

end Sys2Proof.Machine
end

