-- ==== Sys2Proof/Machine/Image.lean ====
section
/-!
DEFINITION. Job images: parsing and format checks (R292, R293, R325), the placement and flume-table checks (R39, R184,
R255), and relocation by the partition's origin (R38).
-/

namespace Sys2Proof.Machine

/-! ### Sections (R292) -/

/-- A section entry: TYPE, OFFSET, LENGTH, and where the entry itself stands. -/
structure Sect where
  typ : Nat
  off : Nat
  len : Nat
  entry : Nat

/-- R292: the section entries up to NSECT. -/
def imageSects (b : List Byte) : List Sect :=
  (List.range (min 16 (fieldOf b 12 2))).map fun i =>
    let e := 128 + 16 * i
    ⟨fieldOf b e 2, fieldOf b (e + 8) 4, fieldOf b (e + 12) 4, e⟩

/-- R293: the record size of a section type; 1 where the section is no plain list of records. -/
def recordSize (typ : Nat) : Nat :=
  match typ with
  | 1 => 24
  | 2 => 16
  | 3 => 8
  | 4 => 16
  | 5 => 16
  | _ => 1

/-- The section of a type. -/
def sectOf (b : List Byte) (typ : Nat) : Option Sect := (imageSects b).find? fun x => x.typ = typ

/-- Where the records of a section stand. -/
def recordsAt (b : List Byte) (typ : Nat) : List Nat :=
  match sectOf b typ with
  | none => []
  | some x => (List.range (x.len / recordSize typ)).map fun i => x.off + recordSize typ * i

/-! ### Records (R293) -/

/-- A rectangle of cores. -/
structure Rect where
  x : Nat
  y : Nat
  w : Nat
  h : Nat
deriving DecidableEq, Repr

/-- The rectangle at the start of a record. -/
def rectAt (b : List Byte) (o : Nat) : Rect := ⟨fieldOf b o 2, fieldOf b (o + 2) 2, fieldOf b (o + 4) 2, fieldOf b (o + 6) 2⟩

/-- Two rectangles share a core. -/
def Rect.meets (a b : Rect) : Bool :=
  decide (max a.x b.x < min (a.x + a.w) (b.x + b.w)) && decide (max a.y b.y < min (a.y + a.h) (b.y + b.h))

/-- A core lies in a rectangle. -/
def Rect.has (r : Rect) (c : CoreRef) : Bool :=
  decide (r.x ≤ c.x.toNat) && decide (c.x.toNat < r.x + r.w) && decide (r.y ≤ c.y.toNat) && decide (c.y.toNat < r.y + r.h)

/-- R293: the core records. -/
def imageCores (b : List Byte) : List CoreRec :=
  (recordsAt b 2).map fun o =>
    let r := rectAt b o
    { x0 := r.x, y0 := r.y, w := r.w, h := r.h, entry := BitVec.ofNat 19 (fieldOf b (o + 8) 4)
      mask := BitVec.ofNat 16 (fieldOf b (o + 12) 2) }

/-- R293: the relocations of a segment. -/
def imageRelocs (b : List Byte) (seg : Nat) : List (Nat × Nat) :=
  ((recordsAt b 3).filter fun o => fieldOf b o 2 = seg).map fun o => (fieldOf b (o + 2) 1, fieldOf b (o + 4) 4)

/-- R293: the segment records. -/
def imageSegs (b : List Byte) : List SegRec :=
  let os := recordsAt b 1
  (List.range os.length).map fun i =>
    let o := nth 0 os i
    let r := rectAt b o
    { x0 := r.x, y0 := r.y, w := r.w, h := r.h, off := fieldOf b (o + 8) 4, len := fieldOf b (o + 12) 4
      at_ := fieldOf b (o + 16) 4, relocs := imageRelocs b i }

/-- R183, R255: the entries of the flume table or of the link table. -/
def imageEntries (b : List Byte) (typ : Nat) : List (BitVec 128) :=
  (recordsAt b typ).map fun o => BitVec.ofNat 128 (fieldOf b o 16)

/-- R293: NGROUP, and the group records as (index, flags). -/
def groupCount (b : List Byte) : Nat := ((sectOf b 6).map fun x => fieldOf b x.off 2).getD 0
def imageGroups (b : List Byte) : List (Nat × Nat) :=
  match sectOf b 6 with
  | none => []
  | some x => (List.range (min 64 (groupCount b))).map fun i => (fieldOf b (x.off + 4 + 4 * i) 1, fieldOf b (x.off + 5 + 4 * i) 1)

/-- R293: where the binding records stand. -/
def bindsAt (b : List Byte) : List Nat :=
  match sectOf b 6 with
  | none => []
  | some x =>
    let start := 4 + 4 * groupCount b
    (List.range ((x.len - start) / 12)).map fun i => x.off + start + 12 * i

/-- R293: the binding records; `group` is the index within the job. -/
def imageBinds (b : List Byte) : List BindRec :=
  (bindsAt b).map fun o =>
    let r := rectAt b o
    { x0 := r.x, y0 := r.y, w := r.w, h := r.h, chan := BitVec.ofNat 4 (fieldOf b (o + 8) 1)
      group := BitVec.ofNat 6 (fieldOf b (o + 9) 1) }

/-- R325: the phase records. -/
def imagePhases (b : List Byte) : List Phase :=
  match sectOf b 7 with
  | none => []
  | some x => (List.range (min 256 (fieldOf b x.off 2))).map fun i =>
    let o := x.off + 16 + 16 * i
    { next := fieldOf b o 2, dur := fieldOf b (o + 4) 4, pavg := fieldOf b (o + 8) 2, ppeak := fieldOf b (o + 10) 2
      rpeak := fieldOf b (o + 12) 2 }

/-- R292 FLAGS. -/
def imageFlag (b : List Byte) (i : Nat) : Bool := bit (fieldOf b 8 1) i

/-! ### Format errors -/

/-- A breach at an offset of the image. -/
def breach (bad : Bool) (off : Nat) : List Nat := if bad then [off] else []

/-- The first reserved byte of a field that is not zero. -/
def reservedIn (b : List Byte) (off n : Nat) : List Nat :=
  (((List.range n).map (· + off)).find? fun i => fieldOf b i 1 ≠ 0).toList

/-- R292: the header. -/
def headerErrors (b : List Byte) : List Nat :=
  let n := fieldOf b 12 2
  breach (fieldOf b 0 4 ≠ 0x4A505A41) 0 ++ breach (fieldOf b 4 2 ≠ 1) 4 ++
    breach (fieldOf b 6 1 = 0 ∨ 12 < fieldOf b 6 1) 6 ++ breach (fieldOf b 7 1 = 0 ∨ 12 < fieldOf b 7 1) 7 ++
    breach (32 ≤ fieldOf b 8 1) 8 ++ breach (2 < fieldOf b 9 1) 9 ++ breach (384 < fieldOf b 10 2) 10 ++
    breach (n = 0 ∨ 16 < n) 12 ++ reservedIn b 14 50 ++
    breach (sha512 (b.take 64 ++ b.drop 512) ≠ (b.drop 64).take 64) 64 ++
    reservedIn b (128 + 16 * n) (256 - 16 * n) ++ reservedIn b 384 128

/-- R292, R293: the section entries. -/
def sectionErrors (b : List Byte) : List Nat :=
  let ss := imageSects b
  (ss.flatMap fun x =>
    let twice := ss.any fun y => decide (y.typ = x.typ) && decide (y.entry < x.entry)
    breach (x.typ = 0 ∨ 7 < x.typ ∨ twice) x.entry ++ reservedIn b (x.entry + 2) 6 ++
      breach (x.off % 64 ≠ 0 ∨ x.off < 512) (x.entry + 8) ++
      breach (b.length < x.off + x.len ∨ x.len % recordSize x.typ ≠ 0 ∨ (x.typ = 5 ∧ 64 * 16 < x.len)) (x.entry + 12)) ++
    breach (sectOf b 2).isNone 128

/-- R293: a record's rectangle leaves the image's shape. [DEDUCED, log 23] -/
def rectError (b : List Byte) (o : Nat) : List Nat :=
  let r := rectAt b o
  breach (32 * fieldOf b 7 1 < r.x + r.w ∨ 32 * fieldOf b 6 1 < r.y + r.h) o

/-- R293: the core records. -/
def coreErrors (b : List Byte) : List Nat :=
  let os := recordsAt b 2
  os.flatMap fun o =>
    rectError b o ++ breach (fieldOf b (o + 8) 4 % 4 ≠ 0 ∨ 2 ^ 19 ≤ fieldOf b (o + 8) 4) (o + 8) ++
      reservedIn b (o + 14) 2 ++ breach (os.any fun p => decide (p < o) && (rectAt b p).meets (rectAt b o)) o

/-- Whether `len` bytes from an offset touch a bank that the mask leaves out. -/
def maskMisses (mask : BitVec 16) (off len : Nat) : Bool :=
  (List.range (min 16 ((off + len + 63) / 64 - off / 64))).any fun i => !mask.getLsbD ((off / 64 + i) % 16)

/-- R293: the segment records. -/
def segErrors (b : List Byte) : List Nat :=
  let cs := imageCores b
  (recordsAt b 1).flatMap fun o =>
    let off := fieldOf b (o + 8) 4
    let len := fieldOf b (o + 12) 4
    let dark := cs.any fun c =>
      (rectAt b o).meets ⟨c.x0, c.y0, c.w, c.h⟩ && maskMisses c.mask off len
    rectError b o ++ breach (2 ^ 19 < off + len) (o + 8) ++ breach (b.length < fieldOf b (o + 16) 4 + len) (o + 16) ++
      reservedIn b (o + 20) 4 ++ breach dark o

/-- R293: the relocation records. -/
def relocErrors (b : List Byte) : List Nat :=
  let segs := imageSegs b
  (recordsAt b 3).flatMap fun o =>
    let kind := fieldOf b (o + 2) 1
    let room := ((segs[fieldOf b o 2]?).map fun g => decide (fieldOf b (o + 4) 4 + (if kind = 3 then 8 else 4) ≤ g.len)).getD false
    breach (segs.length ≤ fieldOf b o 2) o ++ breach (kind = 0 ∨ 3 < kind) (o + 2) ++ reservedIn b (o + 3) 1 ++
      breach (room = false) (o + 4)

/-- R293: the sync section. -/
def syncErrors (b : List Byte) : List Nat :=
  match sectOf b 6 with
  | none => []
  | some x =>
    let n := groupCount b
    let gs := imageGroups b
    let os := bindsAt b
    breach (64 < n ∨ x.len < 4 + 4 * n ∨ (x.len - 4 - 4 * n) % 12 ≠ 0) x.off ++ reservedIn b (x.off + 2) 2 ++
      ((List.range (min 64 n)).flatMap fun i =>
        let o := x.off + 4 + 4 * i
        let g := nth (0, 0) gs i
        breach (64 ≤ g.1 ∨ ((gs.take i).any fun e => e.1 = g.1)) o ++ breach (4 ≤ g.2) (o + 1) ++ reservedIn b (o + 2) 2) ++
      os.flatMap fun o =>
        let clash := os.any fun p => decide (p < o) && (rectAt b p).meets (rectAt b o) &&
          ((fieldOf b (p + 8) 1 == fieldOf b (o + 8) 1) != (fieldOf b (p + 9) 1 == fieldOf b (o + 9) 1))
        rectError b o ++ breach (16 ≤ fieldOf b (o + 8) 1) (o + 8) ++
          breach (gs.all fun e => e.1 ≠ fieldOf b (o + 9) 1) (o + 9) ++ reservedIn b (o + 10) 2 ++ breach clash o

/-- R325: the phase power profile. -/
def profileErrors (b : List Byte) : List Nat :=
  match sectOf b 7 with
  | none => []
  | some x =>
    let n := fieldOf b x.off 2
    breach (n = 0 ∨ 256 < n ∨ x.len ≠ 16 + 16 * n) x.off ++
      breach ((imageGroups b).all fun e => e.1 ≠ fieldOf b (x.off + 2) 1) (x.off + 2) ++ reservedIn b (x.off + 3) 13 ++
      (List.range (min 256 n)).flatMap fun i =>
        let o := x.off + 16 + 16 * i
        breach (n ≤ fieldOf b o 2) o ++ reservedIn b (o + 2) 2 ++ reservedIn b (o + 14) 2

/-- R292, R293: the offset of the first format error in image order. Every record stands after the header, so the records
are looked at only when the header and its section entries are right. [DEDUCED, log 23] -/
def formatError (b : List Byte) : Option Nat :=
  if b.length < 512 then some b.length
  else
    match headerErrors b ++ sectionErrors b with
    | e :: es => some (es.foldl min e)
    | [] =>
      match coreErrors b ++ segErrors b ++ relocErrors b ++ syncErrors b ++ profileErrors b with
      | [] => none
      | e :: es => some (es.foldl min e)

/-- R294: the sections other than the segment data take at most 6 MiB, and the image 256 MiB. -/
def imageTooLarge (b : List Byte) : Bool :=
  decide (256 * 2 ^ 20 < b.length) || decide (6 * 2 ^ 20 < ((imageSects b).map fun x => x.len).sum)

/-! ### Holes (R39) -/

/-- The holes of a partition, as rectangles of cores: retired cores and regions, and absent dies. -/
def State.holes (s : State) (n : Nat) : List Rect :=
  let corner (d : Nat) (i w : Nat) : List Rect := ((s.coreAt d i).map fun c => ⟨c.x.toNat, c.y.toNat, w, w⟩).toList
  s.flash.retCores.flatMap (fun e => corner (siteKey e.1) e.2.toNat 1) ++
    s.flash.retRegions.flatMap (fun e => corner (siteKey e.1) (128 * (e.2.toNat / 8) + 4 * (e.2.toNat % 8)) 4) ++
    ((s.part n).dies.filter fun d => (s.dieAt d.1 d.2).isNone).map fun d => ⟨32 * d.2, 32 * d.1, 32, 32⟩

/-! ### The flume table (R183, R184) -/

/-- R183, R184 rules 1 and 7: codes, reserved and unnamed fields, ranges. -/
def flumeFieldsOk (e : Nat) : Bool :=
  let k := bits e 12 2
  let share := bits e 15 3
  let size := bits e 67 13
  decide (1 ≤ share) && decide (share ≤ 5) && decide (1 ≤ size) && decide (size ≤ 4096) &&
    (match k with
     | 0 => bits e 86 42 == 0
     | 1 => bits e 97 31 == 0 && decide (1 ≤ bits e 88 9) && decide (bits e 88 9 ≤ 384)
     | 2 => bits e 86 11 == 0 && bits e 122 6 == 0 && bits e 97 2 != 3 && bits e 99 2 != 3 &&
        decide (1 ≤ bits e 102 9) && decide (bits e 102 9 ≤ 384) && decide (1 ≤ bits e 111 9) && decide (bits e 111 9 ≤ 384)
     | _ => false)

/-- A point of the grid; the checks also meet points outside it. -/
abbrev Point := Int × Int

/-- The coordinates from `a` to `b`, both included. -/
def runTo (a b : Int) : List Int :=
  (List.range ((b - a).natAbs + 1)).map fun (i : Nat) => if a ≤ b then a + (i : Int) else a - (i : Int)

/-- R185: a path of cores from one to another, X steps first or Y steps first. -/
def pathTo (a b : Point) (yFirst : Bool) : List Point :=
  if yFirst then (runTo a.2 b.2).map (fun y => (a.1, y)) ++ ((runTo a.1 b.1).drop 1).map (fun x => (x, b.2))
  else (runTo a.1 b.1).map (fun x => (x, a.2)) ++ ((runTo a.2 b.2).drop 1).map (fun y => (b.1, y))

/-- A coordinate of an entry, moved by an origin. -/
def entryPoint (e lo org : Nat) : Int := ((bits e lo 9 + org : Nat) : Int)

/-- R185: the taps of a multicast flume. -/
def tapPoints (e : Nat) (dst : Point) : List Point :=
  (List.range (bits e 88 9)).map fun (i : Nat) =>
    let d : Int := if bit e 87 then -(i : Int) else (i : Int)
    if bit e 86 then (dst.1, dst.2 + d) else (dst.1 + d, dst.2)

/-- R196: contributor (r, c) of a collector. -/
def contribPoint (e : Nat) (src : Point) (r c : Nat) : Point :=
  (if bit e 120 then src.1 - (c : Int) else src.1 + c, if bit e 121 then src.2 - (r : Int) else src.2 + r)

/-- What an entry uses: the cores that send, those that receive, and its legs and paths. -/
structure FlumeShape where
  sends : List Point
  recvs : List Point
  paths : List (List Point)

/-- R185, R196: the shape of an entry whose coordinates are relative to an origin. -/
def flumeShape (e orgX orgY : Nat) : FlumeShape :=
  let src : Point := (entryPoint e 18 orgX, entryPoint e 27 orgY)
  let dst : Point := (entryPoint e 36 orgX, entryPoint e 45 orgY)
  let yFirst := bit e 14
  match bits e 12 2 with
  | 0 => ⟨[src], [dst], [pathTo src dst yFirst]⟩
  | 1 => ⟨[src], tapPoints e dst, [pathTo src dst yFirst, tapPoints e dst]⟩
  | _ =>
    let cw := bits e 102 9
    let ch := bits e 111 9
    let rows := (List.range ch).map fun r => (List.range cw).map fun c => contribPoint e src r c
    let col := (List.range ch).map fun r => contribPoint e src r (cw - 1)
    ⟨rows.flatten, [dst], rows ++ [col, pathTo (contribPoint e src (ch - 1) (cw - 1)) dst yFirst]⟩

/-- The output of a router towards the next point (0 north, 1 east, 2 south, 3 west). -/
def wayTo (a b : Point) : Nat := if a.1 < b.1 then 1 else if b.1 < a.1 then 3 else if a.2 < b.2 then 2 else 0

/-- The steps of a path. -/
def stepsOf (p : List Point) : List (Point × Point) := p.zip (p.drop 1)

/-- R184 rules 5 and 6: the router inputs and outputs that a flume uses, each once. -/
def FlumeShape.inputs (f : FlumeShape) : List (Point × Nat) :=
  distinct (f.sends.map (fun p => (p, 4)) ++ f.paths.flatMap fun p => (stepsOf p).map fun q => (q.2, farInput (wayTo q.1 q.2)))
def FlumeShape.outputs (f : FlumeShape) : List (Point × Nat) :=
  distinct (f.recvs.map (fun p => (p, 4)) ++ f.paths.flatMap fun p => (stepsOf p).map fun q => (q.1, wayTo q.1 q.2))

/-- The core of a point that lies in the grid. -/
def pointCore (p : Point) : CoreRef := coreXY p.1.toNat p.2.toNat

/-- R184 rule 2: the point lies in the partition and in no hole. -/
def State.pointOk (s : State) (n : Nat) (holes : List Rect) (p : Point) : Bool :=
  decide (0 ≤ p.1) && decide (0 ≤ p.2) && decide (p.1 < 384) && decide (p.2 < 384) && (s.part n).hasCore (pointCore p) &&
    holes.all fun r => !r.has (pointCore p)

/-- The mask that the image gives a core; none where it places none. -/
def maskAt (cs : List CoreRec) (orgX orgY : Nat) (p : Point) : BitVec 16 :=
  ((cs.find? fun c => (⟨c.x0 + orgX, c.y0 + orgY, c.w, c.h⟩ : Rect).has (pointCore p)).map fun c => c.mask).getD 0

/-- R184 rule 3: the window stays in the scratchpad and, at every receiver, in its powered banks. -/
def windowOk (cs : List CoreRec) (orgX orgY e : Nat) (f : FlumeShape) : Bool :=
  let off := 64 * bits e 54 13
  let len := 64 * bits e 67 13
  decide (off + len ≤ 2 ^ 19) && f.recvs.all fun p => !maskMisses (maskAt cs orgX orgY p) off len

/-- No key has more than `limit` of a weight. -/
def withinLimit (limit : Nat) (l : List ((Point × Nat) × Nat)) : Bool :=
  (distinct (l.map (·.1))).all fun k => decide (((l.filter fun e => e.1 = k).map (·.2)).sum ≤ limit)

/-- R366: combining works at the core's router. -/
def State.combines (s : State) (c : CoreRef) : Bool :=
  match s.dieOf c with
  | some d => !(s.die d).noCombine.contains (BitVec.ofNat 10 (coreIndex c))
  | none => true

/-- R184, R366: the flume table of an image is accepted for a partition. -/
def State.flumesOk (s : State) (n : Nat) (cs : List CoreRec) (es : List (BitVec 128)) : Bool :=
  let p := s.part n
  let orgX := 32 * p.col
  let orgY := 32 * p.row
  let holes := s.holes n
  let ds := es.map fun e => (e.toNat, flumeShape e.toNat orgX orgY)
  (es.all fun e => flumeFieldsOk e.toNat) && decide ((distinct (es.map fun e => bits e.toNat 0 12)).length = es.length) &&
    (ds.all fun d =>
      ((d.2.sends ++ d.2.recvs ++ d.2.paths.flatten).all (s.pointOk n holes)) && windowOk cs orgX orgY d.1 d.2 &&
      (decide (flumeKind d.1 < 2) || d.2.sends.all fun q => s.combines (pointCore q))) &&
    withinLimit 8 (ds.flatMap fun d => (d.2.sends ++ d.2.recvs).map fun q => ((q, 0), 1)) &&
    withinLimit 4 (ds.flatMap fun d => d.2.inputs.map fun k => (k, 1)) &&
    withinLimit 5 (ds.flatMap fun d => d.2.outputs.map fun k => (k, bits d.1 15 3))

/-! ### Relocation (R38) -/

/-- R183: an entry with its coordinates moved by the origin. -/
def relocateFlume (orgX orgY : Nat) (e : BitVec 128) : BitVec 128 :=
  e + BitVec.ofNat 128 (orgX * (2 ^ 18 + 2 ^ 36) + orgY * (2 ^ 27 + 2 ^ 45))

/-- R293: one relocation of segment data. -/
def relocateAt (orgX orgY : Nat) (bs : List Byte) (r : Nat × Nat) : List Byte :=
  match r.1 with
  | 1 => patch bs r.2 (bytesOf 4 (fieldOf bs r.2 4 + orgX))
  | 2 => patch bs r.2 (bytesOf 4 (fieldOf bs r.2 4 + orgY))
  | _ =>
    let v := fieldOf bs r.2 8
    let x := (bits v 37 9 + orgX) % 2 ^ 9
    let y := (bits v 28 9 + orgY) % 2 ^ 9
    patch bs r.2 (bytesOf 8 (v - bits v 37 9 * 2 ^ 37 - bits v 28 9 * 2 ^ 28 + x * 2 ^ 37 + y * 2 ^ 28))

/-- R295: what is kept of an image, relocated; `groupOf` gives the panel's barrier group of a job's group index. -/
def imageOf (b : List Byte) (orgX orgY : Nat) (groupOf : Nat → Nat) (ranges : List (BitVec 9 × BitVec 9)) : JobImage :=
  { detreq := imageFlag b 0, sealed := imageFlag b 1, subn := imageFlag b 2, sat := imageFlag b 3, multi := imageFlag b 4
    gran := BitVec.ofNat 2 (fieldOf b 9 1), digest := BitVec.ofNat 512 (natOf ((b.drop 64).take 64))
    cores := (imageCores b).map fun c => { c with x0 := c.x0 + orgX, y0 := c.y0 + orgY }
    binds := (imageBinds b).map fun c =>
      { c with x0 := c.x0 + orgX, y0 := c.y0 + orgY, group := BitVec.ofNat 6 (groupOf c.group.toNat) }
    segs := (imageSegs b).map fun c => { c with x0 := c.x0 + orgX, y0 := c.y0 + orgY }
    flumes := (imageEntries b 4).map (relocateFlume orgX orgY)
    links := (imageEntries b 5).map Config.linkEntry
    advGroup := (sectOf b 7).map fun x => BitVec.ofNat 6 (groupOf (fieldOf b (x.off + 2) 1))
    phases := imagePhases b, ranges }

end Sys2Proof.Machine
end

