-- ==== Sys2Proof/Machine/Jobs.lean ====
section
/-!
DEFINITION. Jobs (R285, R289, R294-R301): loading in its two phases, start, completion, checkpoints, the wait commands,
and aborts by the host.
-/

namespace Sys2Proof.Machine

/-! ### Cores of a job -/

/-- The placed cores of a partition. -/
def State.placedCores (s : State) (n : Nat) : List CoreRef := (s.partCores n).filter fun c => (s.core c).placed

/-- The cores of a rectangle of the grid. -/
def rectCores (x0 y0 w h : Nat) : List CoreRef :=
  (List.range h).flatMap fun j => (List.range w).map fun i => coreXY (x0 + i) (y0 + j)

/-- R309: the core's region is supplied. -/
def State.regionOn (s : State) (c : CoreRef) : Bool :=
  match s.dieOf c with
  | none => false
  | some d =>
    let r := s.region d (regionOfIndex (coreIndex c))
    decide (r.state = .own ∨ r.state = .logic)

/-- Banks of a mask, lowest first. -/
def bankList (m : BitVec 16) : List Nat := (List.range 16).filter fun b => m.getLsbD b

/-- R141 step 2: a core zeroises at most 4 of its banks at a time, the lowest first. -/
def Core.zeroStep (k : Core) : Core :=
  let take := (bankList k.zeroWait).take (4 - (bankList k.zeroising).length)
  let m := take.foldl (fun (m : BitVec 16) b => m ||| BitVec.ofNat 16 (2 ^ b)) 0
  { k with zeroWait := k.zeroWait &&& ~~~m, zeroising := k.zeroising ||| m }

/-- R141: the core begins to zeroise once its region is on. -/
def State.startZeroise (s : State) (c : CoreRef) : State := if s.regionOn c then s.onCore c Core.zeroStep else s

/-! ### HBM regions (R215) -/

/-- The regions that some job holds. -/
def State.takenRegions (s : State) : List (BitVec 9 × BitVec 9) := s.parts.flatMap fun e => e.2.img.ranges

/-- Runs (first, length) of free regions, in ascending order. -/
def State.freeRuns (s : State) : List (Nat × Nat) :=
  let taken := s.takenRegions
  let free (r : Nat) : Bool := taken.all fun t => decide (r < t.1.toNat) || decide (t.2.toNat < r)
  let step (l : List (Nat × Nat)) (r : Nat) : List (Nat × Nat) :=
    if free r then
      match l with
      | (f, n) :: rest => if f + n = r then (f, n + 1) :: rest else (r, 1) :: l
      | [] => [(r, 1)]
    else l
  if s.liveStacks = [] then [] else ((List.range 384).foldl step []).reverse

/-- Put a run in its place among runs of falling length; of equal ones the lower-numbered comes first. -/
def putRun (r : Nat × Nat) : List (Nat × Nat) → List (Nat × Nat)
  | [] => [r]
  | q :: l => if q.2 < r.2 then r :: q :: l else q :: putRun r l

/-- R215 step 2: whole runs until what is still needed fits in the next one. -/
def takeRuns : Nat → List (Nat × Nat) → List (Nat × Nat) → Option (List (Nat × Nat))
  | _, [], _ => none
  | need, r :: l, got =>
    if need ≤ r.2 then some (got ++ [(r.1, need)]) else takeRuns (need - r.2) l (got ++ [r])

/-- Put a range in ascending order. -/
def putRange (r : BitVec 9 × BitVec 9) : List (BitVec 9 × BitVec 9) → List (BitVec 9 × BitVec 9)
  | [] => [r]
  | q :: l => if r.1 < q.1 then r :: q :: l else q :: putRange r l

/-- R215: the ranges that a load is given; none when four runs do not hold enough. -/
def State.chooseRegions (s : State) (need : Nat) : Option (List (BitVec 9 × BitVec 9)) :=
  let runs := s.freeRuns
  let range (r : Nat × Nat) : BitVec 9 × BitVec 9 := (BitVec.ofNat 9 r.1, BitVec.ofNat 9 (r.1 + r.2 - 1))
  if need = 0 then some []
  else
    match runs.find? fun r => need ≤ r.2 with
    | some r => some [range (r.1, need)]
    | none =>
      (takeRuns need ((runs.foldl (fun l r => putRun r l) []).take 4) []).map fun l =>
        (l.map range).foldl (fun l r => putRange r l) []

/-! ### The checks of a load (R294) -/

/-- The free barrier groups. [DESIGN CHOICE, log 24] -/
def State.freeGroupList (s : State) : List Nat := (List.range 64).filter fun g => !(s.group g).valid

/-- R39: a placed core lies in a hole. -/
def State.placementBad (s : State) (n : Nat) (b : List Byte) : Bool :=
  let p := s.part n
  (imageCores b).any fun c => (s.holes n).any fun r =>
    r.meets ⟨c.x0 + 32 * p.col, c.y0 + 32 * p.row, c.w, c.h⟩

/-- R424: the partition holds secrets for the image. -/
def State.sealedOk (s : State) (n : Nat) (b : List Byte) : Bool :=
  !imageFlag b 1 ||
    (((s.part n).secrets.map fun k => k.digest == BitVec.ofNat 512 (natOf ((b.drop 64).take 64))).getD false)

/-- R265, R432: a shadow's image has a digest group. -/
def State.shadowImageOk (s : State) (n : Nat) (b : List Byte) : Bool := !s.isShadow n || (imageGroups b).any fun e => bit e.2 1

/-- R255, R257: what one entry of a link table must be: for a link flume, a placed source core, a SHARE of 1-6 and a window; for
a link collector, a collector of the flume table and ports whose attachment routers lie in the partition; with CMP, whole
blocks of its element format. [DESIGN CHOICE, log 38] -/
def State.linkOk (s : State) (n : Nat) (b : List Byte) (sp : LinkSpec) : Bool :=
  let p := s.part n
  let inside (m : BitVec 6) : Bool := (List.range 4).all fun i =>
    p.hasCore ((s.port m.toNat).edgeCore (min (Config.attachPos m.toNat).toNat 28 + i))
  let blocks (base size : Nat) : Bool := wholeBlocks sp.cmp (64 * base) && wholeBlocks sp.cmp (64 * size)
  match sp.kind with
  | .flume src _ share _ _ base size _ =>
    ((imageCores b).any fun c => (⟨c.x0, c.y0, c.w, c.h⟩ : Rect).has src) &&
      s.pointOk n (s.holes n) ((src.x.toNat + 32 * p.col : Nat), (src.y.toNat + 32 * p.row : Nat)) &&
      decide (1 ≤ share.toNat) && decide (share.toNat ≤ 6) && decide (1 ≤ size.toNat) &&
      decide (base.toNat + size.toNat ≤ 8192) && blocks base.toNat size.toNat
  | .collector f up down =>
    (up.toList ++ down.toList).all inside &&
      (imageEntries b 4).any fun e =>
        decide (bits e.toNat 0 12 = f.toNat) && decide (flumeKind e.toNat = 2) &&
          match sp.cmp with
          | some c => decide (flumeCfmt e.toNat = if c.wide then 0 else 1) &&
              blocks (bits e.toNat 54 13) (bits e.toNat 67 13)
          | none => true

/-- R255: the SHARE that a link flume takes of a port. -/
def linkShare (sp : LinkSpec) : Option (Nat × Nat) :=
  match sp.kind with
  | .flume _ port share _ _ _ _ _ => some (port.toNat, share.toNat)
  | .collector _ _ _ => none

/-- R255: the link table of an image is accepted: at most 64 entries, 2 endpoints in a core, and 6 eighths of a port with what
the jobs of the other partitions have of it. -/
def State.linksOk (s : State) (n : Nat) (b : List Byte) : Bool :=
  let sps := (imageEntries b 5).map Config.linkEntry
  let srcs := sps.filterMap fun sp => match sp.kind with
    | .flume src _ _ _ _ _ _ _ => some src
    | .collector _ _ _ => none
  let taken := s.parts.flatMap fun e => e.2.img.links
  let shares := (sps ++ taken).filterMap linkShare
  decide (sps.length ≤ 64) && sps.all (s.linkOk n b) &&
    ((distinct srcs).all fun c => decide ((srcs.filter fun x => x = c).length ≤ 2)) &&
    (List.range 64).all fun m =>
      !(sps.any fun sp => (linkShare sp).any fun x => x.1 == m) ||
        decide (((shares.filter fun x => x.1 = m).map (·.2)).sum ≤ 6)

/-- R294: the first failing status, in the order of R286. [DEDUCED, log 23] -/
def State.imageStatus (s : State) (n : Nat) (b : List Byte) : BitVec 16 × List Byte :=
  let p := s.part n
  if imageTooLarge b then (stResources, [])
  else
    match formatError b with
    | some o => (0x0301, bytesOf 4 o)
    | none =>
      if s.shadowImageOk n b = false then (0x0301, bytesOf 4 (((sectOf b 6).map fun x => x.off).getD 128))
      else if s.flumesOk n (imageCores b) (imageEntries b 4) = false ∨ s.linksOk n b = false then (0x0302, [])
      else if s.freeGroupList.length < (imageGroups b).length then (0x0303, [])
      else if s.placementBad n b then (0x0304, [])
      else if fieldOf b 6 1 ≠ p.rows ∨ fieldOf b 7 1 ≠ p.cols then (0x0305, [])
      else if (s.chooseRegions (fieldOf b 10 2)).isNone then (0x0306, [])
      else if s.sealedOk n b = false then (0x0307, [])
      else (stOk, [])

/-! ### Loading, phase one: steps 1-3 of R295 -/

/-- R178 step 5: the first value after the origin's JOB that is the JOB of no die of the partition. -/
def State.newJob (s : State) (n : Nat) : BitVec 8 :=
  let used := (s.partSites n).map fun d => (s.die d).job
  let start := s.partJob n
  ((((List.range 256).map fun i => start + 1 + BitVec.ofNat 8 i).find? fun v => !used.contains v)).getD start

/-- Bytes drawn from the random source. -/
def State.drawBytes (s : State) (n : Nat) : List Byte × State :=
  ((List.range n).map fun i => Config.randomByte (s.sec.draws + i), { s with sec := { s.sec with draws := s.sec.draws + n } })

/-- R338 step 3, R342: crossings are re-centred; debts of their sides are cleared. -/
def State.recentre (s : State) (sites : Nat → Bool) : State :=
  { s with
    dies := tmap {} (fun k d => if sites k then { d with elastic := [] } else d) s.dies
    regions := tmap {} (fun k r => if sites (k / 64) then { r with debt := 0, zone := 1 } else r) s.regions
    panel := { s.panel with
      transit := tmap {} (fun k r => if sites k then { r with debt := 0, zone := 1 } else r) s.panel.transit } }

/-- R295 step 1: the dies of the partition. -/
def State.loadDies (s : State) (n : Nat) (job : BitVec 8) (img : JobImage) : State :=
  let sites := s.partSites n
  sites.foldl (fun (s : State) d => s.onDie d fun die => { die with
      job, net := .loading, part := BitVec.ofNat 4 n, assigned := true, gran := img.gran, ranges := img.ranges
      detLost := false, det := img.detreq, detHold := false })
    ((s.recentre fun k => sites.contains k).onPanel fun p => { p with
      spreadTold := p.spreadTold.filter fun e => !sites.contains (unitKey e.1) })

/-- R230, R295 step 2: the key slot at every MSD. -/
def State.loadKeys (s : State) (n : Nat) : State :=
  let (key, s1) := match (s.part n).img.sealed, (s.part n).secrets with
    | true, some k => (k.xtsKey, s)
    | _, _ => s.drawBytes 64
  (List.range 8).foldl (fun (s : State) m => s.setMsd m { s.msd m with keys := tset [] (s.msd m).keys n key }) s1

/-- R294: the barrier groups are reserved. -/
def State.reserveGroups (s : State) (n : Nat) (gs : List (Nat × (Nat × Nat))) : State :=
  gs.foldl (fun (s : State) e => s.setGroup e.1
    { valid := true, part := BitVec.ofNat 4 n, index := BitVec.ofNat 8 e.2.1, multi := bit e.2.2 0, digest := bit e.2.2 1 }) s

/-- R141, R145, R295 step 3: the placed cores, with the banks that wait to be zeroised. -/
def State.placeCores (s : State) (n : Nat) : State :=
  (s.part n).img.cores.foldl (fun (s : State) r =>
    (rectCores r.x0 r.y0 r.w r.h).foldl (fun (s : State) c =>
      (s.onCore c fun k => { k.stop with placed := true, ue := false, powered := 0, zeroising := 0, zeroWait := r.mask }).startZeroise c)
      s) s

/-- R294: the chunks of the first read. -/
def imageChunks (b : List Byte) : List (List Byte) := pieces (4 * 2 ^ 20) b.length b

/-- R294, R295 steps 1-3: an image that passed its checks. [DEDUCED, log 6] -/
def State.beginLoad (s : State) (n : Nat) (q : LoadReq) (b : List Byte) : State :=
  let p := s.part n
  let gs := s.freeGroupList.zip (imageGroups b)
  let groupOf (i : Nat) : Nat := ((gs.find? fun e => e.2.1 = i).map (·.1)).getD 0
  let img := imageOf b (32 * p.col) (32 * p.row) groupOf ((s.chooseRegions (fieldOf b 10 2)).getD [])
  let s1 := s.onPart n fun p => { p with
    offer := if img.sealed then p.offer else none
    state := .loading, hold := q.hold, img, loading := some q.h, limit := 0, ended := none
    logs := [], phase := 0, detHold := false, imageAt := q.addr, imageLen := b.length
    chunks := (imageChunks b).map digestOf }
  ((((s1.reserveGroups n gs).loadDies n (s.newJob n) img).loadKeys n).placeCores n)

/-! ### Loading, phase two: steps 4-7 of R295 -/

/-- R141: every bank of the job is ready, and every region that it uses is on; a load that is lost goes no further (R274). -/
def State.loadReady (s : State) (n : Nat) : Bool :=
  decide ((s.part n).state = .loading) && (s.part n).loading.isSome &&
    (s.placedCores n).all fun c => (s.core c).zeroWait == 0 && (s.core c).zeroising == 0 && s.regionOn c

/-- R293, R424: the data of a segment, decrypted and relocated. -/
def State.segData (s : State) (n : Nat) (b : List Byte) (i : Nat) (g : SegRec) : List Byte :=
  let p := s.part n
  let raw := (b.drop g.at_).take g.len
  let plain := match p.img.sealed, p.secrets with
    | true, some k => if k.imageKey.all (· == 0) then raw else ctrDecrypt k.imageKey i raw
    | _, _ => raw
  g.relocs.foldl (relocateAt (32 * p.col) (32 * p.row)) plain

/-- R293, R295 step 4: the segments, in the order of their records, to the placed cores of their rectangles. -/
def State.writeSegs (s : State) (n : Nat) (b : List Byte) : State :=
  let segs := (s.part n).img.segs
  ((List.range segs.length).zip segs).foldl (fun (s : State) e =>
    let data := s.segData n b e.1 e.2
    ((s.placedCores n).filter (⟨e.2.x0, e.2.y0, e.2.w, e.2.h⟩ : Rect).has).foldl
      (fun (s : State) c => s.spwrite c e.2.off data []) s) s

/-- R68: `CORE_PART` of a partition. -/
def Part.partReg (p : Part) (n : Nat) : BitVec 20 :=
  BitVec.ofNat 20 (packFields [(0, p.row), (4, p.col), (8, p.rows % 16), (12, p.cols % 16), (16, n)])

/-- R41, R295 step 5: a placed core's architectural state. -/
def Part.setCore (p : Part) (n : Nat) (c : CoreRef) (k : Core) : Core :=
  let img := p.img
  let entry := ((img.cores.find? fun r => (⟨r.x0, r.y0, r.w, r.h⟩ : Rect).has c).map fun r => r.entry).getD 0
  let fpmode : BitVec 2 := BitVec.ofNat 2 (b2n img.subn + 2 * b2n img.sat)
  let k1 := { k.clear fpmode with pc := entry, partReg := p.partReg n, sealed := img.sealed, detreq := img.detreq }
  img.binds.foldl (fun k r => if (⟨r.x0, r.y0, r.w, r.h⟩ : Rect).has c then k.bind r.chan r.group else k) k1

/-- R201, R204, R264: the groups with their member dies. -/
def State.fillGroups (s : State) (n : Nat) : State :=
  (s.partGroups n).foldl (fun (s : State) g =>
    let dies := s.memberDies g
    let count := BitVec.ofNat 8 dies.length
    s.setGroup g { s.group g with
      dies := count, pending := count, fallback := dies.any fun d => (s.die d).culvertsLost == 2 }) s

/-- R188: an endpoint at the core's lowest free place; the manual does not say which of the eight it takes. [DESIGN CHOICE, log 71] -/
def Core.giveEndpoint (k : Core) (e : Nat) (role : BitVec 3) : Core :=
  match (List.range 8).find? fun i => !(k.endpoint (BitVec.ofNat 3 i)).valid with
  | none => k
  | some i =>
    k.setEndpoint (BitVec.ofNat 3 i)
      { valid := true, role, flume := BitVec.ofNat 12 e, ctr := BitVec.ofNat 6 (bits e 80 6)
        base := BitVec.ofNat 13 (bits e 54 13), size := BitVec.ofNat 13 (bits e 67 13) }

/-- R188: the roles of a flume's sending and receiving cores. -/
def flumeRoles (e : Nat) : BitVec 3 × BitVec 3 :=
  match flumeKind e with
  | 0 => (0, 1)
  | 1 => (0, 2)
  | _ => (3, 4)

/-- R185: the routers on the way, from the one at which the stream enters. -/
def flumeWay (e : Nat) (f : FlumeShape) : List Point :=
  match flumeKind e with
  | 1 => nth [] f.paths 0 ++ (nth [] f.paths 1).drop 1
  | _ => f.paths.getLastD []

/-- R185, R194: a flume's place in router i of its way; the taps of a multicast begin at the end of its first path. -/
def State.flumeHop (s : State) (n e : Nat) (f : FlumeShape) (way : List Point) (i : Nat) : FlumeHop :=
  let q := nth (0, 0) way i
  let last : Bool := i + 1 == way.length
  let tapped := flumeKind e = 1 ∧ (nth [] f.paths 0).length ≤ i + 1 ∧ last = false
  let k := s.core (pointCore q)
  { part := BitVec.ofNat 4 n, flume := BitVec.ofNat 12 e
    inp := if i = 0 then 4 else BitVec.ofNat 3 (farInput (wayTo (nth (0, 0) way (i - 1)) q))
    out := if last then 4 else BitVec.ofNat 3 (wayTo q (nth (0, 0) way (i + 1))), share := bits e 15 3
    tap := if tapped then ((List.range 8).find? fun j =>
        let x := k.endpoint (BitVec.ofNat 3 j)
        x.valid && x.role == 2 && x.flume == BitVec.ofNat 12 e).map (BitVec.ofNat 3) else none }

/-- R185, R186, R196: the steps of a collector's legs, each at the contributor that it leaves: its place, its output, and
whether it is of the column leg. -/
def collectorLegs (e : Nat) : List (CoreRef × Nat × Bool) :=
  let step (c n : CoreRef) : Nat := wayTo (c.x.toNat, c.y.toNat) (n.x.toNat, n.y.toNat)
  let rows := (List.range (flumeCh e)).flatMap fun r => (List.range (flumeCw e - 1)).map fun i =>
    (contributor e r i, step (contributor e r i) (contributor e r (i + 1)), false)
  let col := (List.range (flumeCh e - 1)).map fun r =>
    (contributor e r (flumeCw e - 1), step (contributor e r (flumeCw e - 1)) (contributor e (r + 1) (flumeCw e - 1)), true)
  rows ++ col

/-- R182, R185, R188: one flume is established. Senders take their endpoints first. [DESIGN CHOICE, log 71] -/
def State.establish (s : State) (n e : Nat) : State :=
  let f := flumeShape e 0 0
  let roles := flumeRoles e
  let give (role : BitVec 3) (s : State) (p : Point) : State := s.onCore (pointCore p) fun k => k.giveEndpoint e role
  let s1 := f.recvs.foldl (give roles.2) (f.sends.foldl (give roles.1) s)
  let way := flumeWay e f
  let place (c : CoreRef) (h : FlumeHop) (s : State) : State :=
    s.setRouter c { s.router c with flumes := (s.router c).flumes ++ [h] }
  let legs := if flumeKind e = 2 then collectorLegs e else []
  let s2 := legs.foldl (fun (s : State) g => place g.1
    { part := BitVec.ofNat 4 n, flume := BitVec.ofNat 12 e, inp := 4, out := BitVec.ofNat 3 g.2.1, share := bits e 15 3
      leg := some g.2.2 } s) s1
  (List.range way.length).foldl (fun (s : State) i =>
    place (pointCore (nth (0, 0) way i)) (s1.flumeHop n e f way i) s) s2

/-- R255, R432: an entry of the link table is established: a link flume's source core holds its endpoint; CMP in a group of
one panel is set aside, and recorded. -/
def State.establishLink (s : State) (n r : Nat) : State :=
  match s.linkSpec n r with
  | none => s
  | some sp =>
    let p := s.part n
    let s1 :=
      if sp.cmp.isSome ∧ (p.bound.any fun b => b.lone) then
        s.record { kind := 0x11, part := BitVec.ofNat 8 n, job := s.partJob n }
      else s
    match sp.kind with
    | .flume src _ _ _ _ _ _ _ =>
      s1.onCore (coreXY (src.x.toNat + 32 * p.col) (src.y.toNat + 32 * p.row)) fun k =>
        { k with linkEps := k.linkEps ++ [{ entry := BitVec.ofNat 6 r }] }
    | .collector _ _ _ => s1

/-- R255, R295 step 6: the flume table and the link table are established. -/
def State.establishAll (s : State) (n : Nat) : State :=
  let img := (s.part n).img
  let s1 := img.flumes.foldl (fun (s : State) e => s.establish n e.toNat) s
  (List.range img.links.length).foldl (fun (s : State) r => s.establishLink n r) s1

/-- R289: DETAIL of a load that succeeded. -/
def State.loadDetail (s : State) (n : Nat) : List Byte :=
  let img := (s.part n).img
  [s.partJob n, BitVec.ofNat 8 img.gran.toNat, 0, 0] ++
    img.ranges.flatMap fun r => bytesOf 4 (r.1.toNat + 2 ^ 16 * r.2.toNat)

/-- A load ends without success: steps 2-4 of R298 undo it. -/
def State.failLoad (s : State) (n : Nat) (status : BitVec 16) (detail : List Byte) : State :=
  let s1 := (s.onPart n fun p => { p with loading := none }).endSteps n
  match (s.part n).loading with
  | some h => s1.answer h status detail
  | none => s1

/-- R295 steps 4-7. -/
def State.finishLoad (s : State) (n : Nat) : State :=
  let p := s.part n
  let b := s.hostBytes p.owner p.imageAt.toNat p.imageLen
  let now := (imageChunks b).map digestOf
  match (List.range now.length).find? fun i => now[i]? ≠ p.chunks[i]? with
  | some i => s.failLoad n 0x0301 (bytesOf 4 (4 * 2 ^ 20 * i))
  | none =>
    let s1 := s.writeSegs n b
    let s2 := (s.placedCores n).foldl (fun (s : State) c => s.onCore c fun k => p.setCore n c k) s1
    let s3 := (((s2.fillGroups n).establishAll n).onPart n fun p => { p with state := .loaded, loading := none })
    match p.loading with
    | some h => s3.answer h stOk (s3.loadDetail n)
    | none => s3

/-- A load whose last bank or region has become ready goes on. [DEDUCED, log 6] -/
def State.tryFinish (s : State) (n : Nat) : State := if s.loadReady n then s.finishLoad n else s

/-! ### JOB_LOAD -/

/-- R294, R399: a load into the partition waits. -/
def State.loadBlocked (s : State) (n : Nat) : Bool :=
  s.engageWaits n || (s.partCores n).any fun c => (s.core c).testing

/-- R373: the clocks of every die that can run stop, or run. -/
def State.setClocks (s : State) (on : Bool) : State :=
  { s with dies := tmap {} (fun _ d => { d with clocks := on && d.alive && d.locked && !d.inReset }) s.dies }

/-- R374: the panel returns from Idle to Run; its crossings are re-centred. -/
def State.leaveIdle (s : State) : State :=
  if s.panel.pstate = .idle then
    ((s.recentre fun _ => true).setClocks true).onPanel fun p => { p with pstate := .run }
  else s

/-- R294, R295: a load whose turn has come. -/
def State.load (s : State) (n : Nat) (q : LoadReq) : State :=
  let p := s.part n
  if p.state ≠ .idle then s.answer q.h stState [BitVec.ofNat 8 p.state.code, 0]
  else if s.panel.pstate = .regionGated ∨ s.panel.pstate = .standby then s.answer q.h stState
  else if s.dmaOk p.owner q.addr.toNat q.len.toNat = false then s.answer q.h stHost
  else
    let s1 := s.leaveIdle
    let b := s1.hostBytes p.owner q.addr.toNat q.len.toNat
    let st := s1.imageStatus n b
    if st.1 = stOk then (s1.beginLoad n q b).tryFinish n else s1.answer q.h st.1 st.2

/-- The loads of a partition whose wait is over, by fuel. -/
def State.runLoads (s : State) (n : Nat) : Nat → State
  | 0 => s
  | fuel + 1 =>
    match (s.part n).loadWait with
    | [] => s
    | q :: rest =>
      if s.loadBlocked n then s
      else ((s.onPart n fun p => { p with loadWait := rest }).load n q).runLoads n fuel

/-- Every load whose wait is over. -/
def State.resumeLoads (s : State) : State :=
  (List.range 16).foldl (fun (s : State) n => s.runLoads n (s.part n).loadWait.length) s

/-- JOB_LOAD (R289, R294, R295, R374). -/
def execJobLoad (h : Cmd) (addr : Reg64) (len : Word) (hold : Bool) (s : State) : Host.Outcome State Fault Refusal :=
  command h (gateOf 0x0301) s fun s =>
    let n := h.part.toNat
    let q : LoadReq := { h, addr, len, hold }
    (s.onPart n fun p => { p with loadWait := p.loadWait ++ [q] }).runLoads n ((s.part n).loadWait.length + 1)

/-- BANK_ZEROISE_DONE (R141): the bank holds zero data and is powered; the core's next bank begins. [DEDUCED, log 6] -/
def execBankZeroiseDone (c : CoreRef) (bank : BitVec 4) (s : State) : Host.Outcome State Fault Refusal :=
  coreEvent c s fun s k =>
    if k.zeroising.getLsbD bank.toNat = false then s
    else
      let m : BitVec 16 := BitVec.ofNat 16 (2 ^ bank.toNat)
      let mine (off : Nat) : Bool := bankOf off == bank.toNat
      let k1 := { k with
        zeroising := k.zeroising &&& ~~~m, powered := k.powered ||| m
        ecc := tkeep (fun w => !mine (8 * w)) k.ecc }
      let base := spAddr c 0
      let s1 := { s with mem := memDrop s.mem fun a => decide (base ≤ a) && decide (a < base + 2 ^ 19) && mine (a - base) }
      let s2 := (s1.setCore c k1).startZeroise c
      match s.partOfDie (dieRow c) (dieCol c) with
      | some n => s2.tryFinish n
      | none => s2

/-! ### Start, completion, end -/

/-- JOB_START (R289, R296, R325, R432). -/
def execJobStart (h : Cmd) (limit : Word) (s : State) : Host.Outcome State Fault Refusal :=
  command h (gateOf 0x0302) s (asks := fun s =>
    let p := s.part h.part.toNat
    { refused := if p.img.multi ∧ p.bound.isNone then some (stState, [BitVec.ofNat 8 p.state.code, 0]) else none }) fun s =>
    let n := h.part.toNat
    let s1 := (s.partSites n).foldl (fun (s : State) d => s.onDie d fun die => { die with net := .running }) s
    let s2 := (s1.placedCores n).foldl (fun (s : State) c => s.onCore c fun k => k.start k.pc) s1
    let s3 := s2.onPart n fun p => { p with state := .running, limit }
    (s3.enterPhase n 0).answer h stOk

/-- The lower of two cores: by Y, then by X. -/
def coreLess (a b : CoreRef) : Bool := decide (coreKey a < coreKey b)

/-- R287: the first core concerned. -/
def firstCore (l : List CoreRef) : Option CoreRef :=
  l.foldl (fun m c =>
    match m with
    | none => some c
    | some d => if coreLess c d then some c else m) none

/-- R287: an end that names the first of some cores, and their number. -/
def endWith (status : BitVec 16) (l : List CoreRef) (code : CoreRef → BitVec 16) (hook : CoreRef → Word) : JobEnd :=
  match firstCore l with
  | none => { status }
  | some c => { status, x := c.x.setWidth 16, y := c.y.setWidth 16, code := code c, count := BitVec.ofNat 32 l.length, hook := hook c }

/-- R287: the end of a job that completed. -/
def State.completion (s : State) (n : Nat) : JobEnd :=
  endWith 0x0300 ((s.placedCores n).filter fun c => (s.core c).exitCode ≠ 0) (fun c => (s.core c).exitCode) (fun _ => 0)

/-- R343: a die of the job's partition has lost determinism, and the job asks for it. -/
def State.detFailed (s : State) (n : Nat) : Bool := (s.part n).img.detreq && (s.partSites n).any fun d => (s.die d).detLost

/-- JOB_COMPLETE (R297, R302, R343 step 4). -/
def execJobComplete (part : BitVec 4) (s : State) : Host.Outcome State Fault Refusal :=
  let n := part.toNat
  let p := s.part n
  let halted := (s.placedCores n).all fun c => (s.core c).mode = .halted && (s.core c).exitValid
  if p.state ≠ .running ∨ halted = false then .next s
  else if s.detFailed n then .next (s.endJob n { status := 0x031A })
  else
    let e := s.completion n
    if p.hold then
      let s1 := s.onPart n fun p => { p with state := .held, ended := some e }
      .next (s1.wake (fun w => decide (w.2.part.toNat = n) && w.1 == .job) e.status (e.detail (s.partJob n)))
    else .next ((s.endJob n e).closeRecords)

/-- JOB_END (R289, R297): a Held job ends. -/
def execJobEnd (h : Cmd) (s : State) : Host.Outcome State Fault Refusal :=
  command h (gateOf 0x0307) s fun s => ((s.endJob h.part.toNat { status := 0x0300 }).closeRecords).answer h stOk

/-- R385, R386: the host's abort, as the collector accepts it. [DEDUCED, log 57] -/
def State.hostAbort (s : State) (n : Nat) (code : BitVec 16) : State :=
  s.acceptOwn
    { source := 0x010A, site := unitWord ⟨3, 0, 15⟩, part := BitVec.ofNat 8 n, job := s.partJob n, status := 0x0319, code
      detail := statusDetail 0x0319 code }

/-- JOB_ABORT (R289, R302). -/
def execJobAbort (h : Cmd) (reason : BitVec 16) (s : State) : Host.Outcome State Fault Refusal :=
  command h (gateOf 0x0303) s fun s => (s.hostAbort h.part.toNat reason).answer h stOk

/-! ### Waits -/

/-- JOB_WAIT (R284, R289). -/
def execJobWait (h : Cmd) (s : State) : Host.Outcome State Fault Refusal :=
  command h (gateOf 0x0304) s fun s => s.park h .job

/-- CKPT_WAIT (R284, R289). -/
def execCkptWait (h : Cmd) (s : State) : Host.Outcome State Fault Refusal :=
  command h (gateOf 0x0305) s fun s => s.park h .checkpoint

/-- R301: with room in the queue again, the record of a core that waits is taken and the core goes on. -/
def State.takeWaitingLog (s : State) (n : Nat) : State :=
  let waits (c : CoreRef) : Option (List Word) :=
    match (s.core c).mode, (s.core c).service with
    | .runtime, .log l => some l
    | _, _ => none
  match firstCore ((s.partCores n).filter fun c => (waits c).isSome) with
  | none => s
  | some c =>
    match s.takeLog n c ((waits c).getD []) with
    | some s1 => s1.onCore c Core.fromRuntime
    | none => s

/-- LOG_WAIT (R284, R289, R301): the oldest record, now or when there is one. -/
def execLogWait (h : Cmd) (s : State) : Host.Outcome State Fault Refusal :=
  command h (gateOf 0x0308) s fun s =>
    let n := h.part.toNat
    match (s.part n).logs with
    | [] => s.park h .log
    | (x, y, l) :: rest =>
      ((s.onPart n fun p => { p with logs := rest }).takeWaitingLog n).answer h stOk (logDetail x y l)

/-! ### Checkpoints (R300) -/

/-- The hook at which a core waits. -/
def Core.atHook (k : Core) : Option Word :=
  match k.mode, k.service with
  | .runtime, .hook n => some n
  | _, _ => none

/-- The placed cores that wait at hooks. -/
def State.hookCores (s : State) (n : Nat) : List CoreRef := (s.placedCores n).filter fun c => (s.core c).atHook.isSome

/-- R287, R300: an end that names the cores at hooks. [DEDUCED, log 58] -/
def State.hookEnd (s : State) (n : Nat) (status code : BitVec 16) (named : Bool) : JobEnd :=
  endWith status (s.hookCores n) (fun _ => code) fun c => if named then (s.core c).atHook.getD 0 else 0

/-- CHECKPOINT_ENTRY (R300, R343 step 4). -/
def execCheckpointEntry (part : BitVec 4) (s : State) : Host.Outcome State Fault Refusal :=
  let n := part.toNat
  let hooks := s.hookCores n
  let others := (s.placedCores n).filter fun c => (s.core c).mode ≠ .halted && !(s.core c).atHook.isSome
  if (s.part n).state ≠ .running ∨ hooks = [] ∨ others ≠ [] then .next s
  else
    let number := ((firstCore hooks).bind fun c => (s.core c).atHook).getD 0
    if (hooks.any fun c => (s.core c).atHook ≠ some number) then
      .next ((s.endJob n (s.hookEnd n 0x0314 0x0002 true)).closeRecords)
    else if s.detFailed n then .next ((s.endJob n { status := 0x031A }).closeRecords)
    else
      let s1 := s.onPart n fun p => { p with state := .checkpoint }
      .next (s1.wake (fun w => decide (w.2.part.toNat = n) && w.1 == .checkpoint) stOk (bytesOf 4 number.toNat))

/-- CKPT_RELEASE (R289, R300). -/
def execCkptRelease (h : Cmd) (s : State) : Host.Outcome State Fault Refusal :=
  command h (gateOf 0x0306) s fun s =>
    let n := h.part.toNat
    let s1 := (s.hookCores n).foldl (fun (s : State) c => s.onCore c Core.release) s
    (s1.onPart n fun p => { p with state := .running }).answer h stOk

/-- CKPT_LIMIT_EXPIRE (R300). -/
def execCkptLimitExpire (part : BitVec 4) (s : State) : Host.Outcome State Fault Refusal :=
  let n := part.toNat
  let p := s.part n
  if p.limit = 0 ∨ s.hookCores n = [] ∨ (p.state ≠ .running ∧ p.state ≠ .checkpoint) then .next s
  else .next ((s.endJob n (s.hookEnd n 0x031B 0 false)).closeRecords)

end Sys2Proof.Machine
end

