-- ==== Sys2Proof/Machine/Power.lean ====
section
/-!
DEFINITION. Power delivery (chapter 11): rails, notices, admission of regions, caps, voltages, lost phases and rails, and
the power commands.
-/

namespace Sys2Proof.Machine

/-! ### Figures of the variant (R308, R321) -/

/-- R308: thermal design power, W. -/
def State.tdp (s : State) : Nat :=
  match s.panel.variant.toNat with
  | 0 => 23000
  | 1 => 19300
  | _ => 15600

/-- R308: the budgets of the consumers other than the compute stacks, W. [DESIGN CHOICE, log 29] -/
def State.otherPower (s : State) : Nat := s.tdp - 120 * (12 * s.lcols)

/-- R321, R327: the panel limit in force, W. -/
def State.limitInForce (s : State) : Nat := clamp 12000 s.tdp s.panel.limit.toNat

/-- The sites that serve a logical die. -/
def State.presentSites (s : State) : List Nat :=
  (List.range 12).flatMap fun r => (List.range s.lcols).filterMap fun c => s.dieAt r c

/-- R316: the die budget, 0.1 W. -/
def State.dieBudget (s : State) : Nat :=
  min 1300 ((s.limitInForce - s.otherPower) * 10 / max 1 s.presentSites.length)

/-- R316: the declared peak of a region of a partition, mW. -/
def State.declaredPeak (s : State) (n : Nat) : Nat :=
  let l := (s.part n).img.phases.map fun p => p.rpeak
  if l = [] then 2496 else l.foldl max 0

/-! ### Regions -/

/-- The report of a region, with its register. -/
def State.regionReport (s : State) (d r : Nat) (source : BitVec 16) : Report :=
  { s.dieReport d r source with detail := bytesOf 8 (s.region d r).reg.toNat }

/-- The report of a die as a whole, with a register. -/
def State.wholeDie (s : State) (d : Nat) (source : BitVec 16) (reg : Reg64) : Report :=
  { s.dieReport d 0xFFFF source with detail := bytesOf 8 reg.toNat }

/-- An event of a region. -/
def regionEvent (d : Site) (region : BitVec 6) (s : State) (body : State → Nat → Nat → Region → State) :
    Host.Outcome State Fault Refusal :=
  siteEvent d s fun s k => body s k region.toNat (s.region k region.toNat)

/-- R317: the region's current is at least 90% of its cap. -/
def Region.atPeak (r : Region) : Bool :=
  decide (r.state = .own ∨ r.state = .logic) && decide (9 * (50 * r.cap.toNat) * 8 ≤ 10 * (r.draw * r.duty))

/-- R317: the north, east, south and west neighbours of a region on its die. [DEDUCED, log 28] -/
def regionNeighbours (r : Nat) : List Nat :=
  (if 8 ≤ r then [r - 8] else []) ++ (if r % 8 < 7 then [r + 1] else []) ++ (if r < 56 then [r + 8] else []) ++
    (if 0 < r % 8 then [r - 1] else [])

/-- R317: a neighbour is at peak. -/
def State.besidePeak (s : State) (d r : Nat) : Bool := (regionNeighbours r).any fun n => (s.region d n).atPeak

/-- R322, R324: a region goes dark. -/
def State.darken (s : State) (d r : Nat) : State :=
  let s1 := (s.setRegion d r { s.region d r with
    state := .dark, vout := 0, cap := 0, transfer := false, nbWaiting := false, boost := false, allPhases := false }).onPanel fun p =>
      { p with wave := p.wave.filter fun e => !(decide (siteKey e.1 = d) && decide (e.2.toNat = r)) }
  s1.report (s1.regionReport d r 0x0502)

/-! ### Switch-on (R315-R317) -/

/-- The keys of the regions that hold placed cores of a partition. -/
def State.placedRegions (s : State) (n : Nat) : List Nat :=
  (s.placedCores n).filterMap fun c => (s.dieOf c).map fun d => 64 * d + regionOfIndex (coreIndex c)

/-- R315: of each region row of a die, the first region that must be switched on. -/
def State.waveOf (s : State) (need : List Nat) (d : Nat) : List Nat :=
  (List.range 8).filterMap fun row =>
    ((List.range 8).map fun i => 8 * row + i).find? fun r =>
      need.contains (64 * d + r) && decide ((s.region d r).state = .off)

/-- R315: the next wave. [DESIGN CHOICE, log 64] -/
def State.nextWave (s : State) : List (Nat × Nat) :=
  ((List.range 16).flatMap fun n =>
    if (s.part n).state = .loading then
      let need := s.placedRegions n
      (s.partSites n).flatMap fun d => (s.waveOf need d).map fun r => (d, r)
    else []).take 256

/-- REGION_WAVE (R315): with no ramp of a wave outstanding, the next regions ask for admission. -/
def execRegionWave (s : State) : Host.Outcome State Fault Refusal :=
  if s.panel.wave ≠ [] then .next s
  else
    let w := s.nextWave
    let s1 := w.foldl (fun (s : State) e =>
      s.setRegion e.1 e.2 { s.region e.1 e.2 with state := .waiting, nbWait := false }) s
    .next (s1.onPanel fun p => { p with wave := w.map fun e => (siteOfKey e.1, BitVec.ofNat 6 e.2) })

/-- R316: the region that asked first among those of a die that wait for admission. -/
def State.firstWaiting (s : State) (d : Nat) : Option Nat :=
  ((s.panel.wave.filter fun e => decide (siteKey e.1 = d)).map fun e => e.2.toNat).find? fun r =>
    decide ((s.region d r).state = .waiting) && !(s.region d r).nbWaiting

/-- R316, R351: a thermal cap is in force on the die. -/
def State.cappedDie (s : State) (d : Nat) : Bool := (s.regionsOf d).any fun r => decide (r.thermalCap < 8)

/-- R316: the headroom of a die covers the region's declared peak. -/
def State.hasRoom (s : State) (d : Nat) (avgPower admitted : Nat) : Bool :=
  let peak := s.declaredPeak ((s.partOfSite d).getD 16)
  decide (100 * avgPower + admitted + peak ≤ 100 * s.dieBudget)

/-- R317: an admitted region ramps, or waits for a neighbour at peak. -/
def State.letRamp (s : State) (d r : Nat) : State :=
  let x := s.region d r
  if s.besidePeak d r then s.setRegion d r { x with nbWaiting := true, nbWait := true }
  else s.setRegion d r { x with state := .ramping, nbWaiting := false }

/-- REGION_ADMIT (R316, R317): `avgPower` is the die's power over the last 100 us, `admitted` the sum of the peaks admitted
in the last 1 ms. A region that waits for its neighbours goes on when none is at peak. -/
def execRegionAdmit (d : Site) (region : BitVec 6) (avgPower admitted : BitVec 16) (s : State) :
    Host.Outcome State Fault Refusal :=
  regionEvent d region s fun s k r x =>
    let s1 := s.onDie k fun die => { die with
      power := BitVec.ofNat 12 (min 4095 avgPower.toNat), budget := BitVec.ofNat 12 s.dieBudget }
    if x.nbWaiting then (if s1.besidePeak k r then s1 else s1.letRamp k r)
    else if s1.firstWaiting k ≠ some r ∨ s1.cappedDie k ∨ s1.hasRoom k avgPower.toNat admitted.toNat = false then s1
    else s1.letRamp k r

/-- NEIGHBOUR_WAIT_EXPIRE (R317): after 50 us the region ramps whether or not the neighbour is still at peak. -/
def execNeighbourWaitExpire (d : Site) (region : BitVec 6) (s : State) : Host.Outcome State Fault Refusal :=
  regionEvent d region s fun s k r x =>
    if x.nbWaiting then s.setRegion k r { x with state := .ramping, nbWaiting := false } else s

/-- R141, R295: the placed cores of a region that is on begin to zeroise, and a load that waited for it goes on. -/
def State.regionReady (s : State) (d r : Nat) : State :=
  match s.partOfSite d with
  | none => s
  | some n =>
    let mine (c : CoreRef) : Bool := s.dieOf c == some d && regionOfIndex (coreIndex c) == r
    (((s.placedCores n).filter mine).foldl State.startZeroise s).tryFinish n

/-- R312, R323: a region is supplied by the die logic rail in coarse mode and with three or more phases lost. -/
def State.onLogicRail (s : State) (x : Region) : Bool := s.panel.coarse || decide (x.livePhases ≤ 5)

/-- REGION_RAMP_DONE (R317, R320, R322, R333): the working point is reached; the region's crossing is re-centred. -/
def execRegionRampDone (d : Site) (region : BitVec 6) (s : State) : Host.Outcome State Fault Refusal :=
  regionEvent d region s fun s k r x =>
    if x.state ≠ .ramping then s
    else
      let s1 := (s.onPanel fun p => { p with wave := p.wave.filter fun e => !(e.1 == siteOfKey k && e.2 == region) }).onDie k
        fun die => { die with elastic := die.elastic.filter fun c => c.toNat ≠ r }
      let fresh := { x with vout := 780, debt := 0, zone := 1 }
      if s.onLogicRail x = false then
        (s1.setRegion k r { fresh with state := .own, cap := BitVec.ofNat 7 (8 * x.livePhases) }).regionReady k r
      else if (s.die k).logicFailed then s1.darken k r
      else (s1.setRegion k r { fresh with state := .logic, cap := 64 }).regionReady k r

/-- ADMISSION_TIMEOUT (R316): 100 ms after its load a partition still has a region that is not admitted. -/
def execAdmissionTimeout (part : BitVec 4) (s : State) : Host.Outcome State Fault Refusal :=
  let n := part.toNat
  let open_ := (s.placedRegions n).any fun k =>
    let r := s.region (k / 64) (k % 64)
    decide (r.state = .off) || (decide (r.state = .waiting) && !r.nbWaiting)
  if (s.part n).state = .loading ∧ open_ then .next (s.failLoad n stResources []) else .next s

/-! ### Notices and steps (R313, R314) -/

/-- R313: the 20 mV above the working point. -/
def Region.boosted (r : Region) (on : Bool) : Region :=
  if r.boost = on then r
  else { r with boost := on, vout := if on then r.vout + 20 else r.vout - 20 }

/-- The cores of a region of a site. -/
def State.regionCores (s : State) (d r : Nat) : List CoreRef :=
  (List.range 16).filterMap fun i => s.coreAt d (32 * (4 * (r / 8) + i / 4) + 4 * (r % 8) + i % 4)

/-- R64, R313: the draw that the notices of a region's cores announce together, in fifteenths of a core's peak. [DEDUCED, log 28] -/
def State.announcedDraw (s : State) (d r : Nat) : Nat :=
  ((s.regionCores d r).map fun c => (((s.core c).notice.map fun n => n.level.toNat).getD 0)).sum

/-- REGULATOR_NOTICE_STEP (R313): every live phase and the boost for a rise that notices announce, the end of the boost, or
the shedding of phases after a fall. -/
def execRegulatorNoticeStep (d : Site) (region : BitVec 6) (phase : NoticePhase) (s : State) :
    Host.Outcome State Fault Refusal :=
  regionEvent d region s fun s k r x =>
    if x.state ≠ .own then s
    else
      match phase with
      | .rise => if s.announcedDraw k r = 0 then s else s.setRegion k r { x.boosted true with allPhases := true }
      | .afterRise => s.setRegion k r (x.boosted false)
      | .afterFall => s.setRegion k r { x with allPhases := false }

/-- R314, R320: the working point of a region, and its floor, mV. -/
def Region.point (r : Region) : Nat := r.vout.toNat - (if r.boost then 20 else 0)
def Region.floorMv (r : Region) : Nat := min 780 (620 + 10 * r.floor.toNat)

/-- The region's supply at another working point. -/
def Region.atPoint (r : Region) (mv : Nat) : Region := { r with vout := BitVec.ofNat 10 (mv + if r.boost then 20 else 0) }

/-- UNANNOUNCED_STEP (R314): `inMs` counts the region's steps of this millisecond; the 1,001st raises the floor. -/
def execUnannouncedStep (d : Site) (region : BitVec 6) (inMs : BitVec 16) (s : State) : Host.Outcome State Fault Refusal :=
  regionEvent d region s fun s k r x =>
    let s1 := s.onDie k fun die => { die with unannounced := satInc die.unannounced }
    if inMs.toNat = 1001 then
      let y := { x with floor := satInc x.floor 2 }
      s1.setRegion k r (if y.state = .own then y.atPoint (max y.point y.floorMv) else y)
    else s1

/-! ### Caps and voltages (R320, R321) -/

/-- R307, R321: the limit that the budget cap holds, W. -/
def State.capLimit (s : State) : Nat := if s.panel.railCap then s.limitInForce * 8 / 10 else s.limitInForce

/-- R321: the budget caps of the supplied regions, one eighth lower or higher. [DESIGN CHOICE, log 29] -/
def State.stepBudgetCaps (s : State) (avgPower : Nat) : State :=
  let lim := s.capLimit
  let step (r : Region) : Region :=
    if r.state ≠ .own ∧ r.state ≠ .logic then r
    else if lim < avgPower then { r with budgetCap := r.budgetCap - 1 }
    else if 100 * avgPower < 95 * lim then { r with budgetCap := min 8 (r.budgetCap + 1) }
    else r
  { s with regions := tmap {} (fun _ r => step r) s.regions }

/-- BUDGET_CAP_TICK (R321, R327): `avgPower` is the panel power over 1 ms, W; the rail's readings are free values. -/
def execBudgetCapTick (avgPower : BitVec 16) (s : State) : Host.Outcome State Fault Refusal :=
  let s1 := s.tick.onPanel fun p => { p with
    power := avgPower, vin := Config.railMillivolts s.free, iin := Config.railAmperes s.free }
  .next (s1.stepBudgetCaps avgPower.toNat)

/-- VOLTAGE_ADAPT_TICK (R320, R336): what the region did in the last millisecond. -/
def execVoltageAdaptTick (d : Site) (region : BitVec 6) (fullDuty : Bool) (stretched : BitVec 16) (allGreen : Bool)
    (s : State) : Host.Outcome State Fault Refusal :=
  regionEvent d region s fun s k r x =>
    if x.state ≠ .own then s
    else if 64 < stretched.toNat then s.setRegion k r (x.atPoint (min 780 (x.point + 10)))
    else if fullDuty ∧ stretched = 0 ∧ ((s.die k).det = false ∨ allGreen) ∧ x.floorMv < x.point then
      s.setRegion k r (x.atPoint (x.point - 10))
    else s

/-! ### Lost phases and rails (R322-R324) -/

/-- PHASE_LOSS (R322, R323): `draw` is the region's current at full duty, mA. -/
def execPhaseLoss (d : Site) (region : BitVec 6) (phase : BitVec 3) (draw : BitVec 12) (s : State) :
    Host.Outcome State Fault Refusal :=
  regionEvent d region s fun s k r x =>
    if x.phases.getLsbD phase.toNat = false ∨ (x.state ≠ .own ∧ x.state ≠ .ramping) then s
    else
      let y := { x with phases := x.phases &&& ~~~((1 : BitVec 8) <<< phase.toNat), draw := draw.toNat }
      let s1 := { s with flash := { s.flash with phases := s.flash.phases ++ [(siteOfKey k, region, phase)] } }
      let keep (z : Region) : State :=
        let s2 := s1.setRegion k r z
        s2.report (s2.regionReport k r 0x0501)
      if y.state = .ramping then keep y
      else if 6 ≤ y.livePhases then keep { y with cap := BitVec.ofNat 7 (8 * y.livePhases) }
      else if (s.die k).logicFailed then (s1.setRegion k r y).darken k r
      else keep { y with state := .logic, cap := 64, vout := 780, boost := false, allPhases := false, transfer := true }

/-- RAIL_TRANSFER_COMPLETE (R323). -/
def execRailTransferComplete (d : Site) (region : BitVec 6) (s : State) : Host.Outcome State Fault Refusal :=
  regionEvent d region s fun s k r x => s.setRegion k r { x with transfer := false }

/-- LOGIC_RAIL_FAIL (R312, R322): the regions that it carries go dark; in coarse mode the die does. -/
def execLogicRailFail (d : Site) (s : State) : Host.Outcome State Fault Refusal :=
  siteEvent d s fun s k =>
    if (s.die k).logicFailed then s
    else
      let s1 := s.onDie k fun die => { die with logicFailed := true }
      let carried := (List.range 64).filter fun r => decide ((s.region k r).state = .logic)
      if s.panel.coarse then
        let s2 := (List.range 64).foldl (fun (s : State) r =>
          s.setRegion k r { (s.region k r).off with state := .dark }) (s1.regionsOff fun e => e == k)
        s2.report (s2.wholeDie k 0x0502 (s2.pwrstat k))
      else if carried = [] then s1.report (s1.wholeDie k 0x0501 (s1.pwrstat k))
      else carried.foldl (fun (s : State) r => s.darken k r) s1

/-- The edges of a die that carry or may carry traffic fail together; with the partitions that lose something. -/
def State.edgesDrop (s : State) (d : Nat) : List (BitVec 8) × State :=
  (List.range 4).foldl (fun (o : List (BitVec 8) × State) e =>
    if (o.2.edge d e).state = 1 then
      let (parts, s1) := o.2.edgeDrop d e
      (o.1 ++ parts, s1)
    else o) ([], s)

/-- R169, R177: a die whose transit has failed: its edges fail, and the partitions that lose something, its own among
them, are named. -/
def State.transitFail (s : State) (d : Nat) (source : BitVec 16) (reg : Reg64) : State :=
  let (parts, s1) := s.edgesDrop d
  let s2 := s1.onDie d fun die => { die with transitFailed := true, clocks := false }
  State.reportParts (s2.wholeDie d source reg) (distinct ((s2.dieReport d 0xFFFF source).part :: parts)) s2

/-- R143: the scratchpads of a site's cores hold nothing. -/
def State.dropDie (s : State) (d : Nat) : State := s.dropScratchpads fun c => s.dieOf c == some d

/-- R452: the weir of a site fails: with the traffic that passes it, or parked. -/
def State.failWeir (s : State) (d : Site) : State :=
  let k := siteKey d
  let s1 := s.weirFailed d
  match s.weirEnds k with
  | some (w, _) =>
    if (s.edge w 1).state = 1 then
      let (parts, s2) := s1.edgeDrop w 1
      State.reportParts { s2.dieReport k 4 0x0205 with detail := bytesOf 8 (s2.edge w 1).reg.toNat } parts s2
    else s1.report (s1.dieReport k 4 0x020B)
  | none => s1.report (s1.dieReport k 4 0x020B)

/-- The culvert groups of a die go down. -/
def State.culvertsDown (s : State) (d : Site) : State :=
  (List.range 8).foldl (fun (s : State) m =>
    let g := s.culvert (siteKey d) m
    if g.state = 0 ∨ g.live = 0 then s
    else (s.setCulvert (siteKey d) m { g with live := 0, relock := none, relockWait := [] }).groupDown d (siteKey d) m) s

/-- STACK_RAIL_FAIL (R309, R324, R452). -/
def execStackRailFail (d : Site) (rail : StackRail) (s : State) : Host.Outcome State Fault Refusal :=
  siteEvent d s fun s k =>
    match rail with
    | .transit => if (s.die k).transitFailed then s else s.transitFail k 0x0205 (s.edge k 0).reg
    | .memory =>
      let s1 := s.dropDie k
      s1.report (s1.wholeDie k 0x0102 (s1.pwrstat k))
    | .link =>
      let (parts, s1) := (s.failWeir d).edgesDrop k
      let s2 := s1.culvertsDown d
      State.reportParts (s2.wholeDie k 0x0205 (s2.edge k 0).reg) (distinct ((s2.dieReport k 0xFFFF 0x0205).part :: parts)) s2

/-- R311, R366: an MSD fails as a unit: its stacks are retired and its culvert groups go down. -/
def State.msdFail (s : State) (m : Nat) : State :=
  if (s.msd m).failed then s
  else
    let s1 := s.setMsd m { s.msd m with failed := true }
    let s2 := ([4 * m, 4 * m + 1, 4 * m + 2, 4 * m + 3] : List Nat).foldl State.retireStack s1
    s2.presentSites.foldl (fun (s : State) k =>
      let g := s.culvert k m
      if g.state = 0 ∨ g.live = 0 then s
      else (s.setCulvert k m { g with live := 0, relock := none, relockWait := [] }).groupDown (siteOfKey k) k m) s2

/-- R248, R311: an IOD fails as a unit: its ports fail. -/
def State.iodFail (s : State) (i : Nat) : State :=
  ((List.range 8).map (8 * i + ·)).foldl (fun (s : State) n =>
    if (s.port n).state = 0 ∨ (s.port n).state = 5 then s else s.portFail n) s

/-- DIE_WIDE_RAIL_FAIL (R311): an MSD, an IOD or a laser source die fails as a unit. -/
def execDieWideRailFail (u : UnitRef) (s : State) : Host.Outcome State Fault Refusal :=
  if (u.kind ≠ 1 ∧ u.kind ≠ 2 ∧ u.kind ≠ 5) ∨ 8 ≤ u.row.toNat ∨ (u.kind = 5 ∧ 4 ≤ u.row.toNat) then .fault .noSuchUnit
  else if s.panel.failedUnits.contains u then .next s
  else
    let s1 := s.onPanel fun p => { p with failedUnits := p.failedUnits ++ [u] }
    .next (if u.kind = 1 then s1.msdFail u.row.toNat else if u.kind = 2 then s1.iodFail u.row.toNat else s1)

/-! ### The intermediate and standby rails (R307) -/

/-- R307, R331, R355: clocks stop, and every regulator shuts down. -/
def State.shutDown (s : State) : State :=
  ((s.setClocks false).regionsOff fun _ => true).onPanel fun p => { p with dead := true }

/-- RAIL_FAULT (R307): outside 1.70-1.90 V for 10 us. -/
def execRailFault (millivolts : BitVec 12) (s : State) : Host.Outcome State Fault Refusal :=
  if 1700 ≤ millivolts.toNat ∧ millivolts.toNat ≤ 1900 then .next s
  else
    let s1 := (s.onPanel fun p => { p with vin := millivolts }).shutDown
    .next (s1.acceptOwn { source := 0x0504, site := unitWord ⟨3, 0, 15⟩, detail := bytesOf 8 s1.panelPwrstat.toNat })

/-- RAIL_OUT_OF_TOLERANCE (R307). -/
def execRailOutOfTolerance (s : State) : Host.Outcome State Fault Refusal :=
  .next ((s.onPanel fun p => { p with railCap := true }).acceptOwn
    { source := 0x0503, site := unitWord ⟨3, 0, 15⟩, detail := bytesOf 8 s.panelPwrstat.toNat })

/-- RAIL_TOLERANCE_RESTORED (R307). -/
def execRailToleranceRestored (s : State) : Host.Outcome State Fault Refusal :=
  .next (s.onPanel fun p => { p with railCap := false })

/-- STANDBY_LOW (R307): the headworks is held in reset, and the ring bypass closes. -/
def execStandbyLow (s : State) : Host.Outcome State Fault Refusal :=
  .next { s with
    panel := { s.panel with hwdHeld := true }
    ring := { s.ring with state := 0, own := [], joining := [] } }

/-! ### Commands (R326) -/

/-- POWER_READ (R326). -/
def execPowerRead (h : Cmd) (addr : Reg64) (len : Word) (s : State) : Host.Outcome State Fault Refusal :=
  command h (gateOf 0x0801) s fun s =>
    let words := s.panelPwrstat :: s.presentSites.flatMap fun d => s.pwrstat d :: (s.regionsOf d).map Region.reg
    s.deliver h addr.toNat len.toNat ((words.flatMap fun w => bytesOf 8 w.toNat).take len.toNat) (bytesOf 4 s.panel.power.toNat)

/-- POWER_LIMIT (R326): the value is kept as written. -/
def execPowerLimit (h : Cmd) (limit : BitVec 16) (s : State) : Host.Outcome State Fault Refusal :=
  command h (gateOf 0x0802) s fun s => (s.onPanel fun p => { p with limit }).answer h stOk

end Sys2Proof.Machine
end

