-- ==== Sys2Proof/Machine/Clock.lean ====
section
/-!
DEFINITION. Clocks and crossings (chapter 12): lost locks and the lost reference, stretched and repaid cycles, and slips.
-/

namespace Sys2Proof.Machine

/-- PLL_LOCK_LOSS (R331): the die's clocks stop, and it is handled as a die whose transit has failed. -/
def execPllLockLoss (d : Site) (s : State) : Host.Outcome State Fault Refusal :=
  siteEvent d s fun s k =>
    if (s.die k).locked = false then s
    else (s.onDie k fun die => { die with locked := false }).transitFail k 0x0505 (s.dieReg k 0x800900)

/-- REFCLK_LOSS (R331): every compute clock stops. -/
def execRefclkLoss (s : State) : Host.Outcome State Fault Refusal :=
  .next ((s.setClocks false).acceptOwn { source := 0x0506, site := unitWord ⟨3, 0, 15⟩ })

/-- R334: the zone of a margin in percent of the period: 0 green, 1 clear, 2 amber, 3 red. -/
def zoneOf (margin : Nat) : BitVec 2 := if 20 ≤ margin then 0 else if 12 ≤ margin then 1 else if 6 ≤ margin then 2 else 3

/-- R334, R335: a cycle of a domain's generator with a zone; `det`: the domain is deterministic. -/
def Region.cycle (r : Region) (zone : BitVec 2) (det : Bool) : Region :=
  let repays : Bool := zone == 0 && det && decide (0 < r.debt) && decide (r.winRepaid < 2)
  let wraps : Bool := decide (63 ≤ r.winCycle)
  { r with
    zone
    stretched := if zone.toNat < 2 then r.stretched else satInc r.stretched
    red := if zone = 3 then satInc r.red else r.red
    debt := if zone = 2 then r.debt + 1 else if zone = 3 then r.debt + 2 else if repays then r.debt - 1 else r.debt
    repaid := if repays then satInc r.repaid else r.repaid
    winCycle := if wraps then 0 else r.winCycle + 1
    winRepaid := if wraps then 0 else if repays then r.winRepaid + 1 else r.winRepaid }

/-- STRETCHED_CYCLE (R44, R334, R335, R346): domains 0-63 are the regions, 64 the transit domain; `margin` is what the worst
monitor leaves, in percent of the period. The domain's counters see one cycle. -/
def execStretchedCycle (d : Site) (domain : BitVec 7) (margin : BitVec 7) (s : State) : Host.Outcome State Fault Refusal :=
  siteEvent d s fun s k =>
    let n := domain.toNat
    let z := zoneOf margin.toNat
    if n = 64 then
      let t := (tget {} s.panel.transit k).cycle z true
      s.onPanel fun p => { p with transit := tset {} p.transit k t }
    else
      let r := s.region k n
      if 64 < n ∨ (r.state ≠ .own ∧ r.state ≠ .logic) then s
      else
        (s.regionCores k n).foldl (fun (s : State) c => s.onCore c fun x => { x with cycle := x.cycle + 1 })
          (s.setRegion k n (r.cycle z (s.die k).det))

/-- R345: the crossings that can slip: region ports, the transit side, and the four die-edge paths. -/
def crossingCode (n : Nat) : Bool := decide (n ≤ 0x40) || (decide (0x44 ≤ n) && decide (n ≤ 0x47))

/-- CROSSING_SLIP (R340, R341, R345): in a job with DETREQ, a crossing that is not yet elastic becomes so. [DEDUCED, log 30] -/
def execCrossingSlip (d : Site) (crossing : BitVec 8) (s : State) : Host.Outcome State Fault Refusal :=
  siteEvent d s fun s k =>
    let die := s.die k
    if crossingCode crossing.toNat = false ∨ die.det = false ∨ die.elastic.contains crossing then s
    else s.setDie k { die with
      slips := satInc die.slips, elastic := die.elastic ++ [crossing], lastSlip := crossing, detLost := true }

end Sys2Proof.Machine
end

