-- ==== Sys2Proof/Machine/Thermal.lean ====
section
/-!
DEFINITION. Cooling and temperature (chapter 13): sensors and hot spots, thermal caps, coolant, the orderly and the fast
stop, and thermal cycles. Temperatures are in 1/16 degrees.
-/

namespace Sys2Proof.Machine

/-! ### Units, hot spots and limits (R348, R350) -/

/-- R348: the hot spots of a kind of die. -/
def spotCount (kind : BitVec 3) : Nat :=
  match kind.toNat with
  | 0 => 20
  | 1 => 4
  | 4 => 4
  | 2 => 2
  | 3 => 2
  | 5 => 2
  | _ => 0

/-- R23: the panel has the unit; kind 0b111 is an HBM stack. -/
def State.unitOk (s : State) (u : UnitRef) : Bool :=
  let n := u.row.toNat
  match u.kind.toNat with
  | 0 => s.siteOk ⟨u.row, u.col⟩
  | 1 => decide (n < 8)
  | 2 => decide (n < 8)
  | 3 => n == 0
  | 4 => decide (n < 2)
  | 5 => decide (n < 4)
  | 7 => decide (n < 8) && decide (8 * u.col.toNat < s.stackCount)
  | _ => false

/-- The hot spots of the layer of a hot spot. -/
def layerOf (kind : BitVec 3) (h : Nat) : List Nat :=
  if kind = 0 then (if h < 16 then logicSpots else arraySpots) else List.range (spotCount kind)

/-- R350: a limit of a hot spot: throttling point, run limit, trip; none where the die has none. -/
structure Limits where
  throttle : Option Int
  run : Int
  trip : Int

/-- R350. -/
def limitsOf (kind : BitVec 3) (h : Nat) : Limits :=
  match kind.toNat with
  | 0 => if h < 16 then ⟨some (16 * 90), 16 * 95, 16 * 105⟩ else ⟨some (16 * 80), 16 * 85, 16 * 95⟩
  | 1 => ⟨some (16 * 90), 16 * 95, 16 * 105⟩
  | 4 => ⟨some (16 * 90), 16 * 95, 16 * 105⟩
  | 5 => ⟨none, 16 * 75, 16 * 90⟩
  | 7 => ⟨some (16 * 85), 16 * 95, 16 * 105⟩
  | _ => ⟨none, 16 * 95, 16 * 105⟩

/-- The temperature of a hot spot of a unit; of an HBM stack, its readout. -/
def State.tempOf (s : State) (u : UnitRef) (h : Nat) : Int :=
  if u.kind = 7 then (s.stack (4 * u.row.toNat + u.col.toNat)).temp else s.spot (unitKey u) h

/-- R389: a unit that is no compute die is its own site. -/
def State.unitReport (s : State) (u : UnitRef) (unit : Nat) (source : BitVec 16) : Report :=
  if u.kind = 0 then s.dieReport (unitKey u) unit source
  else { source, site := unitWord u, unit := BitVec.ofNat 16 unit }

/-! ### Sensors (R349) -/

/-- The middle of three readings. -/
def median (a b c : Int) : Int := max (min a b) (min (max a b) c)

/-- The distance of two readings. -/
def gap (a b : Int) : Int := if a ≤ b then b - a else a - b

/-- R349, R355: whether a reading is plausible; a sensor in the retirement list counts no more. -/
def State.plausible (s : State) (u : UnitRef) (h w : Nat) (mid v : Int) : Bool :=
  !s.flash.sensors.contains (u, BitVec.ofNat 5 h, BitVec.ofNat 2 w) && decide (-320 ≤ v) && decide (v ≤ 2400) &&
    (match tget none s.panel.sensors (96 * unitKey u + 3 * h + w) with
      | some last => decide (gap v last ≤ 48)
      | none => true) && decide (gap v mid ≤ 128)

/-- The plausible readings of a hot spot. -/
def State.plausibleOf (s : State) (u : UnitRef) (h : Nat) (r : Int × Int × Int) : List Int :=
  let mid := median r.1 r.2.1 r.2.2
  ([(0, r.1), (1, r.2.1), (2, r.2.2)] : List (Nat × Int)).filterMap fun e =>
    if s.plausible u h e.1 mid e.2 then some e.2 else none

/-- The highest of readings; none of none. -/
def highest : List Int → Option Int
  | [] => none
  | a :: l => some (l.foldl max a)

/-- The lowest of readings; none of none. -/
def lowest : List Int → Option Int
  | [] => none
  | a :: l => some (l.foldl min a)

/-- R349: the temperature that a hot spot's own sensors give. -/
def ownTemp (l : List Int) : Option Int :=
  match l with
  | [v] => some (v + 32)
  | _ => highest l

/-- R349: the temperatures of all hot spots, the plausible readings of each given. -/
def spotTemps (kind : BitVec 3) (own : List (Option Int)) : List (Option Int) :=
  (List.range own.length).map fun h =>
    match nth none own h with
    | some t => some t
    | none => (highest ((layerOf kind h).filterMap fun i => nth none own i)).map fun t => t + 80

/-- R349: the plausible readings differ by more than 4 K. -/
def spreads (l : List Int) : Bool :=
  match highest l, lowest l with
  | some a, some b => decide (64 < a - b)
  | _, _ => false

/-- R349: a spread above 4 K is recorded once per job. -/
def State.tellSpread (s : State) (u : UnitRef) (h : Nat) : State :=
  let e := (u, BitVec.ofNat 5 h)
  if s.panel.spreadTold.contains e then s
  else (s.onPanel fun p => { p with spreadTold := p.spreadTold ++ [e] }).report (s.unitReport u h 0x0507)

/-- R350, R353: an MSD throttles at 90 degrees and while a flow cap is in force. -/
def State.throttleMsd (s : State) (m : Nat) : State :=
  let k := unitKey ⟨1, BitVec.ofNat 4 m, 15⟩
  s.setMsd m { s.msd m with
    throttled := decide (s.panel.flowCap < 8) || (List.range 4).any fun h => decide (16 * 90 ≤ s.spot k h) }

/-- R362: the registers of a compute die after a sample: `ok` the plausible readings, `bad` the degraded hot spots. -/
def State.dieThermals (s : State) (d : Nat) (ok : List (List Int)) (bad : List Nat) : State :=
  let none_ (l : List Nat) : Bool := l.all fun h => nth [] ok h == []
  let lost := none_ logicSpots || none_ arraySpots
  let die := s.die d
  let spread := packFields ((List.range 20).map fun h => (h, b2n (spreads (nth [] ok h))))
  let s1 := s.setDie d { die with
    tLogic := BitVec.ofInt 12 (s.hottest d logicSpots), tArray := BitVec.ofInt 12 (s.hottest d arraySpots)
    spread := die.spread ||| BitVec.ofNat 20 spread, degraded := BitVec.ofNat 5 bad.length
    sensorless := die.sensorless || lost }
  let s2 := if die.degraded.toNat < bad.length then s1.report (s1.wholeDie d 0x0507 (s1.therm d) |> fun r =>
    { r with unit := BitVec.ofNat 16 (bad.headD 0) }) else s1
  if lost ∧ die.sensorless = false then s2.report (s2.wholeDie d 0x0507 (s2.therm d)) else s2

/-- SENSOR_SAMPLE (R349, R350, R362): the three readings of each hot spot of a die. [DEDUCED, log 31] -/
def execSensorSample (u : UnitRef) (readings : List (Int × Int × Int)) (s : State) : Host.Outcome State Fault Refusal :=
  if s.unitOk u = false ∨ u.kind = 7 then .fault .noSuchUnit
  else if readings.length ≠ spotCount u.kind then .next s
  else
    let key := unitKey u
    let hs := List.range readings.length
    let ok := hs.map fun h => s.plausibleOf u h (nth (0, 0, 0) readings h)
    let temps := spotTemps u.kind (ok.map ownTemp)
    let s1 := hs.foldl (fun (s : State) h =>
      let r := nth (0, 0, 0) readings h
      let at_ (w : Nat) : Nat := 96 * key + 3 * h + w
      s.onPanel fun p => { p with
        sensors := tset none (tset none (tset none p.sensors (at_ 0) (some r.1)) (at_ 1) (some r.2.1)) (at_ 2) (some r.2.2)
        spots := match nth none temps h with
          | some t => tset 0 p.spots (32 * key + h) t
          | none => p.spots }) s
    let s2 := (hs.filter fun h => spreads (nth [] ok h)).foldl (fun (s : State) h => s.tellSpread u h) s1
    let failed (h : Nat) : Bool := s.flash.sensors.any fun e => e.1 = u && decide (e.2.1.toNat = h)
    let bad := hs.filter fun h => decide ((nth [] ok h).length < 3) || failed h
    .next (if u.kind = 0 then s2.dieThermals key ok bad else if u.kind = 1 then s2.throttleMsd u.row.toNat else s2)

/-! ### The thermal cap (R351, R353, R356) -/

/-- The logic and array hot spots of a region. -/
def regionSpots (r : Nat) : Nat × Nat :=
  (r / 8 / 2 * 4 + r % 8 / 2, 16 + r / 8 / 4 * 2 + r % 8 / 4)

/-- R351: the cap from the two temperatures. -/
def stepCap (cap : Nat) (tl ta : Int) : Nat :=
  if 16 * 95 ≤ tl ∨ 16 * 85 ≤ ta then 1
  else if 16 * 90 ≤ tl ∨ 16 * 80 ≤ ta then max (cap - 1) 1
  else if tl < 16 * 88 ∧ ta < 16 * 78 then min (cap + 1) 8
  else cap

/-- R349, R351: a region's new cap, and what set it (`CD_THERM.CAPBY`): `old` stands where the temperatures hold the cap. -/
def State.capOf (s : State) (d r : Nat) (cap old : Nat) : Nat × Nat :=
  let (hl, ha) := regionSpots r
  let tl := s.spot d hl
  let ta := s.spot d ha
  let own := stepCap cap tl ta
  let held := if (s.die d).sensorless then min 4 own else own
  let c := min held (min s.panel.flowCap ((s.die d).forecast.getD 8))
  (c, if c = 8 then 0
      else if s.panel.flowCap ≤ c ∧ s.panel.flowCap < held then 3
      else if 16 * 90 ≤ tl then 1
      else if 16 * 80 ≤ ta then 2
      else if old = 0 then 1 else old)

/-- THERMAL_CAP_TICK (R351, R353, R362): the cap of each region that is not off. [DESIGN CHOICE, log 29] -/
def execThermalCapTick (d : Site) (s : State) : Host.Outcome State Fault Refusal :=
  siteEvent d s fun s k =>
    let on (r : Nat) : Bool := (s.region k r).state != .off && (s.region k r).state != .dark
    let old := (s.die k).capBy.toNat
    let news := (List.range 64).map fun r => if on r then s.capOf k r (s.region k r).thermalCap old else (8, 0)
    let s1 := (List.range 64).foldl (fun (s : State) r =>
      s.setRegion k r { s.region k r with thermalCap := (nth (8, 0) news r).1 }) s
    let worst := news.foldl (fun m e => if e.1 < m.1 then e else m) (8, 0)
    s1.onDie k fun die => { die with capBy := BitVec.ofNat 2 worst.2 }

/-! ### Stops (R352-R356) -/

/-- R359: the counts are written to flash. -/
def State.flushLife (s : State) : State := { s with flash := { s.flash with life := s.life } }

/-- A report of the headworks with `PNL_COOL`. -/
def State.coolReport (s : State) (source : BitVec 16) : Report :=
  { source, site := unitWord ⟨3, 0, 15⟩, detail := bytesOf 8 s.panel.coolReg.toNat }

/-- R354: the orderly stop; nothing after a more severe action (R356). -/
def State.orderlyStop (s : State) : State :=
  if 3 ≤ s.panel.coolState.toNat then s
  else
    let s1 := (s.onPanel fun p => { p with coolState := 3 }).flushLife
    s1.acceptOwn (s1.coolReport 0x0509)

/-- R355: a fast stop or a hardware trip. -/
def State.fastStop (s : State) (unit : Nat) (site : BitVec 16) : State :=
  if s.panel.coolState = 4 then s
  else
    let s1 := (s.onPanel fun p => { p with coolState := 4 }).shutDown
    s1.acceptOwn { s1.coolReport 0x050A with site, unit := BitVec.ofNat 16 unit }

/-- RUN_LIMIT_EXPIRE (R350): 1 s at or above the run limit. -/
def execRunLimitExpire (u : UnitRef) (spot : BitVec 5) (s : State) : Host.Outcome State Fault Refusal :=
  if s.unitOk u = false then .fault .noSuchUnit
  else if s.tempOf u spot.toNat < (limitsOf u.kind spot.toNat).run then .next s
  else .next s.orderlyStop

/-- R353: the flow cap of a flow in 0.01 L/min. -/
def flowCapOf (flow : Nat) : Nat := clamp 1 8 (32 * flow / 3600 - 16)

/-- R352-R354: the readings of a coolant sample, and what follows from them alone. -/
def Panel.cooled (p : Panel) (flow : BitVec 16) (tin tout : Int) : Panel :=
  let good := decide (3240 ≤ flow.toNat) && decide (16 * 28 ≤ tin) && decide (tin ≤ 16 * 32)
  { p with
    flow, tin := BitVec.ofInt 12 tin, tout := BitVec.ofInt 12 tout, flowCap := flowCapOf flow.toNat
    coolSamples := ((flow, tin, tout) :: p.coolSamples).take 16
    coolGood := if good then min 10000 (p.coolGood + 1) else 0 }

/-- R352: warnings and the flow cap, with their records. [DEDUCED, log 31] -/
def State.coolWarnings (s : State) (flow : Nat) (tin : Int) : State :=
  let st := s.panel.coolState.toNat
  if 3 ≤ st then s
  else if flow < 2700 then
    let s1 := s.onPanel fun p => { p with coolState := 2 }
    if st = 2 then s1 else s1.acceptOwn (s1.coolReport 0x0508)
  else if flow < 3240 ∨ 16 * 32 < tin then
    let n := s.panel.coolWarn
    let s1 := s.onPanel fun p => { p with coolState := 1, coolWarn := (n + 1) % 60000 }
    if n = 0 then s1.acceptOwn (s1.coolReport 0x0508) else s1
  else s.onPanel fun p => { p with coolState := 0, coolWarn := 0 }

/-- COOLANT_SAMPLE (R352-R354, R356, R361): flow in 0.01 L/min, with the flow and the outlet temperature of less than 100 ms
before. [DESIGN CHOICE, log 62] -/
def execCoolantSample (flow : BitVec 16) (tin tout : Int) (flowBefore : BitVec 16) (toutBefore : Int) (s : State) :
    Host.Outcome State Fault Refusal :=
  let s1 := (List.range 8).foldl State.throttleMsd (s.onPanel fun p => p.cooled flow tin tout)
  if (flow.toNat < 720 ∧ 1800 ≤ flowBefore.toNat) ∨ 48 < tout - toutBefore then
    .next (s1.fastStop 0 (unitWord ⟨3, 0, 15⟩))
  else if flow.toNat < 1800 ∨ 16 * 40 < tin ∨ 16 * 55 < tout then .next s1.orderlyStop
  else .next (s1.coolWarnings flow.toNat tin)

/-- R373, R374, R429: the panel enters Standby: everything but the headworks' always-on part is off. -/
def State.enterStandby (s : State) : State :=
  let s1 := (((s.flushLife).setClocks false).regionsOff fun _ => true).onPanel fun p => { p with pstate := .standby }
  { s1 with
    mem := [], tags := [], hbmErr := [], given := [], cores := []
    hbm := tmap {} (fun _ k => { k with wbuf := [] }) s1.hbm
    ring := { s1.ring with state := 0, own := [], joining := [] }
    sec := { s1.sec with identity := false } }

/-- ORDERLY_STOP_STANDBY (R354): the flow stays below 20% for 1 s after an orderly stop. -/
def execOrderlyStopStandby (s : State) : Host.Outcome State Fault Refusal :=
  if s.panel.coolState ≠ 3 ∨ 720 ≤ s.panel.flow.toNat ∨ s.panel.pstate = .standby then .next s else .next s.enterStandby

/-- R355: a sensor that tripped alone: both its partners read more than 20 K lower. -/
def State.tripAlone (s : State) (u : UnitRef) (spot : BitVec 5) (which : BitVec 2) (temp a b : Int) : State :=
  if 320 < temp - a ∧ 320 < temp - b then
    { s with flash := { s.flash with tripped := s.flash.tripped ++ [(u, spot, which)] } }
  else s

/-- FAST_STOP (R352, R355): by the flow comparator, or by one sensor over its trip limit whose comparator is not disabled. -/
def execFastStop (cause : TripCause) (s : State) : Host.Outcome State Fault Refusal :=
  match cause with
  | .flowComparator => .next (s.fastStop 0 (unitWord ⟨3, 0, 15⟩))
  | .sensor u spot which temp a b =>
    if s.unitOk u = false then .fault .noSuchUnit
    else if temp ≤ (limitsOf u.kind spot.toNat).trip ∨ s.flash.sensors.contains (u, spot, which) then .next s
    else .next ((s.fastStop spot.toNat (unitWord u)).tripAlone u spot which temp a b)

/-! ### Thermal cycles (R359) -/

/-- A cycle of a range is counted in its bin. -/
def Life.count (l : Life) (range : Int) : Life :=
  if range < 320 then l
  else if range < 640 then { l with bin0 := l.bin0 + 1 }
  else if range < 960 then { l with bin1 := l.bin1 + 1 }
  else { l with bin2 := l.bin2 + 1 }

/-- R359: one sample of the cycle count. -/
def Life.sample (l : Life) (t : Int) : Life :=
  if l.started = false then { l with started := true, rising := true, lo := t, hi := t }
  else if l.rising then
    let hi := max l.hi t
    if 320 ≤ hi - t then { l.count (hi - l.lo) with hi, rising := false, lo := t } else { l with hi }
  else
    let lo := min l.lo t
    if 320 ≤ t - lo then { l with lo, rising := true, hi := t } else { l with lo }

/-- R360: a hot spot of the unit is at or above its throttle point. -/
def State.aboveThrottle (s : State) (u : UnitRef) : Bool :=
  (List.range (max 1 (spotCount u.kind))).any fun h =>
    match (limitsOf u.kind h).throttle with
    | some t => decide (t ≤ s.tempOf u h)
    | none => false

/-- THERMAL_CYCLE_SAMPLE (R359, R360): the hottest plausible reading of a die or stack, once per second. -/
def execThermalCycleSample (u : UnitRef) (temp : Int) (s : State) : Host.Outcome State Fault Refusal :=
  if s.unitOk u = false then .fault .noSuchUnit
  else
    let l := (tget {} s.life (unitKey u)).sample temp
    .next { s with life := tset {} s.life (unitKey u) { l with
      highest := max l.highest temp, hotSecs := if s.aboveThrottle u then l.hotSecs + 1 else l.hotSecs } }

/-- THERMAL_COUNT_FLUSH (R359). -/
def execThermalCountFlush (s : State) : Host.Outcome State Fault Refusal := .next s.flushLife

/-! ### Commands (R360) -/

/-- The dies of the panel, kind by kind in strap order; then the HBM stacks. [DEDUCED, log 32] -/
def State.allUnits (s : State) (hbmToo : Bool) : List UnitRef :=
  let inst (k : BitVec 3) (n : Nat) : List UnitRef := (List.range n).map fun i => ⟨k, BitVec.ofNat 4 i, 15⟩
  ((List.range 12).flatMap fun r => ((List.range (s.lcols + 1)).map fun i =>
      (⟨0, BitVec.ofNat 4 r, BitVec.ofNat 4 (s.panel.windowStart.toNat + i)⟩ : UnitRef))) ++
    inst 1 8 ++ inst 2 8 ++ inst 3 1 ++ inst 4 2 ++ inst 5 4 ++
    (if hbmToo then (List.range 8).flatMap fun m => (List.range (s.stackCount / 8)).map fun p =>
      (⟨7, BitVec.ofNat 4 m, BitVec.ofNat 4 p⟩ : UnitRef) else [])

/-- Two bytes of a signed reading. -/
def tempBytes (t : Int) : List Byte := bytesOf 2 (BitVec.ofInt 16 t).toNat

/-- THERMAL_READ (R360). -/
def execThermalRead (h : Cmd) (addr : Reg64) (len : Word) (s : State) : Host.Outcome State Fault Refusal :=
  command h (gateOf 0x0803) s fun s =>
    let regs := (s.panel.coolReg :: s.presentSites.map s.therm).flatMap fun w => bytesOf 8 w.toNat
    let readings := (s.allUnits false).flatMap fun u =>
      (List.range (3 * spotCount u.kind)).flatMap fun i =>
        tempBytes ((tget none s.panel.sensors (96 * unitKey u + i)).getD 0)
    let hottest := (highest (s.presentSites.map fun d => s.hottest d logicSpots)).getD 0
    s.deliver h addr.toNat len.toNat ((regs ++ readings).take len.toNat) (bytesOf 4 (BitVec.ofInt 32 hottest).toNat)

/-- R360: the life record of a unit. -/
def State.lifeRecord (s : State) (u : UnitRef) : List Byte :=
  let l := tget {} s.life (unitKey u)
  let used := (l.bin0.toNat + 4 * l.bin1.toNat + 12 * l.bin2.toNat) / 10
  bytesOf 2 (unitWord u).toNat ++ bytesOf 4 l.bin0.toNat ++ bytesOf 4 l.bin1.toNat ++ bytesOf 4 l.bin2.toNat ++
    bytesOf 4 (l.hotSecs / 3600) ++ tempBytes l.highest ++ bytesOf 2 (min 65535 used) ++ bytesOf 2 0

/-- LIFE_READ (R360). -/
def execLifeRead (h : Cmd) (addr : Reg64) (len : Word) (s : State) : Host.Outcome State Fault Refusal :=
  command h (gateOf 0x0804) s fun s => s.deliver h addr.toNat len.toNat (((s.allUnits true).flatMap s.lifeRecord).take len.toNat) []

end Sys2Proof.Machine
end

