-- ==== Sys2Proof/Machine/Retire.lean ====
section
/-!
DEFINITION. Retirement (R398-R401), spare engagement (R402), and the training of the die edges that a site map uses (R338,
R371, R372).
-/

namespace Sys2Proof.Machine

/-! ### Core reset (R368, R375) -/

/-- R7, R177, R375: what a core reset keeps of a core; packets at its ejection logic stay there. -/
def Core.coreReset (k : Core) : Core :=
  { cycle := k.cycle, partReg := k.partReg, sealed := k.sealed, detreq := k.detreq, ceCount := k.ceCount
    arrived := k.arrived, testing := k.testing
    sync := tmap {} (fun _ h => ({ bound := h.bound, group := h.group } : SyncChan)) k.sync }

/-- R143, R368: the listed cores are reset; their banks hold nothing. -/
def State.resetCores (s : State) (cs : List CoreRef) : State :=
  cs.foldl (fun (s : State) c => s.onCore c Core.coreReset) (s.dropScratchpads fun c => cs.contains c)

/-! ### Die edges -/

/-- R148, R181: the path to a neighbour: latency, diagonal, weir. A path through two weirs has the latency of both. [DESIGN CHOICE, log 25] -/
def pathKind (d e edge : Nat) : Nat × Bool × Bool :=
  let apart_ := max (d % 16) (e % 16) - min (d % 16) (e % 16)
  if edge % 2 = 1 then (if 1 < apart_ then (4 + 12 * (apart_ - 1), false, true) else (4, false, false))
  else if apart_ = 0 then (4, false, false) else (5, true, false)

/-- R12, R181: an edge whose path is not in use is parked. -/
def Edge.parked (e : Edge) : Edge :=
  { e with state := if e.state = 0 then 0 else 2, diag := false, weir := false, latency := 0 }

/-- R338, R371, R452: an edge that the site maps use is trained and calibrated, and fails where a weir on its way has
failed; any other is parked. `guard` is the extra latency of an engagement while the panel runs. -/
def State.trainEdge (s : State) (d edge guard : Nat) : State :=
  let e := s.edge d edge
  match s.edgePeer d edge with
  | some p =>
    let (lat, diag, weir) := pathKind d p edge
    let bad := weir && (weirsBetween d p).any s.flash.weirs.contains
    s.setEdge d edge
      { e with state := if bad then 3 else 1, diag, weir, latency := BitVec.ofNat 5 (lat + guard), retrainDue := false }
  | none => s.setEdge d edge e.parked

/-- The four edges of a site. -/
def State.trainSite (s : State) (d guard : Nat) : State :=
  (List.range 4).foldl (fun (s : State) e => s.trainEdge d e guard) s

/-- The extra latency of a calibration under R338 step 2: up to two cycles, a free value. -/
def State.guard (s : State) : Nat := (Config.calibrationGuard s.free).toNat % 3

/-- R402: the links, as site and edge, whose path a new map of a row changes. -/
def State.changedLinks (s new : State) (row : Nat) : List (Nat × Nat) :=
  let near := (List.range 3).flatMap fun i => s.window.map fun k => 16 * (row + i - 1) + k
  near.flatMap fun d => ((List.range 4).filter fun e => s.edgePeer d e ≠ new.edgePeer d e).map fun e => (d, e)

/-- R338 step 2, R402 step 3: after a row's map has changed, the edges whose neighbour is another one are trained. -/
def State.retrainRow (s old : State) (row : Nat) : State :=
  ((s.changedLinks old row).foldl (fun (s : State) e => s.trainEdge e.1 e.2 s.guard) s).tick

/-- R402 step 3: no link carries a flit or holds a channel, and no router of a site that leaves the map holds one. -/
def State.linksClear (s new : State) (row : Nat) : Bool :=
  (s.changedLinks new row).all (fun e => (s.edgePackets e.1 e.2).isEmpty && (s.edgeLocks e.1 e.2).isEmpty) &&
    (s.window.map (16 * row + ·)).all fun d =>
      (new.placeOf d).isSome || s.routers.all fun e =>
        s.siteAt (dieRow (coreOfKey e.1)) (dieCol (coreOfKey e.1)) != some d || e.2.inb.isEmpty

/-- R372: a flume crosses the edge. -/
def State.flumeCrosses (s : State) (d edge : Nat) : Bool :=
  s.edgeFlumes d edge != [] ||
    (match s.edgePeer d edge with
      | some p => s.edgeFlumes p (farInput edge) != []
      | none => false)

/-- EDGE_RETRAIN_DUE (R372). -/
def execEdgeRetrainDue (d : Site) (edge : BitVec 2) (s : State) : Host.Outcome State Fault Refusal :=
  siteEvent d s fun s k =>
    let e := s.edge k edge.toNat
    if e.state = 1 then s.setEdge k edge.toNat { e with retrainDue := true } else s

/-- R371: one end of an edge after a retrain: its epoch, and the spare wires that replace the bad ones. -/
def Edge.retrained (e : Edge) (epoch : BitVec 8) (badWires : Nat) : Edge :=
  { e with epoch, spares := BitVec.ofNat 9 (min 256 (e.spares.toNat + badWires)), retrainDue := false }

/-- R371: the epoch after a retrain of two ends. -/
def State.nextEpoch (s : State) (d edge : Nat) : BitVec 8 :=
  let a := (s.edge d edge).epoch
  match s.edgePeer d edge with
  | some p =>
    let b := (s.edge p (farInput edge)).epoch
    (if a < b then b else a) + 1
  | none => a + 1

/-- R371: both ends of an edge retrain, or the edge fails under R169. `guard`: under R338 step 2. -/
def State.retrainEdge (s : State) (d edge badWires guard : Nat) (carries : Bool) : State :=
  if carries = false then s.edgeFail d edge
  else
    let epoch := s.nextEpoch d edge
    let ends := (d, edge) :: ((s.edgePeer d edge).map fun p => (p, farInput edge)).toList
    ends.foldl (fun (s : State) e =>
      (s.setEdge e.1 e.2 ((s.edge e.1 e.2).retrained epoch badWires)).trainEdge e.1 e.2 guard) s

/-- EDGE_RETRAIN (R193, R338, R342, R371, R372): a retrain that is due takes place once no flume crosses the edge; the
determinism-lost flag of both dies is set. -/
def execEdgeRetrain (d : Site) (edge : BitVec 2) (badWires : BitVec 9) (carries : Bool) (s : State) :
    Host.Outcome State Fault Refusal :=
  siteEvent d s fun s k =>
    let e := edge.toNat
    if (s.edge k e).state ≠ 1 ∨ (s.edge k e).retrainDue = false ∨ s.flumeCrosses k e then s
    else
      let lost := k :: (s.edgePeer k e).toList
      let s1 := lost.foldl (fun (s : State) d => s.onDie d fun die => { die with detLost := true }) s
      (s1.retrainEdge k e badWires.toNat s.guard carries).tick

/-! ### Retirement -/

/-- The UNIT of a retired unit in its record: its index; 0xFFFF for a die. -/
def retIndex : RetUnit → BitVec 16
  | .core _ i => i.setWidth 16
  | .region _ r => r.setWidth 16
  | .die _ => 0xFFFF

/-- R398, R407, R410: the retirement is listed, recorded and reported. -/
def State.noteRetire (s : State) (u : RetUnit) (source : BitVec 16) (seq : Word) : State :=
  let (s1, own) := s.recordSeq { kind := 0x03, site := siteWord (siteKey (retHome u)), unit := retIndex u, related := seq }
  let entry := (u, source, if seq = 0 then own else seq)
  let s2 := { s1 with flash := { s1.flash with
    retLog := s1.flash.retLog ++ [entry], pendingRet := s1.flash.pendingRet.filter fun e => e.1 ≠ u } }
  let left := s2.flash.pendingRet.any fun e => retHome e.1 = retHome u
  (s2.onDie (siteKey (retHome u)) fun die => { die with retPending := left }).event 2 own

/-- R401: what a retirement does to its unit. -/
def State.takeOut (s : State) (u : RetUnit) : State :=
  match u with
  | .core d i =>
    let k := siteKey d
    let s1 := { s with flash := { s.flash with retCores := s.flash.retCores ++ [(d, i)] } }.onDie k
      fun die => { die with retCores := die.retCores + 1 }
    s1.resetCores (s1.coreAt k i.toNat).toList
  | .region d r =>
    let k := siteKey d
    let s1 := { s with flash := { s.flash with retRegions := s.flash.retRegions ++ [(d, r)] } }.onDie k
      fun die => { die with retRegions := die.retRegions ||| ((1 : BitVec 64) <<< r.toNat) }
    (s1.setRegion k r.toNat (s1.region k r.toNat).off).resetCores (s1.regionCores k r.toNat)
  | .die d =>
    { s with flash := { s.flash with retDies := s.flash.retDies ++ [d] } }.onDie (siteKey d)
        (fun die => { die with retired := true }) |>.regionsOff fun e => e == siteKey d

/-- R399: more than 8 cores by the core rules, or more than 2 regions, retire the die. -/
def State.dieLimits (s : State) (d : Site) (source : BitVec 16) (seq : Word) : State :=
  let die := s.die (siteKey d)
  let regions := ((List.range 64).filter fun i => die.retRegions.getLsbD i).length
  if die.retired = false ∧ (8 < die.retCores.toNat ∨ 2 < regions) then s.decideRetire (.die d) source seq else s

/-- R402: the spare of the row may be engaged: under policy 0, or once a RETIRE has named a die of the row. -/
def State.mayEngage (s : State) (row : Nat) : Bool :=
  s.panel.sparePolicy == 0 || s.flash.named.any fun d => decide (d.row.toNat = row)

/-- R21, R401, R402: a retired die's row: the engagement is ordered, or the logical die is absent. -/
def State.afterDie (s : State) (row : Nat) : State :=
  let now := (s.row row).leftOut.toNat
  if s.mayEngage row ∧ s.chooseLeft row ≠ now then
    s.onPanel fun p => { p with
      engage := if p.engage.contains (BitVec.ofNat 4 row) then p.engage else p.engage ++ [BitVec.ofNat 4 row] }
  else if (s.mapWith row now).lcol = (s.row row).lcol then s
  else s.rewriteRow row (s.mapWith row now)

/-- R399, R401: a retirement takes place. -/
def State.retireUnit (s : State) (u : RetUnit) (source : BitVec 16) (seq : Word) : State :=
  let d := retHome u
  let s1 := ((s.takeOut u).noteRetire u source seq).dieLimits d source seq
  match u with
  | .die _ => s1.afterDie d.row.toNat
  | _ => s1

/-- R401: no partition uses the unit. [DEDUCED, log 27] -/
def State.unitQuiet (s : State) (u : RetUnit) : Bool :=
  match s.partOfSite (siteKey (retHome u)) with
  | some n => decide ((s.part n).state = .idle)
  | none => true

/-- The retirement list holds the unit. -/
def State.unitRetired (s : State) (u : RetUnit) : Bool := s.flash.retLog.any fun e => e.1 = u

/-- UNIT_RETIRE (R401): a retirement that was decided takes place once its partition is Idle. -/
def execUnitRetire (u : RetUnit) (s : State) : Host.Outcome State Fault Refusal :=
  siteEvent (retHome u) s fun s _ =>
    match s.flash.pendingRet.find? fun e => e.1 = u with
    | some (_, source, seq) => if s.unitQuiet u then s.retireUnit u source seq else s
    | none => s

/-- POST_FAULT_TEST (R390, R399): the test of a core ends; a failure decides its retirement. -/
def execPostFaultTest (c : CoreRef) (pass : Bool) (s : State) : Host.Outcome State Fault Refusal :=
  coreEvent c s fun s k =>
    match k.testing, s.dieOf c with
    | true, some d =>
      let quiet := match s.partOfDie (dieRow c) (dieCol c) with
        | some n => s.partQuiet n
        | none => true
      if quiet = false then s
      else
        let u := RetUnit.core (siteOfKey d) (BitVec.ofNat 10 (coreIndex c))
        let seq := ((s.flash.counted.find? fun e => e.1 = u).map (·.2)).getD 0
        let s1 := s.setCore c { k with testing := false }
        let s2 := if pass then s1 else s1.decideRetire u 0x0101 seq
        s2.closeRecords.resumeLoads
    | _, _ => s

/-- SPARE_ENGAGE (R19, R402, R452): an engagement that was ordered, once every partition that it moves is quiet: its links
are held, and, when they are clear, its paths are trained and the map is rewritten. `failedWeirs` are those that fail their
training; the map is then chosen again without them, and so are the partitions that it waits for. -/
def execSpareEngage (row : BitVec 4) (failedWeirs : List Site) (s : State) : Host.Outcome State Fault Refusal :=
  let r := row.toNat
  let plan := s.planRow r
  let t := s.setRow r plan
  if s.panel.engage.contains row = false ∨ ((s.movedParts r).all s.partQuiet) = false then .next s
  else
    let ordered (s : State) : State :=
      s.onPanel fun p => { p with engage := p.engage.filter fun x => x ≠ row, holds := [] }
    let bad := failedWeirs.filter fun w => decide (w.row = row) && s.siteOk w && !s.weirBad r w.col.toNat
    if plan.lcol = (s.row r).lcol ∧ plan.leftOut = (s.row r).leftOut then .next (ordered s).resumeLoads
    else if s.linksClear t r = false then
      .next (s.onPanel fun p => { p with holds := (s.changedLinks t r).map fun e => 4 * e.1 + e.2 })
    else if bad ≠ [] then
      .next ((bad.foldl (fun (s : State) w =>
        let s1 := s.weirFailed w
        s1.report (s1.dieReport (siteKey w) 4 0x020B)) s).onPanel fun p => { p with holds := [] })
    else .next (((ordered s).rewriteRow r plan).retrainRow s r).resumeLoads

/-! ### RETIRE (R382, R410) -/

/-- The unit that RETIRE's parameters name. -/
def retUnitOf (d : Site) (unit : BitVec 8) (index : BitVec 16) : RetUnit :=
  if unit = 0 then .core d (index.setWidth 10) else if unit = 1 then .region d (index.setWidth 6) else .die d

/-- RETIRE (R382, R402, R410): the unit must belong to no partition or to one that is Free or Idle. -/
def execRetire (h : Cmd) (d : Site) (unit : BitVec 8) (index : BitVec 16) (s : State) :
    Host.Outcome State Fault Refusal :=
  command h (gateOf 0x0A06) s (asks := fun s =>
    let bad := firstBad [(decide (12 ≤ d.row.toNat), 16), (!s.siteOk d, 17), (decide (2 < unit.toNat), 18),
      ((unit == 0 && decide (1024 ≤ index.toNat)) || (unit == 1 && decide (64 ≤ index.toNat)), 19)]
    { refused := if bad = none ∧ s.unitQuiet (retUnitOf d unit index) = false then some (stState, []) else none
      field := bad }) fun s =>
    let u := retUnitOf d unit index
    let s1 := if unit = 2 then { s with flash := { s.flash with named := s.flash.named ++ [d] } } else s
    (if s1.unitRetired u then (if unit = 2 then s1.afterDie d.row.toNat else s1) else s1.retireUnit u 0x0000 0).answer h
      stOk

end Sys2Proof.Machine
end

