-- ==== Sys2Proof/Machine/Resets.lean ====
section
/-!
DEFINITION. What each reset keeps (R7, R143, R368, R375, and the Kept across column of every register), the levee reset
(R178, R288), and the die and core resets by command (R369, R371).
-/

namespace Sys2Proof.Machine

/-! ### Less than a warm reset -/

/-- R375: what a die or levee reset keeps of a core. -/
def Core.dieReset (k : Core) : Core := { k.coreReset with cycle := 0 }

/-- R7, R342: what a die or levee reset keeps of a die's registers; the die's transit goes on. -/
def Die.partReset (d : Die) : Die :=
  { d with
    net := .idle, scrubPasses := 0, power := 0, budget := 0, detLost := false, elastic := [], lastSlip := 0xFF, tLogic := 0
    tArray := 0, capBy := 0, forecast := none, detHold := false }

/-- R7: what a die or levee reset keeps of a region. -/
def Region.partReset (r : Region) : Region :=
  { r.off with nbWait := false, debt := 0, zone := 1, winCycle := 0, winRepaid := 0 }

/-- R240: what a die or levee reset keeps of a culvert group: RELOCK reads 0, though a channel that relocks goes on. -/
def Culv.partReset (g : Culv) : Culv := { g with relockHidden := g.relock.isSome }

/-- R261, R375: the ring is left; its registers return to their reset values. [DEDUCED, log 42] -/
def State.ringReset (s : State) : State :=
  let s1 := s.closeBypass
  { s1 with ring := { s1.ring with panels := 0, circuit := 0 } }

/-- R7, R143, R375: the dies that a test picks, with their regions and cores. -/
def State.resetDies (s : State) (sites : Nat → Bool) : State :=
  let mine (c : CoreRef) : Bool := ((s.dieOf c).map sites).getD false
  let s1 := (s.dropScratchpads mine).regionsOff sites
  { s1 with
    dies := tmap {} (fun k d => if sites k then d.partReset else d) s1.dies
    culv := tmap {} (fun k g => if sites (k / 8) then g.partReset else g) s1.culv
    panel := { s1.panel with
      transit := tmap {} (fun k r => if sites k then { r with debt := 0, zone := 1 } else r) s1.panel.transit }
    regions := tmap {} (fun k r => if sites (k / 64) then r.partReset else r) s1.regions
    cores := tmap {} (fun key k => if mine (coreOfKey key) then k.dieReset else k) s1.cores }

/-- R178, R206, R422, R429: the levee reset of a partition whose job has ended. [DEDUCED, log 46] -/
def State.leveeReset (s : State) (n : Nat) : State :=
  let sites := s.partSites n
  let s1 := s.resetDies fun k => sites.contains k
  let s2 := { s1 with groups := tmap {} (fun _ g => if g.part.toNat = n then {} else g) s1.groups }
  (s2.onPart n fun p => { p with offer := none, secrets := none }).ringReset

/-- R178 step 1: the dies of a partition enter reset: flits of its cores that have not begun to enter the network stay out. -/
def State.beginLevee (s : State) (n : Nat) (h : Cmd) : State :=
  let sites := s.partSites n
  let mine (key : Nat) : Bool := ((s.dieOf (coreOfKey key)).map sites.contains).getD false
  let begun (l : List Flit) : List Flit := l.dropWhile fun f => f.idx ≠ 0
  let keep (l : List Flit) : List Flit := l.take (l.length - (begun l).length)
  { (sites.foldl (fun (s : State) d => s.onDie d fun die => { die with net := .reset }) s).onPart n fun p => { p with state := .ending } with
    routers := tmap {} (fun k r =>
      if mine k then { r with wait := tmap [] (fun key l => if 16 ≤ key ∧ key < 20 then keep l else l) r.wait } else r) s.routers
    resets := s.resets ++ [.levee n h] }

/-- R178 steps 3-5: the levee reset ends: the partition is Idle, and the command is answered. -/
def State.endLevee (s : State) (n : Nat) (h : Cmd) : State :=
  (((s.leveeReset n).onPart n fun p => { p with state := .idle }).closeRecords).answer h stOk

/-- PART_RESET (R178, R288, R302): a job ends with 0x0319, then the levee reset, which takes its time. [DESIGN CHOICE, log 73] -/
def execPartReset (h : Cmd) (s : State) : Host.Outcome State Fault Refusal :=
  command h (gateOf 0x0203) s fun s =>
    let n := h.part.toNat
    let s1 := if (s.part n).state.hasJob then s.hostAbort n 0 else s
    (s1.dropLoads n stStopped).beginLevee n h

/-- R369: the die belongs to no partition or to an Idle one, and no port attached to it while a partition is bound. -/
def State.mayResetDie (s : State) (k : Nat) : Bool :=
  let free := match s.partOfSite k with
    | some n => decide ((s.part n).state = .idle)
    | none => true
  let attached := (List.range 64).any fun n =>
    let p := s.port n
    p.fused && decide (p.state ≠ 4) && s.dieAt p.attRow.toNat p.attCol.toNat == some k
  free && !(attached && s.parts.any fun e => e.2.bound.isSome)

/-- R365, R371: the edges of a die after a die reset: `match_` tells of each whether the digests agree. -/
def State.exchange (s : State) (k : Nat) (match_ : BitVec 4) : State :=
  (List.range 4).foldl (fun (s : State) e =>
    if (s.edge k e).state ≠ 1 then s
    else if match_.getLsbD e then s.trainEdge k e s.guard
    else
      let spares := Config.retrainSpares s.free
      let s1 := s.retrainEdge k e 0 s.guard true
      let ends := (k, e) :: ((s.edgePeer k e).map fun p => (p, farInput e)).toList
      (ends.foldl (fun (s : State) x => s.setEdge x.1 x.2 { s.edge x.1 x.2 with spares }) s1).tick) s

/-- R143, R368, R369, R375: the die reset of a site. [DEDUCED, log 46] -/
def State.dieReset (s : State) (k : Nat) (match_ : BitVec 4) : State :=
  let s1 := s.resetDies fun e => e == k
  let s2 := s1.onDie k fun d => { d with arrivedMembers := [], inReset := false }
  let s3 := (List.range 1024).foldl (fun (s : State) i =>
    match s.coreAt k i with
    | some c => if (s.core c).arrived = [] then s else s.onCore c fun x => { x with arrived := [] }
    | none => s) s2
  (s3.exchange k match_).tick.ringReset

/-- R286, R369: what DIE_RESET asks of its site, and of a core index. -/
def State.resetAsks (s : State) (d : Site) (index : Option Nat) : Asks :=
  { refused := if s.mayResetDie (siteKey d) then none else some (stState, [])
    field := firstBad [(decide (12 ≤ d.row.toNat), 16), (!s.siteOk d, 17), (index.any fun i => decide (1024 ≤ i), 19)] }

/-- DIE_RESET with scope die (R365, R369-R371): it takes its time, and the command is answered at its end. [DESIGN CHOICE, log 73] -/
def execDieResetDie (h : Cmd) (d : Site) (digestsMatch : BitVec 4) (s : State) : Host.Outcome State Fault Refusal :=
  command h (gateOf 0x0A05) s (asks := fun s => s.resetAsks d none) fun s =>
    { s.onDie (siteKey d) fun die => { die with inReset := true } with
      resets := s.resets ++ [.die (siteKey d) digestsMatch h] }

/-- R178, R370: a reset that has been going on ends. -/
def finishReset (s : State) : ResetJob → State
  | .levee n h => s.endLevee n h
  | .die k m h => (s.dieReset k m).answer h stOk

/-- What the panel does while no command waits: the reset that has gone on longest ends; with none it idles. [DESIGN CHOICE, log 73] -/
def State.idle (s : State) : State :=
  match s.resets with
  | [] => s
  | r :: rest => finishReset { s with resets := rest } r

/-- DIE_RESET with scope core (R368, R369, R375). -/
def execDieResetCore (h : Cmd) (d : Site) (index : BitVec 16) (s : State) : Host.Outcome State Fault Refusal :=
  command h (gateOf 0x0A05) s (asks := fun s => s.resetAsks d (some index.toNat)) fun s =>
    (s.resetCores (s.coreAt (siteKey d) index.toNat).toList).answer h stOk

/-! ### Warm and more severe resets: the parts -/

/-- R7: what a warm reset keeps of a die. -/
def Die.warm (d : Die) : Die :=
  { strap := d.strap, strapOk := d.strapOk, forceLog2 := d.forceLog2, slips := d.slips, logicFailed := d.logicFailed
    degraded := d.degraded, sensorless := d.sensorless, retRegions := d.retRegions, retCores := d.retCores
    retired := d.retired, retPending := d.retPending, alive := d.alive, transitFailed := d.transitFailed
    noCombine := d.noCombine, locked := d.locked, culvertsLost := d.culvertsLost }

/-- R7: what a cold reset keeps besides. -/
def Die.cold (d : Die) : Die :=
  { d.warm with
    strap := 0, strapOk := 0, slips := 0, culvertsLost := 0, locked := false }

/-- R329: what a warm or cold reset keeps of a region. -/
def Region.warm (r : Region) : Region :=
  { phases := r.phases, state := if r.state = .dark then .dark else .off }

/-- R181: what a cold reset loses of an edge. -/
def Edge.cold (e : Edge) : Edge := { e with retries := 0, inject := none }

/-- R240: what a warm or a cold reset keeps of a culvert group. -/
def Culv.warm (g : Culv) : Culv := { live := g.live, state := g.state, relocks := g.relocks, retries := g.retries }
def Culv.cold (g : Culv) : Culv := { live := g.live, state := g.state }

/-- R241: what a warm or a cold reset keeps of an MSD. -/
def Msd.warm (m : Msd) : Msd :=
  { hours := m.hours, passes := m.passes, deadEngines := m.deadEngines, failed := m.failed, strap := m.strap }
def Msd.cold (m : Msd) : Msd := { hours := m.hours, deadEngines := m.deadEngines, failed := m.failed }

/-- R238, R241: what a warm or a cold reset keeps of a stack; its marked rows are under soft repair, and hard repairs are
made. -/
def Stack.warm (k : Stack) : Stack :=
  { state := k.state, rate := k.rate, ce := k.ce, ue := k.ue, soft := k.soft ++ k.marked
    hardened := k.soft.length + k.marked.length, found := k.found, seen := k.seen, temp := k.temp }

/-- R238: the hard repairs of a reset. -/
def State.hardRepaired (s : State) : Tbl (List HbmRow) :=
  s.hbm.foldl (fun t e => tpush t e.1 ((e.2.soft ++ e.2.marked).drop e.2.hardened)) s.hardRows

def Stack.cold (k : Stack) : Stack := { k.warm with ce := 0, ue := 0 }

/-- R268, R375: a port through a warm reset keeps its training and keys; the keying for a sealed group ends with its job
(R426), by exchange `n`. [DEDUCED, log 42] -/
def Port.warm (n : Nat) (p : Port) : Port :=
  { p with
    txq := [], replay := [], resend := none, ctlOut := [], nak := false, inject := none, sealedGroup := none
    tx := if p.sealedGroup.isSome then (p.rekeyed n []).tx else p.tx
    rx := if p.sealedGroup.isSome then (p.rekeyed n []).rx else p.rx }

/-- R268, R375: a port through a cold reset keeps its fuse and its attachment. -/
def Port.cold (p : Port) : Port :=
  { fused := p.fused, attRow := p.attRow, attCol := p.attCol, edge := p.edge, state := if p.state = 4 then 4 else 0 }

/-- R36, R327, R411 and R384: what a warm reset keeps of the panel-wide state. [DEDUCED, log 42] -/
def Panel.warm (p : Panel) : Panel :=
  { variant := p.variant, revision := p.revision, windowStart := p.windowStart, panelId := p.panelId, idLock := p.idLock
    lastReset := 2, limit := p.limit, railCap := p.railCap, spots := p.spots, sensors := p.sensors
    hangs := p.hangs, seq := p.seq, liveStacks := p.liveStacks, roles := p.roles, deadPairs := p.deadPairs
    routes := p.routes, failedUnits := p.failedUnits, iodStraps := p.iodStraps, eid := p.eid, fw := p.fw
    pldm := p.pldm, engage := p.engage, hwdHeld := p.hwdHeld }

/-- R36, R411: what a cold reset keeps of it. -/
def Panel.cold (p : Panel) : Panel :=
  { p.warm with
    panelId := 0xFFFF, idLock := false, lastReset := 1, hangs := 0, iodStraps := [], roles := ({} : Panel).roles
    deadPairs := [], pldm := [] }

/-- What a power-on keeps of it: the fuses and the pin. -/
def Panel.powered (p : Panel) : Panel :=
  { variant := p.variant, revision := p.revision, windowStart := p.windowStart, rstLow := p.rstLow }

/-- R405, R411, R412: the recorder of a cold reset or a power-on: the permanent area comes back from its flash mirror. [DEDUCED, log 43] -/
def Recorder.rebuilt (mirror : List RecRec) : Recorder :=
  { perm := mirror, next := BitVec.ofNat 9 mirror.length, permFull := decide (256 ≤ mirror.length) }

/-- R388: counting resumes at the stored value plus 2^24. [DEDUCED, log 42] -/
def resumeSeq (stored : Word) : Word := if stored + 2 ^ 24 = 0 then 1 else stored + 2 ^ 24

/-! ### Warm and more severe resets: the whole panel -/

/-- R302, R368, R370, R375: what a warm reset leaves, before its bring-up. -/
def State.warmReset (s : State) : State :=
  { pending := s.pending, free := s.free + 1, hostMem := s.hostMem, mgmtOut := s.mgmtOut
    dies := tmap {} (fun _ d => d.warm) s.dies
    regions := tmap {} (fun _ r => r.warm) s.regions
    edges := tmap {} (fun _ e => { e with inject := none }) s.edges
    rows := s.rows
    culv := tmap {} (fun _ g => g.warm) s.culv
    msds := tmap {} (fun _ m => m.warm) s.msds
    hbm := tmap {} (fun _ k => k.warm) s.hbm
    hardRows := s.hardRepaired
    ports := tmap {} (fun _ p => p.warm s.free) s.ports
    ring := { resends := s.ring.resends }
    hosts := tmap {} (fun _ h => ({ cut := h.cut } : HostIf)) s.hosts
    faults := s.faults.map fun f => { f with resetSince := true }
    recorder := s.recorder, flash := s.flash, life := s.life
    sec := { s.sec with sessions := [], identity := false }
    panel := s.panel.warm }

/-- R359, R405: the thermal counts and the recorder that come back from flash. -/
def Flash.lives (f : Flash) : Tbl Life := tmap {} (fun _ l => { l with started := false }) f.life

/-- R368, R371, R375: what a cold reset leaves, before its bring-up. Out of Standby the edges are trained again. -/
def State.coldReset (s : State) : State :=
  { pending := s.pending, free := s.free + 1, mgmtOut := s.mgmtOut
    dies := tmap {} (fun _ d => d.cold) s.dies
    regions := tmap {} (fun _ r => r.warm) s.regions
    edges := if s.panel.pstate = .standby then [] else tmap {} (fun _ e => e.cold) s.edges
    rows := s.rows
    culv := tmap {} (fun _ g => g.cold) s.culv
    msds := tmap {} (fun _ m => m.cold) s.msds
    hbm := tmap {} (fun _ k => k.cold) s.hbm
    hardRows := s.hardRepaired
    ports := tmap {} (fun _ p => p.cold) s.ports
    recorder := Recorder.rebuilt s.flash.mirror, flash := s.flash, life := s.flash.lives
    sec := { s.sec with sessions := [], identity := false }
    panel := { s.panel.cold with seq := resumeSeq s.flash.seq, routes := if s.panel.pstate = .standby then [] else s.panel.routes } }

/-- R368, R375: what a power-on leaves, before its bring-up: the fuses and the flash. -/
def State.powerReset (s : State) : State :=
  { pending := s.pending, free := s.free + 1, mgmtOut := s.mgmtOut
    ports := tmap {} (fun _ p => ({ fused := p.fused } : Port)) s.ports
    hardRows := s.hardRows
    recorder := Recorder.rebuilt s.flash.mirror, flash := s.flash, life := s.flash.lives
    sec := { s.sec with sessions := [], identity := false }
    panel := { s.panel.powered with seq := resumeSeq s.flash.seq } }

end Sys2Proof.Machine
end

