-- ==== Sys2Proof/Machine/BringUp.lean ====
section
/-!
DEFINITION. Bring-up (R364-R367, R379, R449), power-on, the cold and the warm reset with the pin PANEL_RST_N (R368-R371,
R442), and the power states (R373, R374). What the checks and trainings find comes with the event.
-/

namespace Sys2Proof.Machine

/-! ### Steps 1 and 2: fuses, straps, image -/

/-- The parts of a bring-up: its kind (0 the first since power-on, 1 cold, 2 warm), and whether the edges are trained
rather than compared. -/
structure BootKind where
  kind : Nat
  fresh : Bool

/-- R22, R26: the straps are read at power-on and at every cold reset. -/
def BootKind.samples (k : BootKind) : Bool := k.kind != 2

/-- R22: a strap word. -/
def strapWord (row col kind rev : Nat) : BitVec 16 :=
  let v := 4096 * row + 256 * col + 32 * kind + 2 * rev
  let ones := ((List.range 16).filter fun i => bit v i).length
  BitVec.ofNat 16 (v + (ones + 1) % 2)

/-- R24 checks 1-3, R26: PARITY_OK, KIND_OK and RANGE_OK of a strap word at a die of a kind. -/
def strapFlags (kind : Nat) (w : BitVec 16) : BitVec 3 :=
  let v := w.toNat
  let parity := decide (((List.range 16).filter fun i => bit v i).length % 2 = 1)
  let row := bits v 12 4
  let col := bits v 8 4
  let limit := match kind with
    | 0 => 12
    | 1 => 8
    | 2 => 8
    | 3 => 1
    | 4 => 2
    | _ => 4
  let range := decide (row < limit) && (if kind = 0 then decide (col < 13) else decide (col = 15))
  flagBits [parity, decide (bits v 5 3 = kind), range]
where
  flagBits (l : List Bool) : BitVec 3 := BitVec.ofNat 3 ((List.range 3).map fun i => 2 ^ i * b2n (nth false l i)).sum

/-- The strap word that a unit samples at a bring-up. -/
def State.sampled (s : State) (b : BringUp) (u : UnitRef) : BitVec 16 :=
  ((b.straps.find? fun e => e.1 = u).map (·.2)).getD
    (strapWord u.row.toNat u.col.toNat u.kind.toNat s.panel.revision.toNat)

/-- R24: a die accepts its straps. -/
def State.strapsHold (s : State) (b : BringUp) (u : UnitRef) : Bool :=
  let w := s.sampled b u
  strapFlags u.kind.toNat w == 7 && decide (bits w.toNat 1 4 = s.panel.revision.toNat)

/-- R25: the headworks die fails one of the checks 1-3. -/
def hwdBad (b : BringUp) : Bool := (b.hwdStrap.map fun w => strapFlags 3 w != 7).getD false

/-- R25, R363: bring-up stops on a fuse or strap fault, which the management port reports. -/
def State.bootStop (s : State) : State := s.onPanel fun p => { p with stage := 0xF, strapFault := true }

/-- R381: the recovery state. -/
def State.bootRecovery (s : State) : State := s.onPanel fun p => { p with stage := 0xE, recovery := true }

/-- R417, R419: the firmware image in flash verifies. -/
def State.imageVerifies (s : State) (b : BringUp) : Bool :=
  b.imageOk && decide (s.sec.fwc ≤ s.flash.fw.svn) && decide (s.flash.fw.svn.toNat ≤ 64)

/-! ### Step 3: the configuration in force -/

/-- R378: a key's range, and its factory default. -/
def State.keyRange (s : State) (key : Nat) : Nat × Nat × Nat :=
  match key with
  | 1 => (12000, s.tdp, s.tdp)
  | 2 => (0, 1, 0)
  | 3 => (10, 14, 14)
  | 4 => (1, 24, 12)
  | 5 => (0, 1, 0)
  | 6 => (10, 10000, 100)
  | 7 => (0, 1, 0)
  | _ => (0, 1, 0)

/-- A key of an image, when it is there. -/
def Cfg.key (c : Cfg) (key : Nat) : Option Nat := (c.keys.find? fun e => e.1 = key).map (·.2)

/-- R379: the value of a key: that of the configuration in force, or else its factory default. -/
def State.keyValue (s : State) (c : Cfg) (key : Nat) : Nat :=
  let (lo, hi, dflt) := s.keyRange key
  let inRange (v : Nat) : Bool := decide (lo ≤ v) && decide (v ≤ hi)
  let factory := ((s.flash.factory.key key).filter inRange).getD dflt
  ((c.key key).filter inRange).getD factory

/-- R379: the keys that are out of range. -/
def State.badKeys (s : State) (c : Cfg) : List Nat :=
  ([1, 2, 3, 4, 5, 6, 7, 8] : List Nat).filter fun key =>
    let (lo, hi, _) := s.keyRange key
    match c.key key with
    | some v => decide (v < lo) || decide (hi < v)
    | none => false

/-- R417, R419: a slot that verifies. -/
def State.slotOk (s : State) (slot : Option Cfg) (ok : Bool) : Option Cfg :=
  slot.filter fun c => ok && decide (s.sec.cfc ≤ c.svn) && decide (c.svn.toNat ≤ 64)

/-- R379, R420: the source of the configuration in force (`CFGSRC`), and the image; none when the factory defaults fail. -/
def State.configChoice (s : State) (b : BringUp) : Option (BitVec 2 × Cfg) :=
  let factory := if b.factoryOk then some ((2 : BitVec 2), s.flash.factory) else none
  if s.sec.owners = [] then factory
  else
    match s.slotOk s.flash.slotA b.slotAOk, s.slotOk s.flash.slotB b.slotBOk with
    | some x, some y => if x.seq < y.seq then some (1, y) else some (0, x)
    | some x, none => some (0, x)
    | none, some y => some (1, y)
    | none, none => factory

/-- R378: the keys applied at a warm or more severe reset. -/
def State.warmKeys (s : State) (c : Cfg) : State :=
  s.onPanel fun p => { p with
    coarse := s.keyValue c 2 == 1, sparePolicy := s.keyValue c 5, thresh := BitVec.ofNat 14 (s.keyValue c 6)
    bootPState := s.keyValue c 7, testAtWarm := s.keyValue c 8 }

/-- The physical sites of the column window. -/
def State.windowSites (s : State) : List Nat := (List.range 12).flatMap fun r => s.window.map fun k => 16 * r + k

/-- R378: the keys applied at power-on. -/
def State.powerKeys (s : State) (c : Cfg) : State :=
  let s1 := s.onPanel fun p => { p with limit := BitVec.ofNat 16 (s.keyValue c 1) }
  let s2 := s1.windowSites.foldl (fun (t : State) d =>
    t.onDie d fun die => { die with forceLog2 := BitVec.ofNat 4 (s.keyValue c 3) }) s1
  (List.range 8).foldl (fun (t : State) m => t.setMsd m { t.msd m with hours := BitVec.ofNat 5 (s.keyValue c 4) }) s2

/-- R276, R364, R379, R407, R419: the end of step 3: the configuration is in force, its counter advanced, its bad keys
recorded; the host dies' links are up. `power`: after a power-on. -/
def State.configure (s : State) (src : BitVec 2) (c : Cfg) (power : Bool) : State :=
  let s1 := (s.warmKeys c).onPanel fun p => { p with cfgSrc := src, fw := s.flash.fw }
  let s2 := if power then s1.powerKeys c else s1
  let s3 := (s.badKeys c).foldl (fun (t : State) key =>
    t.recordKind 0x0C (bytesOf 2 key ++ bytesOf 4 ((c.key key).getD 0))) s2
  let ready (t : State) (second : Bool) : State := t.setHost second { t.host second with ready := !(t.host second).cut }
  let s4 := ready (ready s3 false) true
  if src = 2 then s4 else { s4 with sec := { s4.sec with cfc := if s4.sec.cfc < c.svn then c.svn else s4.sec.cfc } }

/-! ### Step 4: straps and locks -/

/-- The unit of a compute site. -/
def computeUnit (d : Nat) : UnitRef := ⟨0, BitVec.ofNat 4 (d / 16), BitVec.ofNat 4 (d % 16)⟩

/-- R24, R331: the sites of the window that answer nothing: those that fail their straps, and those that are found silent. -/
def State.silentAt (s : State) (b : BringUp) (k : BootKind) : List Site :=
  (s.windowSites.filter fun d => b.silentSites.contains (siteOfKey d) || (k.samples && !s.strapsHold b (computeUnit d))).map
    siteOfKey

/-- R24, R26, R331: the compute dies that answer, with their straps as sampled. -/
def State.wakeDies (s : State) (b : BringUp) (k : BootKind) : State :=
  let silent := s.silentAt b k
  s.windowSites.foldl (fun (t : State) d =>
    let ok := !silent.contains (siteOfKey d)
    let w := s.sampled b (computeUnit d)
    t.onDie d fun die => { die with
      alive := ok, locked := ok, transitFailed := die.transitFailed || !ok
      strap := if k.samples then w else die.strap, strapOk := if k.samples then strapFlags 0 w else die.strapOk }) s

/-- The MSDs, IODs and laser source dies (R22). -/
def otherUnits : List UnitRef :=
  ([(1, 8), (2, 8), (5, 4)] : List (Nat × Nat)).flatMap fun e =>
    (List.range e.2).map fun i => ⟨BitVec.ofNat 3 e.1, BitVec.ofNat 4 i, 15⟩

/-- R24, R26: the straps of the other dies; one that fails them is a failed unit. -/
def State.wakeUnits (s : State) (b : BringUp) : State :=
  otherUnits.foldl (fun (t : State) u =>
    let w := s.sampled b u
    let field : BitVec 19 := w.setWidth 19 ||| ((strapFlags u.kind.toNat w).setWidth 19 <<< 16)
    let i := u.row.toNat
    let bad := !s.strapsHold b u
    let t1 := if u.kind = 1 then t.setMsd i { t.msd i with strap := field, failed := (t.msd i).failed || bad }
      else if u.kind = 2 then t.onPanel fun p => { p with iodStraps := tset 0 p.iodStraps i field }
      else t
    if bad ∧ t1.panel.failedUnits.contains u = false then
      t1.onPanel fun p => { p with failedUnits := p.failedUnits ++ [u] }
    else t1) s

/-! ### Step 6: maps, edges, culverts -/

/-- R398, R401: what the retirement list says of a die. -/
def State.diesFromFlash (s : State) : State :=
  s.windowSites.foldl (fun (t : State) d =>
    t.onDie d fun die => { die with
      retCores := BitVec.ofNat 11 (s.flash.retCores.filter fun e => siteKey e.1 = d).length
      retRegions := BitVec.ofNat 64 (packFields (distinct (s.flash.retRegions.filterMap fun e =>
        if siteKey e.1 = d then some (e.2.toNat, 1) else none)))
      retired := s.flash.retDies.contains (siteOfKey d)
      retPending := s.flash.pendingRet.any fun e => siteKey (retHome e.1) = d }) s

/-- R329, R398: the phases that are left. -/
def State.phasesFromFlash (s : State) : State :=
  s.flash.phases.foldl (fun (t : State) e =>
    let k := siteKey e.1
    let r := t.region k e.2.1.toNat
    t.setRegion k e.2.1.toNat { r with phases := r.phases &&& ~~~((1 : BitVec 8) <<< e.2.2.toNat) }) s

/-- R14, R21, R402: the map of a row before any spare of it is engaged: the last column of the window is left out. [DESIGN CHOICE, log 25] -/
def State.baseRow (s : State) (row : Nat) : State :=
  s.setRow row ({ s.mapWith row (s.window.getLastD 12) with epoch := 0 })

/-- R18, R21, R402: every map is rebuilt from the retirement list. -/
def State.buildRows (s : State) : State :=
  (List.range 12).foldl (fun (t : State) r =>
    let t1 := t.baseRow r
    t1.setRow r (if t1.mayEngage r then t1.planRow r else t1.row r)) s

/-- R21, R383, R402: at a bring-up the maps follow the retirement list before the panel is ready. -/
def State.settleRows (s : State) : State :=
  ((List.range 12).foldl (fun (t : State) r =>
    let new := if t.mayEngage r then t.planRow r else t.mapWith r (t.row r).leftOut.toNat
    if new.lcol = (t.row r).lcol ∧ new.leftOut = (t.row r).leftOut then t else (t.rewriteRow r new).retrainRow t r) s).onPanel
    fun p => { p with engage := [] }

/-- A site on that side of a site exists in the window. -/
def State.hasBeside (s : State) (d edge : Nat) : Bool :=
  match edge with
  | 0 => decide (0 < d / 16)
  | 1 => s.window.contains (d % 16 + 1)
  | 2 => decide (d / 16 < 11)
  | _ => decide (0 < d % 16) && s.window.contains (d % 16 - 1)

/-- R364 step 6: every edge is trained; those that no site map uses are parked. -/
def State.trainAll (s : State) : State :=
  s.windowSites.foldl (fun (t : State) d =>
    let t1 := (List.range 4).foldl (fun (u : State) e =>
      if s.hasBeside d e then u.setEdge d e { u.edge d e with state := 2 } else u) t
    t1.trainSite d 0) { s with edges := [] }

/-- R371: what a bring-up found of an edge: the bad wires, and whether the others carry 32 links. -/
def foundEdge (b : BringUp) (d e : Nat) : Option (Nat × Bool) :=
  (b.retrainEdges.find? fun x => decide (siteKey x.1 = d) && decide (x.2.1.toNat = e)).map fun x => (x.2.2.1.toNat, x.2.2.2)

/-- R338, R370 step 5, R371: each edge goes through the digest exchange: retrained where the digests differ, where it has
failed or a retrain was due, otherwise calibrated. [DEDUCED, log 41] -/
def State.exchangeAll (s : State) (b : BringUp) : State :=
  s.windowSites.foldl (fun (t : State) d =>
    (List.range 4).foldl (fun (t : State) e =>
      let old := t.edge d e
      match foundEdge b d e with
      | some (bad, carries) => t.retrainEdge d e bad 0 carries
      | none =>
        if old.state = 3 ∨ old.retrainDue then t.retrainEdge d e 0 0 true
        else if old.state = 1 then t.trainEdge d e 0
        else t) t) s

/-- The edges that training finds unable to carry 32 links fail; the others take the spares that it found. -/
def State.foundAll (s : State) (b : BringUp) : State :=
  b.retrainEdges.foldl (fun (t : State) x =>
    let d := siteKey x.1
    let e := x.2.1.toNat
    if (t.edge d e).state ≠ 1 then t
    else if x.2.2.2 then
      let ends := (d, e) :: ((t.edgePeer d e).map fun p => (p, farInput e)).toList
      ends.foldl (fun (u : State) y => u.setEdge y.1 y.2 { u.edge y.1 y.2 with
        spares := BitVec.ofNat 9 (min 256 x.2.2.1.toNat) }) t
    else t.edgeFail d e) s

/-- R452: the weirs that fail their training. -/
def State.trainWeirs (s : State) (failed : List Site) : State :=
  (failed.filter fun w => s.siteOk w && !s.flash.weirs.contains w).foldl (fun (t : State) w =>
    let t1 := t.weirFailed w
    t1.report (t1.dieReport (siteKey w) 4 0x020B)) s

/-- R219, R364: the culverts of every present site lock. -/
def State.lockCulverts (s : State) (dead : List (Site × BitVec 3 × BitVec 3)) : State :=
  s.presentSites.foldl (fun (t : State) d => t.lockSite d dead) s

/-! ### HBM and ports -/

/-- R211, R212, R216: the stacks that the variant fuses in and that are not retired are trained. -/
def State.trainStacks (s : State) (b : BringUp) : State :=
  let fused (p : Nat) : Bool := decide (8 * (p % 4) < s.stackCount)
  let s1 := (List.range 32).foldl (fun (t : State) p =>
    let rate := ((b.stackRates.find? fun e => e.1.toNat = p).map (·.2)).getD 0
    t.setStack p { t.stack p with
      state := if !fused p then 0 else if s.flash.retStacks.contains (BitVec.ofNat 5 p) then 3 else 2, rate }) s
  let live := (List.range 32).filter fun p => (s1.stack p).state = 2
  let s2 := s1.onPanel fun p => { p with liveStacks := BitVec.ofNat 32 (live.map fun i => 2 ^ i).sum }
  let down := (List.range 32).filter fun p => fused p && (b.failedStacks.contains (BitVec.ofNat 5 p) || (s.msd (p / 4)).failed)
  down.foldl (fun (t : State) p => t.retireStack p) s2

/-- R243-R245: the ports attach, and those whose fibres answer train with their peers. -/
def State.trainPorts (s : State) (up : List (BitVec 6 × BitVec 16 × BitVec 6)) : State :=
  up.foldl (fun (t : State) e =>
    let p := t.port e.1.toNat
    if p.fused = false ∨ p.state ≠ 0 ∨ t.iodUp e.1.toNat = false then t
    else t.setPort e.1.toNat { p with state := 2, half := 0, peerPanel := e.2.1, peerPort := e.2.2 }) s.attachPorts

/-! ### Step 9: known-answer tests (R366) -/

/-- A unit that the tests retire. -/
def State.testRetire (s : State) (c : CoreRef) : State :=
  match s.dieOf c with
  | none => s
  | some d =>
    let u := RetUnit.core (siteOfKey d) (BitVec.ofNat 10 (coreIndex c))
    if s.unitRetired u then s
    else (s.retireUnit u 0 0).onPanel fun p => { p with retiredAtTest := p.retiredAtTest + 1 }

/-- R366: the tests, with what failed. -/
def State.runTests (s : State) (b : BringUp) : State :=
  let s1 := b.testFailCores.foldl State.testRetire (s.onPanel fun p => { p with tested := true })
  let s2 := b.testFailCollectors.foldl (fun (t : State) c =>
    match t.dieOf c with
    | some d => t.onDie d fun die => { die with noCombine := distinct (die.noCombine ++ [BitVec.ofNat 10 (coreIndex c)]) }
    | none => t) s1
  b.testFailEngines.foldl (fun (t : State) e =>
    let m := t.msd e.1.toNat
    let dead := distinct (m.deadEngines ++ [e.2])
    let t1 := t.setMsd e.1.toNat { m with deadEngines := dead }
    if 8 < dead.length then t1.msdFail e.1.toNat else t1) s2

/-! ### Retirements at a bring-up -/

/-- R355: the sensors that tripped alone are retired; a hot spot with two failed sensors retires its die. -/
def State.settleSensors (s : State) : State :=
  let s1 := { s with flash := { s.flash with
    sensors := distinct (s.flash.sensors ++ s.flash.tripped), tripped := [] } }
  (distinct (s1.flash.sensors.map fun e => (e.1, e.2.1))).foldl (fun (t : State) (e : UnitRef × BitVec 5) =>
    let n := (t.flash.sensors.filter fun x => decide (x.1 = e.1) && decide (x.2.1 = e.2)).length
    if e.1.kind = 0 ∧ 2 ≤ n then t.decideRetire (.die ⟨e.1.row, e.1.col⟩) 0x0507 0 else t) s1

/-- R401: the retirements that were decided take place. -/
def State.settleRetirements (s : State) : State :=
  s.flash.pendingRet.foldl (fun (t : State) e => if t.unitRetired e.1 then t else t.retireUnit e.1 e.2.1 e.2.2) s

/-- R21, R24: the silent sites are dead dies. [DEDUCED, log 41] -/
def State.retireSilent (s : State) (silent : List Site) : State :=
  silent.foldl (fun (t : State) d =>
    if t.siteOk d = false ∨ t.unitRetired (.die d) then t else t.retireUnit (.die d) 0 0) s

/-! ### The sequence (R364) -/

/-- R367, R373, R378, R419: step 11. -/
def State.bootReady (s : State) (b : BringUp) : State :=
  let idle := s.panel.bootPState = 1
  let s1 := s.setClocks (!idle)
  let s2 := s1.onPanel fun p => { p with
    stage := 0xA, ready := true, pstate := if idle then .idle else .run, bootTime := b.duration }
  { s2 with sec := { s2.sec with
    fwc := if s2.sec.fwc < s2.flash.fw.svn then s2.flash.fw.svn else s2.sec.fwc } }

/-- What runs from step 4 on. -/
def State.bootPanel (s : State) (b : BringUp) (k : BootKind) : State :=
  let s0 := s.wakeDies b k
  let s1 := if k.samples then s0.wakeUnits b else s0
  let s2 := (if k.kind = 0 then (s1.diesFromFlash.phasesFromFlash).buildRows else s1).settleSensors
  let s3 := ((s2.retireSilent (s.silentAt b k)).settleRetirements.trainWeirs b.failedWeirs).settleRows
  let s4 := if k.fresh then s3.trainAll.foundAll b else s3.exchangeAll b
  let s5 := if k.kind = 2 then s4.attachPorts
    else ((if k.fresh then s4.lockCulverts b.deadChannels else s4).trainStacks b).trainPorts b.portsUp
  let s6 := if k.kind = 2 ∧ s5.panel.testAtWarm = 0 then s5 else s5.runTests b
  ((s6.settleRetirements).settleRows.closeRecords).bootReady b

/-- R363, R364, R379, R381, R414, R449: the bring-up from step 1 on. The fuses are read at power-on only. [DEDUCED, log 44] -/
def State.bringUp (s : State) (b : BringUp) (k : BootKind) : State :=
  if (s.panel.lastReset = 0 ∧ b.fusesOk = false) ∨ (k.samples ∧ hwdBad b) then s.bootStop
  else
    let s1 := { s with sec := { s.sec with identity := true } }
    if s1.imageVerifies b = false then s1.bootRecovery
    else
      match s1.configChoice b with
      | none => s1.bootRecovery
      | some (src, c) =>
        let s2 := s1.configure src c (k.kind = 0)
        if k.kind ≠ 2 ∧ b.coolantReady = false then s2.onPanel fun p => { p with stage := 3 }
        else s2.bootPanel b k

/-- A die has answered since power-on: the site maps are built, and a cold reset keeps them. [DEDUCED, log 41] -/
def State.built (s : State) : Bool := s.dies.any fun e => e.2.alive

/-- R364, R368, R371: the bring-up after a power-on or a cold reset. -/
def State.coldStart (s : State) (b : BringUp) : State :=
  s.bringUp b ⟨if s.built then 1 else 0, s.edges == []⟩

/-- A power-on that is still under way (R383, R442, R449). -/
def Panel.poweringOn (p : Panel) : Bool := p.lastReset == 0 && !p.ready

/-! ### The events -/

/-- POWER_ON (R363-R367, R442): with PANEL_RST_N low the sequence waits at its first step. -/
def execPowerOn (b : BringUp) (s : State) : Host.Outcome State Fault Refusal :=
  if s.panel.rstLow then .next s.powerReset else .next (s.powerReset.coldStart b)

/-- PANEL_RST_N (R368, R383, R442): a low level of 1 ms or longer. -/
def execPanelRstN (s : State) : Host.Outcome State Fault Refusal :=
  let s1 := if s.panel.hwdHeld then s else if s.panel.poweringOn then s.powerReset else s.coldReset
  .next (s1.onPanel fun p => { p with rstLow := true })

/-- PANEL_RST_N_RELEASE (R442): bring-up begins. -/
def execPanelRstNRelease (b : BringUp) (s : State) : Host.Outcome State Fault Refusal :=
  if s.panel.rstLow = false then .next s
  else
    let s1 := s.onPanel fun p => { p with rstLow := false }
    .next (if s.panel.hwdHeld then s1 else s1.coldStart b)

/-- PANEL_RESET, kind warm (R302, R355, R370, R382); a more severe reset that is under way continues (R383). [DEDUCED, log 42] -/
def execPanelResetWarm (h : Cmd) (b : BringUp) (s : State) : Host.Outcome State Fault Refusal :=
  command h (gateOf 0x0A04) s (asks := fun s =>
    { refused := if s.panel.ready ∧ (s.panel.coolState = 4 ∨ s.panel.dead ∨ s.panel.pstate = .standby) then
        some (stState, []) else none }) fun s =>
    if s.panel.ready then s.warmReset.bringUp b ⟨2, false⟩ else s

/-- PANEL_RESET, kind cold (R355, R368, R382). -/
def execPanelResetCold (h : Cmd) (b : BringUp) (s : State) : Host.Outcome State Fault Refusal :=
  command h (gateOf 0x0A04) s (asks := fun s =>
    { refused := if s.panel.ready ∧ s.panel.coolState = 4 then some (stState, []) else none }) fun s =>
    if s.panel.ready then s.coldReset.coldStart b else s

/-! ### Power states (R373, R374) -/

/-- Every partition is Free or Idle. -/
def State.allIdle (s : State) : Bool := (List.range 16).all fun n => (s.part n).state = .free || (s.part n).state = .idle

/-- R354: an uncleared orderly stop. -/
def State.stopUncleared (s : State) : Bool :=
  s.panel.coolState == 3 || s.faults.any fun f => f.source == 0x0509 && !f.cleared

/-- R374: the move to a power state; none where it is not accepted. [DEDUCED, log 44] -/
def State.moveTo (s : State) (h : Cmd) (target : Nat) : Option State :=
  match target, s.panel.pstate with
  | 0, .run => some (s.answer h stOk)
  | 0, .idle => some (s.leaveIdle.answer h stOk)
  | 0, .regionGated =>
    if s.stopUncleared then none else some ((s.onPanel fun p => { p with pstate := .run }).answer h stOk)
  | 0, .standby => if h.origin = .mgmt then some ((s.coldReset.coldStart (Config.bringUpOf s.free)).answer h stOk) else none
  | 1, .standby => none
  | 1, .regionGated =>
    if s.stopUncleared = false ∧ s.allIdle then
      some (((s.setClocks false).onPanel fun p => { p with pstate := .idle }).answer h stOk)
    else none
  | 1, _ => if s.allIdle then some (((s.setClocks false).onPanel fun p => { p with pstate := .idle }).answer h stOk) else none
  | 2, .standby => none
  | 2, .idle => if s.allIdle then some ((s.leaveIdle.gatePanel).answer h stOk) else none
  | 2, _ => if s.allIdle then some (s.gatePanel.answer h stOk) else none
  | _, .standby => some (s.answer h stOk)
  | _, _ => if s.allIdle then some (s.enterStandby.answer h stOk) else none

/-- POWER_MODE (R326, R374, R383). [DEDUCED, log 44] -/
def execPowerMode (h : Cmd) (target : BitVec 8) (s : State) : Host.Outcome State Fault Refusal :=
  command h (gateOf 0x0805) s (asks := fun s =>
    { refused := if target.toNat < 4 ∧ (s.moveTo h target.toNat).isNone then some (stState, []) else none
      field := firstBad [(decide (4 ≤ target.toNat), 16)] }) fun s =>
    (s.moveTo h target.toNat).getD s

end Sys2Proof.Machine
end

