-- ==== Sys2Proof/Machine/Updates.lean ====
section
/-!
DEFINITION. What is written to flash by command: the Velty image and configuration images with their checks (R377, R380,
R382, R417-R420), the recovery path (R381), and the messages of the management port (R303).
-/

namespace Sys2Proof.Machine

/-! ### Signature blocks (R417) -/

/-- Bytes of an image. -/
def slice (b : List Byte) (off n : Nat) : List Byte := (b.drop off).take n

/-- The signer's two public keys in the block at an offset. -/
def signerKeys (b : List Byte) (off : Nat) : List Byte × List Byte := (slice b (off + 3373) 32, slice b (off + 3405) 1952)

/-- R417: both signatures of the block verify over the SHA-512 of the bytes before it. -/
def blockOk (b : List Byte) (off : Nat) : Bool :=
  let msg := sha512 (b.take off)
  let (ed, ml) := signerKeys b off
  decide (off + 5357 ≤ b.length) && (Config.ed25519Verify ed msg (slice b off 64) &&
    Config.mldsaVerify ml msg (slice b (off + 64) 3309))

/-- R420: the hash of a key pair. -/
def keyHash (keys : List Byte × List Byte) : BitVec 512 := digestOf (keys.1 ++ keys.2)

/-- R418: the rollback counter's range, against a counter in the fuses. -/
def svnOk (svn counter : Nat) : Bool := decide (counter ≤ svn) && decide (svn ≤ 64)

/-! ### Input of a command (R275, R303) -/

/-- The bytes that a command's address and length name, or the status and DETAIL that refuse them. [DEDUCED, log 56] -/
def State.takeInput (s : State) (h : Cmd) (addr len : Nat) : (BitVec 16 × List Byte) ⊕ List Byte :=
  match h.origin with
  | .host second => if s.dmaOk second addr len then .inr (s.hostBytes second addr len) else .inl (stHost, [])
  | .mgmt =>
    if addr ≠ 0 then .inl (stField, fieldDetail 16)
    else if len ≠ h.payload.length then .inl (stField, fieldDetail 24)
    else if 60 * 1024 < len then .inl (stResources, [])
    else .inr h.payload

/-- R419: a refused image is recorded. -/
def State.refuseImage (s : State) (h : Cmd) : State := (s.recordKind 0x0A (bytesOf 4 h.session.toNat)).answer h stAuth

/-! ### The Velty image -/

/-- R417, R419: a firmware image that the panel accepts, as it is kept. [DESIGN CHOICE, log 15] -/
def State.firmwareOf (s : State) (b : List Byte) : Option Firmware :=
  let (version, svn, off) := Config.fwManifest b
  let (ed, ml) := signerKeys b off
  if blockOk b off && Config.fwKeysOk ed ml && svnOk svn.toNat s.sec.fwc.toNat then
    some { version, svn, bytes := b.take off }
  else none

/-- R380: the one image in flash is replaced; the running one goes on. -/
def State.writeFirmware (s : State) (fw : Firmware) : State := { s with flash := { s.flash with fw } }

/-- FW_UPDATE (R303, R376, R380, R382, R417, R419). [DEDUCED, log 45] -/
def execFwUpdate (h : Cmd) (addr : Reg64) (len : Word) (s : State) : Host.Outcome State Fault Refusal :=
  command h (gateOf 0x0A01) s fun s =>
    match s.takeInput h addr.toNat len.toNat with
    | .inl (st, detail) => s.answer h st detail
    | .inr b =>
      if 256 * 2 ^ 20 < b.length then s.answer h stResources
      else
        match s.firmwareOf b with
        | none => s.refuseImage h
        | some fw => (s.writeFirmware fw).answer h stOk (bytesOf 4 fw.version.toNat)

/-! ### Configuration images (R377, R378, R418) -/

/-- R377: where the key records stand. -/
def cfgKeysAt (b : List Byte) : List Nat :=
  (List.range (min (fieldOf b 8 4) ((b.length - 256) / 8))).map fun i => 256 + 8 * i

/-- R377, R378, R418: the first byte that breaks the format. -/
def cfgError (b : List Byte) : Option Nat :=
  let ks := cfgKeysAt b
  let off := fieldOf b 24 4
  let l := breach (b.length < 256) b.length ++ breach (fieldOf b 0 4 ≠ 0x47464341) 0 ++
    breach (b.length < 256 + 8 * fieldOf b 8 4) 8 ++ breach (off < fieldOf b 12 4 + fieldOf b 16 4) 12 ++
    breach (off + fieldOf b 28 4 ≠ b.length) 24 ++ breach (2 ≤ fieldOf b 32 1) 32 ++ reservedIn b 33 223 ++
    ks.flatMap fun o =>
      breach (ks.any fun p => decide (p < o) && fieldOf b p 2 == fieldOf b o 2) o ++ reservedIn b (o + 2) 2
  match l with
  | [] => none
  | e :: es => some (es.foldl min e)

/-- R377: what is kept of a configuration image. -/
def cfgOf (b : List Byte) : Cfg :=
  { seq := BitVec.ofNat 32 (fieldOf b 4 4), svn := BitVec.ofNat 8 (fieldOf b 20 4)
    keys := (cfgKeysAt b).map fun o => (fieldOf b o 2, fieldOf b (o + 4) 4), bytes := b }

/-- R421: the bytes of a configuration image before its signature block. -/
def Cfg.signed (c : Cfg) : List Byte := c.bytes.take (fieldOf c.bytes 24 4)

/-- R420: the image's signer may write: any signer while no owner is enrolled, then the owner, or new keys that the owner
has signed for. -/
def State.signerOk (s : State) (b : List Byte) (off : Nat) : Bool :=
  let signer := keyHash (signerKeys b off)
  match s.sec.owners.getLast? with
  | none => true
  | some owner =>
    if bit (fieldOf b 32 1) 0 then
      decide (s.sec.owners.length < 4) && Config.keyChangeOk (b.drop (off + 5357)) owner signer
    else decide (signer = owner)

/-- R417-R420: a configuration image that CFG_WRITE accepts. -/
def State.cfgVerifies (s : State) (b : List Byte) : Bool :=
  let off := fieldOf b 24 4
  blockOk b off && svnOk (fieldOf b 20 4) s.sec.cfc.toNat && s.signerOk b off

/-- R379: the configuration in force. -/
def State.cfgInForce (s : State) : Cfg :=
  match s.panel.cfgSrc.toNat with
  | 0 => s.flash.slotA.getD {}
  | 1 => s.flash.slotB.getD {}
  | _ => s.flash.factory

/-- R380, R420: the image goes into the slot that is not in force, with the next SEQUENCE; the owner slot is written last. [DEDUCED, log 45] -/
def State.writeCfg (s : State) (b : List Byte) : State :=
  let seq := s.cfgInForce.seq + 1
  let c := cfgOf (patch b 4 (bytesOf 4 seq.toNat))
  let s1 := if s.panel.cfgSrc = 0 then { s with flash := { s.flash with slotB := some c } }
    else { s with flash := { s.flash with slotA := some c } }
  let signer := keyHash (signerKeys b (fieldOf b 24 4))
  if s.sec.owners = [] ∨ bit (fieldOf b 32 1) 0 then { s1 with sec := { s1.sec with owners := s1.sec.owners ++ [signer] } }
  else s1

/-- CFG_WRITE (R377, R380, R382, R417-R420). -/
def execCfgWrite (h : Cmd) (addr : Reg64) (len : Word) (s : State) : Host.Outcome State Fault Refusal :=
  command h (gateOf 0x0A02) s (asks := fun _ => { field := firstBad [(decide (64 * 2 ^ 20 < len.toNat), 24)] }) fun s =>
    match s.takeInput h addr.toNat len.toNat with
    | .inl (st, detail) => s.answer h st detail
    | .inr b =>
      if s.cfgVerifies b = false then s.refuseImage h
      else
        match cfgError b with
        | some o => s.answer h 0x0301 (bytesOf 4 o)
        | none => (s.writeCfg b).answer h stOk (bytesOf 4 (s.cfgInForce.seq + 1).toNat)

/-- CFG_READ (R379, R382). -/
def execCfgRead (h : Cmd) (addr : Reg64) (len : Word) (defaults : Bool) (s : State) : Host.Outcome State Fault Refusal :=
  command h (gateOf 0x0A03) s fun s =>
    s.deliverBytes h addr len (if defaults then s.flash.factory.bytes else s.cfgInForce.bytes)

/-! ### Recovery (R381) -/

/-- R381: the boot ROM writes an image that verifies, and performs a cold reset; it refuses any other. [DEDUCED, log 45] -/
def State.recover (s : State) (image : List Byte) (b : BringUp) : State :=
  if s.panel.stage ≠ 0xE then s
  else
    match s.firmwareOf image with
    | none => s
    | some fw => (s.writeFirmware fw).coldReset.coldStart b

/-- RECOVERY_IMAGE (R381). -/
def execRecoveryImage (image : List Byte) (b : BringUp) (s : State) : Host.Outcome State Fault Refusal :=
  .next (s.recover image b)

/-! ### The management port (R303) -/

/-- R303, R380, R420: a PLDM update of the Velty image or of a configuration image. -/
def State.pldmWrite (s : State) (image : List Byte) : State :=
  let refused := s.recordKind 0x0A
  if fieldOf image 0 4 = 0x47464341 then
    if s.cfgVerifies image = false then refused else if (cfgError image).isSome then s else s.writeCfg image
  else
    match s.firmwareOf image with
    | none => refused
    | some fw => s.writeFirmware fw

/-- R303: a vendor-defined message brings a command with the payload of the request. -/
def State.takeVendor (s : State) (command payload : List Byte) : State :=
  { s with
    mgmtStarted := s.mgmtStarted ++ [(command, payload)]
    fetched := s.fetched ++ [({ cmdOf .mgmt 0 0 command with payload }, command)] }

/-- MCTP_MESSAGE (R303, R381): in recovery only control, base, FRU data and updates are offered. -/
def execMctpMessage (m : Mctp) (s : State) : Host.Outcome State Fault Refusal :=
  let recovery : Bool := s.panel.stage == 0xE
  if s.panel.hwdHeld then .next s
  else
    match m with
    | .control eid => .next (s.onPanel fun p => { p with eid })
    | .pldmBase => .next s
    | .pldmFru => .next s
    | .pldmMonitor => if recovery then .next s else .next (s.onPanel fun p => { p with pldm := p.pldm.drop 1 })
    | .pldmUpdate image => .next (if recovery then s.recover image (Config.bringUpOf s.free) else if s.panel.ready then s.pldmWrite image else s)
    | .vendor command payload => if recovery then .next s else .next (s.takeVendor command payload)

end Sys2Proof.Machine
end

