-- ==== Sys2Proof/Machine/Faults.lean ====
section
/-!
DEFINITION. The 0x06 group (R410): fault records and their clearing (R389, R393), events, the recorder's areas (R406,
R409), injection (R394), and the hang detector (R395-R397).
-/

namespace Sys2Proof.Machine

/-! ### Fault records (R389) -/

/-- R389: the 64 bytes of a fault record. -/
def FaultRec.bytes (f : FaultRec) : List Byte :=
  let flags := f.cls.toNat + 8 * b2n f.injected + 16 * b2n f.overflow + 32 * b2n f.cleared + 64 * b2n f.opened
  bytesOf 4 f.seq.toNat ++ bytesOf 2 f.source.toNat ++ bytesOf 1 flags ++ bytesOf 1 f.classMap.toNat ++
    bytesOf 2 f.site.toNat ++ bytesOf 2 f.unit.toNat ++ bytesOf 1 f.part.toNat ++ bytesOf 1 f.job.toNat ++
    bytesOf 2 f.x.toNat ++ bytesOf 2 f.y.toNat ++ bytesOf 2 f.merges.toNat ++ bytesOf 4 0 ++
    bytesOf 8 f.localCount.toNat ++ bytesOf 1 f.part2.toNat ++ bytesOf 7 0 ++
    (f.detail ++ List.replicate 24 0).take 24

/-- Uncleared records of class 1-3. -/
def State.uncleared (s : State) : Nat := (s.faults.filter FaultRec.holds).length

/-- FAULT_READ (R410): whole records from a SEQ onward. -/
def execFaultRead (h : Cmd) (addr : Reg64) (len first : Word) (uncleared : Bool) (s : State) :
    Host.Outcome State Fault Refusal :=
  command h (gateOf 0x0601) s fun s =>
    let l := (s.faults.filter fun f => decide (first ≤ f.seq) && (!uncleared || f.holds)).take (len.toNat / 64)
    s.deliver h addr.toNat len.toNat (l.flatMap FaultRec.bytes) (bytesOf 4 l.length ++ bytesOf 4 s.uncleared)

/-- R354: the coolant allows the orderly stop to be cleared. -/
def State.coolantBack (s : State) : Bool := decide (10000 ≤ s.panel.coolGood)

/-- R393: the cause of a fault is gone. -/
def State.causeGone (s : State) (f : FaultRec) : Bool :=
  match f.cls.toNat with
  | 0 => true
  | 4 => true
  | 1 => !f.opened
  | 2 => if f.source = 0x0509 then s.coolantBack else f.resetSince
  | _ => false

/-- R387, R390, R393: a record is cleared; a window of class 2 closes with it. [DEDUCED, log 43] -/
def State.clearFault (s : State) (f : FaultRec) : State :=
  let clear (g : FaultRec) : FaultRec := { g with cleared := true, opened := g.opened && g.cls != 2 }
  let s1 := { s with faults := changeRec (fun g => g.seq = f.seq) clear s.faults }
  let s2 := if f.source = 0x0509 then s1.onPanel fun p => { p with coolState := if p.coolState = 3 then 0 else p.coolState } else s1
  if (s2.faults.any fun g => !g.cleared && (g.cls == 2 || g.cls == 3)) = false then s2.onPanel fun p => { p with stopped := false }
  else s2

/-- FAULT_CLEAR (R393, R410). -/
def execFaultClear (h : Cmd) (seq : Word) (s : State) : Host.Outcome State Fault Refusal :=
  command h (gateOf 0x0602) s (asks := fun s =>
    let f := s.faults.find? fun f => f.seq = seq
    { refused := if f.any fun f => !s.causeGone f then some (stState, []) else none
      field := firstBad [(f.isNone, 16)] }) fun s =>
    match s.faults.find? fun f => f.seq = seq with
    | none => s
    | some f =>
      let s1 := s.clearFault f
      (s1.faultEdge s.faultLow seq).answer h stOk (bytesOf 1 (b2n s1.faultLow))

/-- EVENT_WAIT (R284, R410). -/
def execEventWait (h : Cmd) (mask : Word) (s : State) : Host.Outcome State Fault Refusal :=
  command h (gateOf 0x0603) s (asks := fun _ =>
    { field := firstBad [(mask == 0 || decide (64 ≤ mask.toNat), 16)] }) fun s => s.park h (.event mask)

/-! ### The recorder (R405-R409) -/

/-- R406: the 192 bytes of a recorder record. -/
def RecRec.bytes (r : RecRec) : List Byte :=
  bytesOf 4 r.seq.toNat ++ bytesOf 1 r.kind.toNat ++ bytesOf 1 r.list.toNat ++ bytesOf 1 (b2n r.perm) ++ bytesOf 1 0 ++
    bytesOf 2 r.site.toNat ++ bytesOf 2 r.unit.toNat ++ bytesOf 1 r.part.toNat ++ bytesOf 1 r.job.toNat ++
    bytesOf 2 r.invalid.toNat ++ bytesOf 8 r.localCount.toNat ++ bytesOf 4 r.related.toNat ++
    bytesOf 2 r.suppressed.toNat ++ (r.data ++ List.replicate 34 0).take 34 ++
    ((r.snaps.flatMap fun (v : Reg64) => bytesOf 8 v.toNat) ++ List.replicate 128 0).take 128

/-- R410: the records of an area. -/
def State.areaRecords (s : State) (area : Nat) : List RecRec :=
  match area with
  | 0 => s.recorder.perm
  | 1 => s.recorder.circ
  | 2 => s.flash.mirror
  | _ => s.flash.fatal.toList

/-- REC_READ (R410). -/
def execRecRead (h : Cmd) (addr : Reg64) (len : Word) (area : BitVec 8) (s : State) :
    Host.Outcome State Fault Refusal :=
  command h (gateOf 0x0604) s (asks := fun _ => { field := firstBad [(decide (4 ≤ area.toNat), 28)] }) fun s =>
    let l := (s.areaRecords area.toNat).take (len.toNat / 192)
    s.deliver h addr.toNat len.toNat (l.flatMap RecRec.bytes) (bytesOf 4 l.length)

/-- REC_CLEAR (R409, R410). -/
def execRecClear (h : Cmd) (s : State) : Host.Outcome State Fault Refusal :=
  command h (gateOf 0x0605) s fun s =>
    let all := s.recorder.perm ++ s.recorder.circ
    let seqs := all.map fun r => r.seq.toNat
    let data := bytesOf 4 h.session.toNat ++ bytesOf 4 all.length ++ bytesOf 4 (seqs.foldl min (seqs.headD 0)) ++
      bytesOf 4 (seqs.foldl max 0)
    let s1 := { s with
      recorder := { s.recorder with perm := [], circ := [], next := 0, permFull := false }
      flash := { s.flash with mirror := [] } }
    let (s2, seq) := s1.recordSeq { kind := 0x10, data }
    s2.answer h stOk (bytesOf 4 seq.toNat)

/-- RECORDER_TRIGGER (R405-R408): a trigger of R407 occurs. [DEDUCED, log 35] -/
def execRecorderTrigger (t : RecTrig) (s : State) : Host.Outcome State Fault Refusal :=
  if t.kind = 0 ∨ 0x11 < t.kind.toNat then .next s else .next (s.record t)

/-! ### Injection (R394) -/

/-- R394: the range of COUNT. -/
def injectMax (target : Nat) : Nat :=
  match target with
  | 0 => 2
  | 1 => 4
  | 2 => 3
  | 3 => 30
  | _ => 1

/-- R22, R389: the unit of a SITE field. -/
def unitOfWord (site : BitVec 16) : UnitRef :=
  ⟨BitVec.ofNat 3 (bits site.toNat 5 3), BitVec.ofNat 4 (bits site.toNat 12 4), BitVec.ofNat 4 (bits site.toNat 8 4)⟩

/-- R394: the partition of the target: that of its compute die. -/
def State.injectPart (s : State) (u : UnitRef) : Option Nat :=
  if u.kind = 0 then s.partOfSite (unitKey u) else none

/-- The first field of an INJECT that is wrong. -/
def State.injectField (s : State) (target count : Nat) (site : BitVec 16) (unit port : Nat) : Option Nat :=
  let u := unitOfWord site
  let kind : Nat := if target = 1 then 1 else if 3 ≤ target then 2 else 0
  let limit : Nat := match target with | 0 => 1024 | 1 => 4 | 2 => 4 | _ => 8
  if 4 < target then some 16
  else if count = 0 ∨ injectMax target < count then some 17
  else if u.kind.toNat ≠ kind ∨ s.unitOk u = false ∨ site.toNat % 32 ≠ 0 then some 18
  else if limit ≤ unit then some 20
  else if target = 0 ∧ 8 ≤ port then some 22
  else none

/-- R394: the injection is armed. [DEDUCED, log 46] -/
def State.arm (s : State) (target count : Nat) (u : UnitRef) (unit port : Nat) : State :=
  let k := unitKey u
  let m := u.row.toNat
  match target with
  | 0 => match s.coreAt k unit with
    | some c => s.onCore c fun x => { x with inject := some (BitVec.ofNat 8 port, count) }
    | none => s
  | 1 => s.setStack (4 * m + unit) { s.stack (4 * m + unit) with inject := some count }
  | 2 => s.setEdge k unit { s.edge k unit with inject := some count }
  | _ => s.setPort (8 * m + unit) { s.port (8 * m + unit) with inject := some (BitVec.ofNat 8 target, count) }

/-- INJECT (R394, R410). [DEDUCED, log 33] -/
def execInject (h : Cmd) (target count : BitVec 8) (site unit : BitVec 16) (port : BitVec 8) (s : State) :
    Host.Outcome State Fault Refusal :=
  let u := unitOfWord site
  let n := s.injectPart u
  if s.hears h.origin && (s.sessionOk h.origin h.session rightInject &&
      (n.map fun n => (s.part n).secrets.isSome).getD false) then .next (s.answer h stAuth)
  else
  command h (gateOf 0x0606) s (asks := fun s =>
    { refused := if n.any fun n => decide (h.origin ≠ .host (s.part n).owner) then some (stOwner, []) else none
      field := s.injectField target.toNat count.toNat site unit.toNat port.toNat }) fun s =>
    let s1 := s.record { kind := 0x0F, site, unit, part := partByte n
                         data := bytesOf 1 target.toNat ++ bytesOf 1 count.toNat ++ bytesOf 1 port.toNat }
    (s1.arm target.toNat count.toNat u unit.toNat port.toNat).answer h stOk

/-! ### The hang detector (R395-R397) -/

/-- R395: a core that a Running partition places is active. -/
def Core.active (k : Core) : Bool :=
  (k.mode == .run || k.mode == .wait || k.mode == .runtime) && k.atHook.isNone

/-- R397, R413: one sample of a core. -/
def Core.sampled (k : Core) : Core :=
  { k with still := if k.progress = k.lastProgress then satInc k.still else 0, lastProgress := k.progress }

/-- The position in the stream that a contributor adds next, by the flits that wait in its queue and at its router (R200). [DESIGN CHOICE, log 47] -/
def Core.nextCombined (k : Core) (ep : BitVec 3) : Nat :=
  let e := k.endpoint ep
  let queued := ((k.nq.filter fun n => !n.sent).map fun n =>
    match n.flume with | some (i, _) => if i = ep then n.length / 64 else 0 | none => 0).sum
  let waiting := queued + (tget [] k.flumeOut ep.toNat).length + (tget [] k.contrib ep.toNat).length
  let size := max 1 e.size.toNat
  (e.pos.toNat + size * (waiting / size + 1) - waiting) % size

/-- R200, R396: the contributors that have not supplied the oldest waiting position of a collector. -/
def State.notSupplied (s : State) (e : Nat) : List CoreRef :=
  let flume := BitVec.ofNat 12 (bits e 0 12)
  let at_ (c : CoreRef) : Option (Nat × Nat) :=
    ((s.core c).contributes flume).map fun ep =>
      ((s.core c).nextCombined (BitVec.ofNat 3 ep), (tget [] (s.core c).contrib ep).length)
  let oldest := (at_ (endCorner e)).map (·.1)
  ((List.range (flumeCh e)).flatMap fun r => (List.range (flumeCw e)).map fun i => contributor e r i).filter fun c =>
    match at_ c with
    | some (p, n) => n == 0 && some p == oldest
    | none => false

/-- R396: the cores that a core waits for. -/
def State.waitsFor (s : State) (c : CoreRef) : List CoreRef :=
  let k := s.core c
  if k.mode ≠ .wait then []
  else
    match k.wait with
    | .counter n =>
      match (k.counter n).decl with
      | some d => if d.panel = s.panel.panelId then [⟨d.x, d.y⟩] else []
      | none => []
    | .sync ch =>
      let g := (k.chan ch).group.toNat
      (s.members g).filter fun m =>
        match (s.core m).chanOf g with
        | some x => !((s.core m).chan x).arrived
        | none => false
    | .netQueue =>
      match k.nq with
      | n :: _ =>
        match n.flume with
        | some (i, _) =>
          if (k.endpoint i).role = 3 then
            match s.flumeEntry k.partNo (k.endpoint i).flume with
            | some e => s.notSupplied e
            | none => []
          else []
        | none => []
      | [] => []
    | _ => []

/-- The first cycle that a search from a core finds, the path so far newest first; by fuel. -/
def State.cycleFrom (s : State) : Nat → List CoreRef → CoreRef → Option (List CoreRef)
  | 0, _, _ => none
  | fuel + 1, path, c =>
    if path.contains c then some ((path.takeWhile fun x => x ≠ c) ++ [c]).reverse
    else (s.waitsFor c).findSome? fun n => s.cycleFrom fuel (c :: path) n

/-- R389: a cycle in wait order, its first core first. -/
def rotateFirst (l : List CoreRef) : List CoreRef :=
  match firstCore l with
  | some c => (l.dropWhile fun x => x ≠ c) ++ l.takeWhile fun x => x ≠ c
  | none => l

/-- R396: the first cycle among the active cores of a partition. [DESIGN CHOICE, log 47] -/
def State.waitCycle (s : State) (l : List CoreRef) : List CoreRef :=
  rotateFirst ((l.findSome? fun c => s.cycleFrom (l.length + 1) [] c).getD [])

/-- R389: a member of a cycle in DETAIL. -/
def State.cycleMember (s : State) (c : CoreRef) : List Byte :=
  let (kind, on) := (s.core c).waitCodes
  bytesOf 2 c.x.toNat ++ bytesOf 2 c.y.toNat ++ bytesOf 1 (kind + 4 * on)

/-- R389: DETAIL of source 0x0109. -/
def State.hangDetail (s : State) (active : List CoreRef) : List Byte :=
  let cyc := s.waitCycle active
  bytesOf 2 (min 0xFFFF active.length) ++ bytesOf 1 (min 255 cyc.length) ++ (cyc.take 4).flatMap s.cycleMember

/-- R397: the threshold in force, ms. -/
def Panel.threshold (p : Panel) : Nat := clamp 10 10000 p.thresh.toNat

/-- R397: a hang in a Running partition. -/
def State.checkHang (s : State) (n : Nat) : State :=
  let active := (s.placedCores n).filter fun c => (s.core c).active
  if (s.part n).state ≠ .running then s
  else
    match firstCore active with
    | none => s
    | some c =>
      if active.all fun c => decide (s.panel.threshold ≤ (s.core c).still.toNat) then
        let r := s.coreReport c 0x0109
        (s.onPanel fun p => { p with hangs := satInc p.hangs }).acceptOwn
          { r with status := 0x0315, detail := s.hangDetail active }
      else s

/-- R396, R397: the detector samples a placed core of a Running partition. [DESIGN CHOICE, log 47] -/
def State.samples (s : State) (key : Nat) (k : Core) : Bool :=
  let c := coreOfKey key
  k.placed && (s.partOfDie (dieRow c) (dieCol c)).any fun n => decide ((s.part n).state = .running)

/-- HANG_SAMPLE (R395-R397): every 1 ms. -/
def execHangSample (s : State) : Host.Outcome State Fault Refusal :=
  let s1 := { s with cores := tmap {} (fun key k => if s.samples key k then k.sampled else k) s.cores }
  .next ((List.range 16).foldl State.checkHang s1)

end Sys2Proof.Machine
end

