-- ==== Sys2Proof/Machine/Security.lean ====
section
/-!
DEFINITION. The 0x07 group: identity and attestation (R416, R421), sessions (R427), seal offers and their acceptance
(R422, R423), and debug access (R428). What the standards' cryptography computes is opaque (`Config`).
-/

namespace Sys2Proof.Machine

/-- Exactly `n` bytes. -/
def fit (n : Nat) (l : List Byte) : List Byte := (l ++ List.replicate n 0).take n

/-- R415: the serial number as bytes. -/
def serialBytes : List Byte := bytesOf 16 Config.serial.toNat

/-! ### Identity and attestation -/

/-- R416: the identity block. -/
def identityBlock : List Byte :=
  serialBytes ++ bytesOf 4 Config.ed25519Chain.length ++ bytesOf 4 Config.mldsaChain.length ++ bytesOf 8 0 ++
    Config.ed25519Chain ++ Config.mldsaChain

/-- IDENTITY (R416). [DEDUCED, log 48] -/
def execIdentity (h : Cmd) (addr : Reg64) (len : Word) (s : State) : Host.Outcome State Fault Refusal :=
  command h (gateOf 0x0701) s fun s =>
    let need := identityBlock.length
    if len.toNat < need then s.answer h stField (fieldDetail 24 ++ bytesOf 2 0 ++ bytesOf 4 need)
    else s.deliver h addr.toNat len.toNat identityBlock (bytesOf 4 need)

/-- R421: M_FW, M_CFG, M_FUSE and M_LAYOUT, 256 bytes. -/
def State.measures (s : State) : List Byte :=
  sha512 s.panel.fw.bytes ++ sha512 s.cfgInForce.signed ++ bytesOf 64 Config.fuseMeasure.toNat ++ sha512 s.panelBlock

/-- R421, R422: bytes with both signatures over them. -/
def signed (b : List Byte) : List Byte := b ++ fit 64 (Config.ed25519Sign b) ++ fit 3309 (Config.mldsaSign b)

/-- R421: a partition has a job. -/
def Part.hasJob (p : Part) : Bool := decide (p.state ≠ .free) && decide (p.state ≠ .idle)

/-- R421, R423: M_SEAL. [DEDUCED, log 50] -/
def Part.sealMeasure (p : Part) : List Byte :=
  if p.hasJob && !p.img.sealed then bytesOf 64 0
  else fit 64 ((p.secrets.map fun k => k.measure).getD [])

/-- R421: what the report says of one partition: M_JOB, its JOB number, its state, 2 reserved bytes and M_SEAL. -/
def State.attestPart (s : State) (n : Nat) : List Byte :=
  let p := s.part n
  bytesOf 64 p.img.digest.toNat ++ bytesOf 1 (s.partJob n).toNat ++ bytesOf 1 p.state.code ++ bytesOf 2 0 ++ p.sealMeasure

/-- R421: the signed bytes 455:0 of the report. [DEDUCED, log 48] -/
def State.reportBody (s : State) (part : BitVec 8) (nonce : List Byte) : List Byte :=
  let none_ : Bool := part == 0xFF
  let sealed : Bool := !none_ && (s.part part.toNat).img.sealed
  let owner : Nat := if s.sec.owners = [] then 0xFF else s.sec.owners.length - 1
  bytesOf 4 0x54415A41 ++ bytesOf 2 1 ++ bytesOf 1 part.toNat ++
    bytesOf 1 (b2n sealed + 2 * b2n (decide (2 ≤ s.panel.cfgSrc.toNat))) ++ serialBytes ++ bytesOf 4 s.panel.seq.toNat ++
    bytesOf 1 s.panel.fw.svn.toNat ++ bytesOf 1 s.cfgInForce.svn.toNat ++ bytesOf 1 owner ++ bytesOf 5 0 ++
    fit 32 nonce ++ s.measures ++ (if none_ then bytesOf 132 0 else s.attestPart part.toNat)

/-- ATTEST (R421). [DEDUCED, log 48] -/
def execAttest (h : Cmd) (addr : Reg64) (len : Word) (part : BitVec 8) (nonce : List Byte) (s : State) :
    Host.Outcome State Fault Refusal :=
  command h (gateOf 0x0702) s (asks := fun _ =>
    { refused := if 16 ≤ part.toNat ∧ part ≠ 0xFF then some (stNoPart, []) else none
      field := firstBad [(decide (len.toNat < 3829), 24)] }) fun s =>
    s.deliver h addr.toNat len.toNat (signed (s.reportBody part nonce)) (bytesOf 4 3829)

/-! ### Sessions (R427) -/

/-- R427: a session number that is random, not zero and not in use. -/
def State.freshSession (s : State) (n : Word) : Word :=
  (((List.range 6).map fun i => n + BitVec.ofNat 32 i).find? fun m =>
    m != 0 && s.sec.sessions.all fun e => e.number != m).getD 1

/-- R427: the session that a command names, opened where the command comes from. -/
def State.sessionOf (s : State) (h : Cmd) : Option Session :=
  s.sec.sessions.find? fun e => e.number = h.session && decide (h.session ≠ 0) && decide (e.origin = h.origin)

/-- R286, R427: the refusal of a command that names no session of its sender. -/
def State.noSession (s : State) (h : Cmd) : Option (BitVec 16 × List Byte) :=
  if (s.sessionOf h).isNone then some (stAuth, []) else none

/-- R427, R429: a session ends; its state is gone. -/
def State.endSession (s : State) (number : Word) : State :=
  { s with sec := { s.sec with sessions := s.sec.sessions.filter fun e => e.number != number } }

/-- R427: the authorisation of a session fails. -/
def State.failSession (s : State) (number : Word) : State := (s.endSession number).recordKind 0x0A (bytesOf 4 number.toNat)

/-- R427 step 1: the session and its challenge. -/
def State.openSession (s : State) (o : Origin) (rights minutes : BitVec 16) : Session × State :=
  let (num, s1) := s.drawBytes 4
  let (nonce, s2) := s1.drawBytes 32
  let number := s.freshSession (BitVec.ofNat 32 (natOf num))
  let challenge := serialBytes ++ bytesOf 4 number.toNat ++ bytesOf 2 rights.toNat ++ bytesOf 2 minutes.toNat ++ nonce ++
    bytesOf 4 s.panel.seq.toNat ++ bytesOf 4 0
  let e : Session := { number, origin := o, rights, minutes, challenge }
  (e, { s2 with sec := { s2.sec with sessions := s2.sec.sessions ++ [e] } })

/-- SESSION_OPEN (R427). -/
def execSessionOpen (h : Cmd) (addr : Reg64) (rights minutes : BitVec 16) (s : State) : Host.Outcome State Fault Refusal :=
  command h (gateOf 0x0703) s (asks := fun _ =>
    { field := firstBad [(decide (32 ≤ rights.toNat), 24), (minutes == 0 || decide (480 < minutes.toNat), 26)] }) fun s =>
    if s.outputStatus h addr.toNat 64 64 = stOk ∧ 4 ≤ s.sec.sessions.length then s.answer h stResources
    else if s.outputStatus h addr.toNat 64 64 = stOk then
      let (e, s1) := s.openSession h.origin rights minutes
      (s1.recordKind 0x09 (bytesOf 4 e.number.toNat)).deliver h addr.toNat 64 e.challenge (bytesOf 4 e.number.toNat)
    else s.deliver h addr.toNat 64 (bytesOf 64 0) []

/-- R420, R427 step 2: both owner signatures over the challenge. [DESIGN CHOICE, log 9] -/
def State.ownerSigned (s : State) (e : Session) (sigs : List Byte) : Bool :=
  match s.sec.owners.getLast? with
  | some owner => Config.ownerVerify owner e.challenge sigs
  | none => false

/-- R427: the session is authorised. -/
def State.authorise (s : State) (number : Word) : State :=
  let l := s.sec.sessions.map fun e => if e.number = number then { e with authorised := true } else e
  { s with sec := { s.sec with sessions := l } }

/-- SESSION_AUTH (R427): the signatures are 64 and 3,309 bytes. [DEDUCED, log 49] -/
def execSessionAuth (h : Cmd) (addr : Reg64) (len : Word) (s : State) : Host.Outcome State Fault Refusal :=
  command h (gateOf 0x0704) s (asks := fun s =>
    { refused := s.noSession h, field := firstBad [(len != 3373, 24)] }) fun s =>
    match s.sessionOf h with
    | none => s
    | some e =>
      match s.takeInput h addr.toNat len.toNat with
      | .inl (st, detail) => s.answer h st detail
      | .inr sigs =>
        if s.ownerSigned e sigs then
          ((s.authorise e.number).recordKind 0x09 (bytesOf 4 e.number.toNat)).answer h stOk
        else (s.failSession e.number).answer h stAuth

/-- SESSION_AUTH_TIMEOUT (R427 step 2): 60 s have passed since SESSION_OPEN. [DEDUCED, log 49] -/
def execSessionAuthTimeout (session : Word) (s : State) : Host.Outcome State Fault Refusal :=
  if s.sec.sessions.any fun e => e.number = session && !e.authorised then .next (s.failSession session) else .next s

/-- SESSION_CLOSE (R427). -/
def execSessionClose (h : Cmd) (s : State) : Host.Outcome State Fault Refusal :=
  command h (gateOf 0x0705) s (asks := fun s => { refused := s.noSession h }) fun s =>
    match s.sessionOf h with
    | none => s
    | some e => ((s.endSession e.number).recordKind 0x09 (bytesOf 4 e.number.toNat)).answer h stOk

/-- SESSION_EXPIRE (R427 step 4): the lifetime is over. -/
def execSessionExpire (session : Word) (s : State) : Host.Outcome State Fault Refusal :=
  if s.sec.sessions.any fun e => e.number = session then
    .next ((s.endSession session).recordKind 0x09 (bytesOf 4 session.toNat))
  else .next s

/-! ### Sealed jobs -/

/-- R422: the signed bytes 1,531:0 of an offer. -/
def State.offerBody (s : State) (n : Nat) (nonce : List Byte) : List Byte :=
  bytesOf 4 0x46535A41 ++ bytesOf 1 n ++ bytesOf 3 0 ++ serialBytes ++ bytesOf 4 s.panel.seq.toNat ++ fit 32 nonce ++
    fit 1216 (Config.offerPublic s.sec.draws) ++ s.measures

/-- SEAL_OFFER (R422). [DEDUCED, log 48] -/
def execSealOffer (h : Cmd) (addr : Reg64) (len : Word) (nonce : List Byte) (s : State) :
    Host.Outcome State Fault Refusal :=
  command h (gateOf 0x0706) s (asks := fun _ => { field := firstBad [(decide (len.toNat < 4905), 24)] }) fun s =>
    let n := h.part.toNat
    let body := s.offerBody n nonce
    let s1 := s.onPart n fun p => { p with offer := some ⟨s.panel.seq, s.sec.draws, body⟩ }
    let s2 := { s1 with sec := { s1.sec with draws := s1.sec.draws + 1 } }
    (if s.outputStatus h addr.toNat 4905 len.toNat = stOk then s2 else s).deliver h addr.toNat len.toNat (signed body) (bytesOf 4 4905)

/-- SEAL_OFFER_LAPSE (R422, R429): 60 s have passed since the offer was written. -/
def execSealOfferLapse (part : BitVec 4) (s : State) : Host.Outcome State Fault Refusal :=
  .next (s.onPart part.toNat fun p => { p with offer := none })

/-- R423: the secrets that an acceptance unwraps for an offer; none when OFFERSEQ is not the offer's or the tag fails. [DESIGN CHOICE, log 9] -/
def SealOffer.open_ (o : SealOffer) (msg : List Byte) : Option Secrets :=
  if fieldOf msg 0 4 ≠ o.seq.toNat then none
  else
    let pub := slice msg 4 32
    let ct := slice msg 36 1088
    let th := sha512 (o.bytes ++ pub ++ ct)
    let kek := hkdfSha512 th (Config.sealShared (Config.offerPrivate o.draw) pub ct)
      ("azp seal kek".toList.map fun c => BitVec.ofNat 8 c.toNat) 32
    (gcmOpen kek (slice msg 1124 12) (slice msg 1136 200) (slice msg 1336 16) (slice msg 0 4)).map fun k =>
      { xtsKey := slice k 0 64, imageKey := slice k 64 32, linkSecret := slice k 96 32
        digest := BitVec.ofNat 512 (natOf (slice k 128 64)), group := BitVec.ofNat 16 (fieldOf k 192 2), measure := th }

/-- SEAL_ACCEPT (R423): the offer is consumed either way. [DEDUCED, log 49; DEDUCED, log 52] -/
def execSealAccept (h : Cmd) (addr : Reg64) (len : Word) (s : State) : Host.Outcome State Fault Refusal :=
  command h (gateOf 0x0707) s (asks := fun _ => { field := firstBad [(len != 1352, 24)] }) fun s =>
    match s.takeInput h addr.toNat len.toNat with
    | .inl (st, detail) => s.answer h st detail
    | .inr msg =>
      let n := h.part.toNat
      let s1 := s.onPart n fun p => { p with offer := none }
      match (s.part n).offer.bind fun o => o.open_ msg with
      | some k => (s1.onPart n fun p => { p with secrets := some k }).answer h stOk
      | none => (s1.record { kind := 0x0B, part := h.part }).answer h stAuth

/-! ### Debug (R428) -/

/-- R428, R432: a partition that holds sealed secrets. -/
def State.isSealed (s : State) (n : Nat) : Bool := (s.part n).secrets.isSome

/-- R428: the cores that X and Y name in the command's partition. [DEDUCED, log 51] -/
def State.debugCores (s : State) (n : Nat) (x y : BitVec 16) : Option (List CoreRef) :=
  if x = 0xFFFF then some (s.placedCores n)
  else
    let c := coreXY x.toNat y.toNat
    if x.toNat < 512 ∧ y.toNat < 512 ∧ c ∈ s.partCores n then some [c] else none

/-- R286, R428: a debug command on its cores, once its session and its sender are right; a sealed partition refuses it
before anything about the partition is looked at. [DEDUCED, log 50] -/
def debugOn (h : Cmd) (x y : BitVec 16) (s : State) (body : State → List CoreRef → State) (own : Option Nat := none) :
    Host.Outcome State Fault Refusal :=
  if s.hears h.origin && (s.sessionOk h.origin h.session rightDebug && s.isSealed h.part.toNat) then
    .next (s.answer h stAuth)
  else
    command h (gateOf 0x0708) s (asks := fun s =>
      { field := if (s.debugCores h.part.toNat x y).isNone then some 17 else own }) fun s =>
      match s.debugCores h.part.toNat x y with
      | some l => body s l
      | none => s

/-- R428: CORECTL DEBUG to each core. -/
def State.debugAll (s : State) (h : Cmd) (resume : Bool) (l : List CoreRef) : State :=
  (l.foldl (fun (s : State) c => s.debugCore c resume) s).answer h stOk

/-- DEBUG_STOP (R428). -/
def execDebugStop (h : Cmd) (x y : BitVec 16) (s : State) : Host.Outcome State Fault Refusal :=
  debugOn h x y s fun s l => s.debugAll h false l

/-- DEBUG_RESUME (R428). -/
def execDebugResume (h : Cmd) (x y : BitVec 16) (s : State) : Host.Outcome State Fault Refusal :=
  debugOn h x y s fun s l => s.debugAll h true l

/-- R428: the first field of an access that is wrong: the offset, then the length. -/
def debugField (off len : Nat) : Option Nat :=
  if len % 4 ≠ 0 ∨ 64 * 1024 < len then some 32 else if 2 ^ 19 < off + len then some 21 else none

/-- R138, R144: one core's bytes through its egress port; none when a bank is powered down or a word cannot be
corrected. -/
def State.debugFetch (s : State) (c : CoreRef) (off len : Nat) : State × Option (List Byte) :=
  let k := s.core c
  if k.rangeOn off len then
    let o := spReadOver s c k [] portEgress off len
    (o.state c, if o.ok then some o.bytes else none)
  else (s, none)

/-- R428: the bytes of every core named, in order; none when one cannot be read. [DEDUCED, log 51] -/
def State.debugGather (s : State) (l : List CoreRef) (off len : Nat) : State × Option (List Byte) :=
  l.foldl (fun (o : State × Option (List Byte)) c =>
    let r := o.1.debugFetch c off len
    (r.1, match o.2, r.2 with
      | some a, some b => some (a ++ b)
      | _, _ => none)) (s, some [])

/-- DEBUG_READ (R144, R428). -/
def execDebugRead (h : Cmd) (x y : BitVec 16) (offset : BitVec 24) (host : Reg64) (len : Word) (s : State) :
    Host.Outcome State Fault Refusal :=
  debugOn h x y s (own := debugField offset.toNat len.toNat) fun s l =>
    let st := s.outputStatus h host.toNat (l.length * len.toNat) len.toNat
    if st ≠ stOk then s.answer h st (if st = stField then fieldDetail 24 else [])
    else
      match s.debugGather l offset.toNat len.toNat with
      | (s1, some b) => s1.answerData h host.toNat b []
      | (s1, none) => s1.badField h 21

/-- DEBUG_WRITE (R142, R144, R428). [DEDUCED, log 51] -/
def execDebugWrite (h : Cmd) (x y : BitVec 16) (offset : BitVec 24) (host : Reg64) (len : Word) (s : State) :
    Host.Outcome State Fault Refusal :=
  debugOn h x y s (own := debugField offset.toNat len.toNat) fun s l =>
    match s.takeInput h host.toNat len.toNat with
    | .inl (st, detail) => s.answer h st detail
    | .inr b => (l.foldl (fun (s : State) c => s.spwrite c offset.toNat b []) s).answer h stOk

end Sys2Proof.Machine
end

