-- ==== Sys2Proof/Machine/Dispatch.lean ====
section
/-!
DEFINITION. One arm for each command: the meaning that it calls.
-/

namespace Sys2Proof.Machine

/-- The effect of a command on everything but the queue of waiting commands. -/
def exec (i : Instr) (s : State) : Host.Outcome State Fault Refusal :=
  match i with
  | .addi c f => Sys2Proof.Machine.execAddi c f s
  | .andi c f => Sys2Proof.Machine.execAndi c f s
  | .ori c f => Sys2Proof.Machine.execOri c f s
  | .xori c f => Sys2Proof.Machine.execXori c f s
  | .slti c f => Sys2Proof.Machine.execSlti c f s
  | .sltiu c f => Sys2Proof.Machine.execSltiu c f s
  | .shi c f => Sys2Proof.Machine.execShi c f s
  | .lui c f => Sys2Proof.Machine.execLui c f s
  | .opa c f => Sys2Proof.Machine.execOpa c f s
  | .beqz c f => Sys2Proof.Machine.execBeqz c f s
  | .bnez c f => Sys2Proof.Machine.execBnez c f s
  | .bltz c f => Sys2Proof.Machine.execBltz c f s
  | .bgez c f => Sys2Proof.Machine.execBgez c f s
  | .blez c f => Sys2Proof.Machine.execBlez c f s
  | .bgtz c f => Sys2Proof.Machine.execBgtz c f s
  | .jal c f => Sys2Proof.Machine.execJal c f s
  | .jalr c f => Sys2Proof.Machine.execJalr c f s
  | .lw c f => Sys2Proof.Machine.execLw c f s
  | .lh c f => Sys2Proof.Machine.execLh c f s
  | .lhu c f => Sys2Proof.Machine.execLhu c f s
  | .lb c f => Sys2Proof.Machine.execLb c f s
  | .lbu c f => Sys2Proof.Machine.execLbu c f s
  | .sw c f => Sys2Proof.Machine.execSw c f s
  | .sh c f => Sys2Proof.Machine.execSh c f s
  | .sb c f => Sys2Proof.Machine.execSb c f s
  | .dld c f => Sys2Proof.Machine.execDld c f s
  | .dst c f => Sys2Proof.Machine.execDst c f s
  | .dmov c f => Sys2Proof.Machine.execDmov c f s
  | .vop c f => Sys2Proof.Machine.execVop c f s
  | .vld c f => Sys2Proof.Machine.execVld c f s
  | .vst c f => Sys2Proof.Machine.execVst c f s
  | .tload c f => Sys2Proof.Machine.execTload c f s
  | .tmma c f => Sys2Proof.Machine.execTmma c f s
  | .tstore c f => Sys2Proof.Machine.execTstore c f s
  | .tcvt c f => Sys2Proof.Machine.execTcvt c f s
  | .send c f => Sys2Proof.Machine.execSend c f s
  | .sendm c f => Sys2Proof.Machine.execSendm c f s
  | .read c f => Sys2Proof.Machine.execRead c f s
  | .aadd c f => Sys2Proof.Machine.execAadd c f s
  | .cpq c f => Sys2Proof.Machine.execCpq c f s
  | .ccopy c f => Sys2Proof.Machine.execCcopy c f s
  | .carm c f => Sys2Proof.Machine.execCarm c f s
  | .waitc c f => Sys2Proof.Machine.execWaitc c f s
  | .waitcComplete c => Sys2Proof.Machine.execWaitcComplete c s
  | .flag c f => Sys2Proof.Machine.execFlag c f s
  | .waitf c f => Sys2Proof.Machine.execWaitf c f s
  | .barrier c f => Sys2Proof.Machine.execBarrier c f s
  | .notice c f => Sys2Proof.Machine.execNotice c f s
  | .csrr c f => Sys2Proof.Machine.execCsrr c f s
  | .csrw c f => Sys2Proof.Machine.execCsrw c f s
  | .csrs c f => Sys2Proof.Machine.execCsrs c f s
  | .csrc c f => Sys2Proof.Machine.execCsrc c f s
  | .trap c f => Sys2Proof.Machine.execTrap c f s
  | .halt c f => Sys2Proof.Machine.execHalt c f s
  | .haltComplete c => Sys2Proof.Machine.execHaltComplete c s
  | .rte c f => Sys2Proof.Machine.execRte c f s
  | .ibufFill c => Sys2Proof.Machine.execIbufFill c s
  | .storeDrain c sameRowRead => Sys2Proof.Machine.execStoreDrain c sameRowRead s
  | .coreHwFault c source detail => Sys2Proof.Machine.execCoreHwFault c source detail s
  | .debugStopTaken c word => Sys2Proof.Machine.execDebugStopTaken c word s
  | .tensorStart c => Sys2Proof.Machine.execTensorStart c s
  | .tensorComplete c entry fail => Sys2Proof.Machine.execTensorComplete c entry fail s
  | .copyEngineMove c => Sys2Proof.Machine.execCopyEngineMove c s
  | .niInject c => Sys2Proof.Machine.execNiInject c s
  | .ingressDue c bank => Sys2Proof.Machine.execIngressDue c bank s
  | .deferredWrite c bank => Sys2Proof.Machine.execDeferredWrite c bank s
  | .correctionWriteback c bank => Sys2Proof.Machine.execCorrectionWriteback c bank s
  | .scrubRead c bank => Sys2Proof.Machine.execScrubRead c bank s
  | .scrubForce c bank => Sys2Proof.Machine.execScrubForce c bank s
  | .bankZeroiseDone c bank => Sys2Proof.Machine.execBankZeroiseDone c bank s
  | .routerFlitForward c out ev => Sys2Proof.Machine.execRouterFlitForward c out ev s
  | .vcEscape c inp vc => Sys2Proof.Machine.execVcEscape c inp vc s
  | .vc1Aged c inp => Sys2Proof.Machine.execVc1Aged c inp s
  | .edgeCrcFail d edge attempts => Sys2Proof.Machine.execEdgeCrcFail d edge attempts s
  | .write p grants badFlit => Sys2Proof.Machine.execWrite p grants badFlit s
  | .writeNotify p grants badFlit => Sys2Proof.Machine.execWriteNotify p grants badFlit s
  | .readReq p badFlit => Sys2Proof.Machine.execReadReq p badFlit s
  | .readReqServe c => Sys2Proof.Machine.execReadReqServe c s
  | .readResp p grants badFlit => Sys2Proof.Machine.execReadResp p grants badFlit s
  | .atomicAdd p grants badFlit => Sys2Proof.Machine.execAtomicAdd p grants badFlit s
  | .rowcast c p grants badFlit => Sys2Proof.Machine.execRowcast c p grants badFlit s
  | .colcast c p grants badFlit => Sys2Proof.Machine.execColcast c p grants badFlit s
  | .turnoutCopy c inp => Sys2Proof.Machine.execTurnoutCopy c inp s
  | .reduceContrib c ep => Sys2Proof.Machine.execReduceContrib c ep s
  | .completion p badFlit => Sys2Proof.Machine.execCompletion p badFlit s
  | .statusAnswer c status job => Sys2Proof.Machine.execStatusAnswer c status job s
  | .spwrite h offset data grants => Sys2Proof.Machine.execSpwrite h offset data grants s
  | .regwrite h offset value => Sys2Proof.Machine.execRegwrite h offset value s
  | .regread h offset => Sys2Proof.Machine.execRegread h offset s
  | .corectlStart h entry => Sys2Proof.Machine.execCorectlStart h entry s
  | .corectlStop h => Sys2Proof.Machine.execCorectlStop h s
  | .corectlRelease h => Sys2Proof.Machine.execCorectlRelease h s
  | .corectlClear h fpmode => Sys2Proof.Machine.execCorectlClear h fpmode s
  | .corectlBind h chan group => Sys2Proof.Machine.execCorectlBind h chan group s
  | .corectlDebug h resume => Sys2Proof.Machine.execCorectlDebug h resume s
  | .fence h => Sys2Proof.Machine.execFence h s
  | .record h r => Sys2Proof.Machine.execRecord h r s
  | .reply h status data => Sys2Proof.Machine.execReply h status data s
  | .ack a => Sys2Proof.Machine.execAck a s
  | .controlTimeout h => Sys2Proof.Machine.execControlTimeout h s
  | .flumeFlitDeliver c ep parityBad => Sys2Proof.Machine.execFlumeFlitDeliver c ep parityBad s
  | .collectorCombine c ep mismatch => Sys2Proof.Machine.execCollectorCombine c ep mismatch s
  | .linkCollectorCombine c ep mismatch => Sys2Proof.Machine.execLinkCollectorCombine c ep mismatch s
  | .syncArrival d group => Sys2Proof.Machine.execSyncArrival d group s
  | .hwdHubArrival d group ticks => Sys2Proof.Machine.execHwdHubArrival d group ticks s
  | .syncRelease c group => Sys2Proof.Machine.execSyncRelease c group s
  | .syncCulvertLoss d count => Sys2Proof.Machine.execSyncCulvertLoss d count s
  | .detHold d => Sys2Proof.Machine.execDetHold d s
  | .forecastExpire d => Sys2Proof.Machine.execForecastExpire d s
  | .msdPacket m src p => Sys2Proof.Machine.execMsdPacket m src p s
  | .copyDescriptor m src queue p => Sys2Proof.Machine.execCopyDescriptor m src queue p s
  | .copyPiece m => Sys2Proof.Machine.execCopyPiece m s
  | .hbmWriteDrain stack => Sys2Proof.Machine.execHbmWriteDrain stack s
  | .hbmScrub stack wrong => Sys2Proof.Machine.execHbmScrub stack wrong s
  | .culvertReplay d grp chan attempts => Sys2Proof.Machine.execCulvertReplay d grp chan attempts s
  | .culvertRelock d grp chan => Sys2Proof.Machine.execCulvertRelock d grp chan s
  | .culvertRelockDone d grp chan locked => Sys2Proof.Machine.execCulvertRelockDone d grp chan locked s
  | .linkFrame port f => Sys2Proof.Machine.execLinkFrame port f s
  | .laneFail port lane => Sys2Proof.Machine.execLaneFail port lane s
  | .laneRetrainDone port trained => Sys2Proof.Machine.execLaneRetrainDone port trained s
  | .linkKeyExchange port peerOk => Sys2Proof.Machine.execLinkKeyExchange port peerOk s
  | .linkRekey port => Sys2Proof.Machine.execLinkRekey port s
  | .arrive m via ticks => Sys2Proof.Machine.execArrive m via ticks s
  | .release m via => Sys2Proof.Machine.execRelease m via s
  | .abortToken m via => Sys2Proof.Machine.execAbortToken m via s
  | .digest m => Sys2Proof.Machine.execDigest m s
  | .heartbeat m => Sys2Proof.Machine.execHeartbeat m s
  | .ringResend => Sys2Proof.Machine.execRingResend s
  | .ringDown => Sys2Proof.Machine.execRingDown s
  | .panelIdSet h id lock => Sys2Proof.Machine.execPanelIdSet h id lock s
  | .routeWrite h addr len => Sys2Proof.Machine.execRouteWrite h addr len s
  | .groupBind h group epoch root tree addr len => Sys2Proof.Machine.execGroupBind h group epoch root tree addr len s
  | .groupUnbind h => Sys2Proof.Machine.execGroupUnbind h s
  | .ringJoin h => Sys2Proof.Machine.execRingJoin h s
  | .ringJoinTimeout h => Sys2Proof.Machine.execRingJoinTimeout h s
  | .ringLeave h => Sys2Proof.Machine.execRingLeave h s
  | .shadowBind h role peer peerPart mirrorPort digestGroup => Sys2Proof.Machine.execShadowBind h role peer peerPart mirrorPort digestGroup s
  | .portRead h addr len => Sys2Proof.Machine.execPortRead h addr len s
  | .pairMiscompare pair => Sys2Proof.Machine.execPairMiscompare pair s
  | .hostLinkDegrade host both => Sys2Proof.Machine.execHostLinkDegrade host both s
  | .adminQueueCreate host value => Sys2Proof.Machine.execAdminQueueCreate host value s
  | .adminQueueDelete host value => Sys2Proof.Machine.execAdminQueueDelete host value s
  | .sqDoorbell host queue value => Sys2Proof.Machine.execSqDoorbell host queue value s
  | .rqDoorbell host queue value => Sys2Proof.Machine.execRqDoorbell host queue value s
  | .commandFetch host queue => Sys2Proof.Machine.execCommandFetch host queue s
  | .panelInfo h addr len => Sys2Proof.Machine.execPanelInfo h addr len s
  | .queueCreate h pair sqLog2 rqLog2 sqBase rqBase => Sys2Proof.Machine.execQueueCreate h pair sqLog2 rqLog2 sqBase rqBase s
  | .queueDelete h pair => Sys2Proof.Machine.execQueueDelete h pair s
  | .partCreate h row col rows cols => Sys2Proof.Machine.execPartCreate h row col rows cols s
  | .partDestroy h => Sys2Proof.Machine.execPartDestroy h s
  | .partReset h => Sys2Proof.Machine.execPartReset h s
  | .partQuery h => Sys2Proof.Machine.execPartQuery h s
  | .jobLoad h addr len hold => Sys2Proof.Machine.execJobLoad h addr len hold s
  | .jobStart h limit => Sys2Proof.Machine.execJobStart h limit s
  | .jobAbort h reason => Sys2Proof.Machine.execJobAbort h reason s
  | .jobWait h => Sys2Proof.Machine.execJobWait h s
  | .ckptWait h => Sys2Proof.Machine.execCkptWait h s
  | .ckptRelease h => Sys2Proof.Machine.execCkptRelease h s
  | .jobEnd h => Sys2Proof.Machine.execJobEnd h s
  | .logWait h => Sys2Proof.Machine.execLogWait h s
  | .jobComplete part => Sys2Proof.Machine.execJobComplete part s
  | .checkpointEntry part => Sys2Proof.Machine.execCheckpointEntry part s
  | .ckptLimitExpire part => Sys2Proof.Machine.execCkptLimitExpire part s
  | .flumeList h addr len => Sys2Proof.Machine.execFlumeList h addr len s
  | .flumeStats h index => Sys2Proof.Machine.execFlumeStats h index s
  | .memRead h hbm host len => Sys2Proof.Machine.execMemRead h hbm host len s
  | .memWrite h hbm host len => Sys2Proof.Machine.execMemWrite h hbm host len s
  | .regRead h panel host len => Sys2Proof.Machine.execRegRead h panel host len s
  | .regWrite h panel value => Sys2Proof.Machine.execRegWrite h panel value s
  | .registerWrite t value => Sys2Proof.Machine.execRegisterWrite t value s
  | .mctpMessage m => Sys2Proof.Machine.execMctpMessage m s
  | .powerRead h addr len => Sys2Proof.Machine.execPowerRead h addr len s
  | .powerLimit h limit => Sys2Proof.Machine.execPowerLimit h limit s
  | .powerMode h target => Sys2Proof.Machine.execPowerMode h target s
  | .thermalRead h addr len => Sys2Proof.Machine.execThermalRead h addr len s
  | .lifeRead h addr len => Sys2Proof.Machine.execLifeRead h addr len s
  | .railFault millivolts => Sys2Proof.Machine.execRailFault millivolts s
  | .railOutOfTolerance => Sys2Proof.Machine.execRailOutOfTolerance s
  | .railToleranceRestored => Sys2Proof.Machine.execRailToleranceRestored s
  | .standbyLow => Sys2Proof.Machine.execStandbyLow s
  | .regulatorNoticeStep d region phase => Sys2Proof.Machine.execRegulatorNoticeStep d region phase s
  | .unannouncedStep d region inMs => Sys2Proof.Machine.execUnannouncedStep d region inMs s
  | .regionWave => Sys2Proof.Machine.execRegionWave s
  | .regionAdmit d region avgPower admitted => Sys2Proof.Machine.execRegionAdmit d region avgPower admitted s
  | .neighbourWaitExpire d region => Sys2Proof.Machine.execNeighbourWaitExpire d region s
  | .admissionTimeout part => Sys2Proof.Machine.execAdmissionTimeout part s
  | .budgetCapTick avgPower => Sys2Proof.Machine.execBudgetCapTick avgPower s
  | .voltageAdaptTick d region fullDuty stretched allGreen => Sys2Proof.Machine.execVoltageAdaptTick d region fullDuty stretched allGreen s
  | .phaseLoss d region phase draw => Sys2Proof.Machine.execPhaseLoss d region phase draw s
  | .logicRailFail d => Sys2Proof.Machine.execLogicRailFail d s
  | .pllLockLoss d => Sys2Proof.Machine.execPllLockLoss d s
  | .refclkLoss => Sys2Proof.Machine.execRefclkLoss s
  | .crossingSlip d crossing => Sys2Proof.Machine.execCrossingSlip d crossing s
  | .sensorSample u readings => Sys2Proof.Machine.execSensorSample u readings s
  | .thermalCapTick d => Sys2Proof.Machine.execThermalCapTick d s
  | .runLimitExpire u spot => Sys2Proof.Machine.execRunLimitExpire u spot s
  | .coolantSample flow tin tout flowBefore toutBefore => Sys2Proof.Machine.execCoolantSample flow tin tout flowBefore toutBefore s
  | .orderlyStopStandby => Sys2Proof.Machine.execOrderlyStopStandby s
  | .fastStop cause => Sys2Proof.Machine.execFastStop cause s
  | .thermalCycleSample u temp => Sys2Proof.Machine.execThermalCycleSample u temp s
  | .thermalCountFlush => Sys2Proof.Machine.execThermalCountFlush s
  | .powerOn b => Sys2Proof.Machine.execPowerOn b s
  | .panelRstN => Sys2Proof.Machine.execPanelRstN s
  | .panelRstNRelease b => Sys2Proof.Machine.execPanelRstNRelease b s
  | .panelResetWarm h b => Sys2Proof.Machine.execPanelResetWarm h b s
  | .panelResetCold h b => Sys2Proof.Machine.execPanelResetCold h b s
  | .dieResetDie h d digestsMatch => Sys2Proof.Machine.execDieResetDie h d digestsMatch s
  | .dieResetCore h d index => Sys2Proof.Machine.execDieResetCore h d index s
  | .edgeRetrainDue d edge => Sys2Proof.Machine.execEdgeRetrainDue d edge s
  | .edgeRetrain d edge badWires carries => Sys2Proof.Machine.execEdgeRetrain d edge badWires carries s
  | .fwUpdate h addr len => Sys2Proof.Machine.execFwUpdate h addr len s
  | .cfgWrite h addr len => Sys2Proof.Machine.execCfgWrite h addr len s
  | .cfgRead h addr len defaults => Sys2Proof.Machine.execCfgRead h addr len defaults s
  | .retire h d unit index => Sys2Proof.Machine.execRetire h d unit index s
  | .regReadPhys h panel host len => Sys2Proof.Machine.execRegReadPhys h panel host len s
  | .recoveryImage image b => Sys2Proof.Machine.execRecoveryImage image b s
  | .faultReport r => Sys2Proof.Machine.execFaultReport r s
  | .seqFlush => Sys2Proof.Machine.execSeqFlush s
  | .faultRead h addr len first uncleared => Sys2Proof.Machine.execFaultRead h addr len first uncleared s
  | .faultClear h seq => Sys2Proof.Machine.execFaultClear h seq s
  | .eventWait h mask => Sys2Proof.Machine.execEventWait h mask s
  | .recRead h addr len area => Sys2Proof.Machine.execRecRead h addr len area s
  | .recClear h => Sys2Proof.Machine.execRecClear h s
  | .inject h target count site unit port => Sys2Proof.Machine.execInject h target count site unit port s
  | .hangSample => Sys2Proof.Machine.execHangSample s
  | .unitRetire u => Sys2Proof.Machine.execUnitRetire u s
  | .postFaultTest c pass => Sys2Proof.Machine.execPostFaultTest c pass s
  | .spareEngage row failedWeirs => Sys2Proof.Machine.execSpareEngage row failedWeirs s
  | .recorderTrigger t => Sys2Proof.Machine.execRecorderTrigger t s
  | .identity h addr len => Sys2Proof.Machine.execIdentity h addr len s
  | .attest h addr len part nonce => Sys2Proof.Machine.execAttest h addr len part nonce s
  | .sessionOpen h addr rights minutes => Sys2Proof.Machine.execSessionOpen h addr rights minutes s
  | .sessionAuth h addr len => Sys2Proof.Machine.execSessionAuth h addr len s
  | .sessionAuthTimeout session => Sys2Proof.Machine.execSessionAuthTimeout session s
  | .sessionClose h => Sys2Proof.Machine.execSessionClose h s
  | .sessionExpire session => Sys2Proof.Machine.execSessionExpire session s
  | .sealOffer h addr len nonce => Sys2Proof.Machine.execSealOffer h addr len nonce s
  | .sealOfferLapse part => Sys2Proof.Machine.execSealOfferLapse part s
  | .sealAccept h addr len => Sys2Proof.Machine.execSealAccept h addr len s
  | .debugStop h x y => Sys2Proof.Machine.execDebugStop h x y s
  | .debugResume h x y => Sys2Proof.Machine.execDebugResume h x y s
  | .debugRead h x y offset host len => Sys2Proof.Machine.execDebugRead h x y offset host len s
  | .debugWrite h x y offset host len => Sys2Proof.Machine.execDebugWrite h x y offset host len s
  | .illegalInstruction c word => Sys2Proof.Machine.execIllegalInstruction c word s
  | .bankRequestAged c bank port => Sys2Proof.Machine.execBankRequestAged c bank port s
  | .stretchedCycle d domain margin => Sys2Proof.Machine.execStretchedCycle d domain margin s
  | .regionRampDone d region => Sys2Proof.Machine.execRegionRampDone d region s
  | .railTransferComplete d region => Sys2Proof.Machine.execRailTransferComplete d region s
  | .portTraining port peerPanel peerPort eight => Sys2Proof.Machine.execPortTraining port peerPanel peerPort eight s
  | .recordWindowExpire seq => Sys2Proof.Machine.execRecordWindowExpire seq s
  | .hbmTemperatureReadout stack temp => Sys2Proof.Machine.execHbmTemperatureReadout stack temp s
  | .redundantLaserSwitch feeds => Sys2Proof.Machine.execRedundantLaserSwitch feeds s
  | .stackRailFail d rail => Sys2Proof.Machine.execStackRailFail d rail s
  | .dieWideRailFail u => Sys2Proof.Machine.execDieWideRailFail u s
  | .hbmSupplyFail stack => Sys2Proof.Machine.execHbmSupplyFail stack s

end Sys2Proof.Machine
end

