-- ==== Sys2Proof/Machine/Step.lean ====
section
/-!
DEFINITION. One step of the panel: the command at the front of the queue is taken and carried out; with none waiting the
panel goes on with what it has taken in.
-/

namespace Sys2Proof.Machine

/-- What the panel does while no command waits: it carries out the oldest command that Velty has fetched (R280); with none, a
reset that is going on ends, or the panel idles. [DESIGN CHOICE, log 2; DESIGN CHOICE, log 16; DESIGN CHOICE, log 73] -/
def stepFetched (s : State) : Host.Outcome State Fault Refusal :=
  match s.fetched with
  | [] => .next s.idle
  | (h, b) :: rest =>
    match commandOf h b s.free with
    | some i => exec i { s.tick with fetched := rest }
    | none => .next ({ s with fetched := rest }.refuseRaw h b)

/-- Take the waiting command at the front and carry it out with the queue's rest. -/
def step (s : State) : Host.Outcome State Fault Refusal :=
  match s.pending with
  | [] => stepFetched s
  | i :: rest => exec i { s with pending := rest }

/-- The panel with the command that a word spells put at the front of its queue. [DESIGN CHOICE, log 11] -/
def State.withFetchWord (s : State) (nbits w : Nat) : State :=
  match Sys2Proof.decodeTableWord nbits w with
  | some i => { s with pending := i :: s.pending }
  | none => s

end Sys2Proof.Machine
end

