-- ==== Sys2Proof/Safety.lean ====
section
/-!
DEFINITION. What a safe run is: one whose every step answers a next state, and what every step keeps.
-/

namespace Sys2Proof.Machine

/-- The outcome is a next state. -/
def completes (o : Host.Outcome State Fault Refusal) : Prop := ∃ t, o = .next t

/-- The two byte memories are in canonical form. -/
def State.memWf (s : State) : Bool := Memory.wf s.mem && Memory.wf s.hostMem

/-- A run of `n` steps that neither faults nor is refused. -/
def safeRun (s : State) (n : Nat) : Prop := ∃ t, Host.Core.run Sys2Proof.core n s = .next t

/-- The grid has the core, and it can issue an instruction now, from the runtime store or from a bank that its image uses
(R27, R50, R69, R73, R76). -/
def State.ready (s : State) (c : CoreRef) : Prop :=
  s.coreOk c = true ∧ s.mayIssue c = true ∧
    ((s.core c).mode = .runtime ∨ (s.core c).bankOn (s.core c).pc.toNat = true)

/-- The panel after a core has issued an instruction: the rest of the core is as `k` has it, one cycle and one step of
progress counted, a wait on a queue over, and the core goes on at `pc`. -/
def State.after (s : State) (c : CoreRef) (k : Core) (pc : BitVec 19) : State := s.setCore c { k.issued with pc := pc }

/-- Every stored word that `len` bytes from `off` touch reads without an uncorrectable error (R136). -/
def Core.noUncorrectable (k : Core) (off len : Nat) : Prop :=
  ∀ e ∈ k.ecc, off / 8 ≤ e.1 → 8 * e.1 < off + len → e.2.correctable = true

/-- The next place of a packet is nowhere: it is sunk (R169). -/
def Hop.sinks : Hop → Bool
  | .sink _ _ => true
  | .out _ | .turn _ | .wait => false

/-- A command reaches Velty, and none of the reasons of R280 and R286 that every command shares refuses it. -/
def State.admits (s : State) (h : Cmd) (g : Gate) : Prop :=
  s.hears h.origin = true ∧ s.refusal h g = none ∧ h.bad = none

/-- The same for a command of an opcode. -/
def State.takes (s : State) (h : Cmd) (op : Nat) : Prop := s.admits h (gateOf op)

end Sys2Proof.Machine
end

