-- ==== Sys2Proof/Certificates/Slice0/Obligations.lean ====
section
/-!
DEFINITION. The statements for the provers. Each says something of every state and operand; the witnesses that their
hypotheses can be met stand in Sys2Proof/Tests/Slice0.lean.
-/

open Sys2Proof Sys2Proof.Machine

/-! ### Instructions of a core -/

/-- R48: what every integer instruction puts into g[rd], and the codes and fields that are illegal. The rest of the panel is
as it was: `after` puts back the one core, with its PC 4 further (the last word of the scratchpad is in CoreEvents).
Completes: OPA, ADDI, ANDI, ORI, XORI, SLTI, SLTIU, SHI, LUI. -/
def Obligations.IntegerInstructionResults : Prop :=
  ∀ (s : State) (c : CoreRef), s.ready c →
    let k := s.core c
    k.pc.toNat + 4 < 2 ^ 19 →
    let put (rd : BitVec 5) (v : Word) : Host.Outcome State Fault Refusal := .next (s.after c (k.setG rd v) (k.pc + 4))
    let illegal (w : Word) : Host.Outcome State Fault Refusal := .next (s.trap c 0x01 w)
    (∀ f, exec (.addi c f) s = put f.rd (k.getG f.rs1 + f.imm.signExtend 32)) ∧
    (∀ f, exec (.andi c f) s = put f.rd (k.getG f.rs1 &&& f.imm.setWidth 32)) ∧
    (∀ f, exec (.ori c f) s = put f.rd (k.getG f.rs1 ||| f.imm.setWidth 32)) ∧
    (∀ f, exec (.xori c f) s = put f.rd (k.getG f.rs1 ^^^ f.imm.setWidth 32)) ∧
    (∀ f, exec (.slti c f) s = put f.rd (if (k.getG f.rs1).slt (f.imm.signExtend 32) then 1 else 0)) ∧
    (∀ f, exec (.sltiu c f) s = put f.rd (if (k.getG f.rs1).ult (f.imm.signExtend 32) then 1 else 0)) ∧
    (∀ rd rs1 (n : BitVec 5),
      exec (.shi c ⟨rd, rs1, 0#2 ++ 0#9 ++ n⟩) s = put rd (k.getG rs1 <<< n.toNat) ∧
      exec (.shi c ⟨rd, rs1, 1#2 ++ 0#9 ++ n⟩) s = put rd (k.getG rs1 >>> n.toNat) ∧
      exec (.shi c ⟨rd, rs1, 2#2 ++ 0#9 ++ n⟩) s = put rd ((k.getG rs1).sshiftRight n.toNat)) ∧
    (∀ rd rs1 (kind : BitVec 2) (mid : BitVec 9) (n : BitVec 5), kind = 3 ∨ mid ≠ 0 →
      exec (.shi c ⟨rd, rs1, kind ++ mid ++ n⟩) s = illegal (0x08#6 ++ rd ++ rs1 ++ (kind ++ mid ++ n))) ∧
    (∀ rd imm, exec (.lui c ⟨rd, 0, imm⟩) s = put rd (imm ++ 0#16)) ∧
    (∀ rd rs1 imm, rs1 ≠ 0 → exec (.lui c ⟨rd, rs1, imm⟩) s = illegal (0x09#6 ++ rd ++ rs1 ++ imm)) ∧
    (∀ rd a b,
      let x := k.getG a
      let y := k.getG b
      let op (func : BitVec 11) := exec (.opa c ⟨rd, a, b, func⟩) s
      op 0x000 = put rd (x + y) ∧ op 0x001 = put rd (x - y) ∧ op 0x002 = put rd (x &&& y) ∧
      op 0x003 = put rd (x ||| y) ∧ op 0x004 = put rd (x ^^^ y) ∧
      op 0x005 = put rd (x <<< (y.setWidth 5).toNat) ∧ op 0x006 = put rd (x >>> (y.setWidth 5).toNat) ∧
      op 0x007 = put rd (x.sshiftRight (y.setWidth 5).toNat) ∧
      op 0x008 = put rd (if x.slt y then 1 else 0) ∧ op 0x009 = put rd (if x.ult y then 1 else 0) ∧
      op 0x00A = put rd (x * y) ∧
      op 0x00B = put rd ((x.signExtend 64 * y.signExtend 64).extractLsb' 32 32) ∧
      op 0x00C = put rd ((x.setWidth 64 * y.setWidth 64).extractLsb' 32 32) ∧
      op 0x00D = put rd (if x.slt y then x else y) ∧ op 0x00E = put rd (if x.slt y then y else x) ∧
      op 0x00F = put rd (if x.ult y then x else y) ∧ op 0x010 = put rd (if x.ult y then y else x) ∧
      (b = 0 → (∃ n ≤ 32, op 0x011 = put rd (BitVec.ofNat 32 n) ∧ (∀ i < n, x.getMsbD i = false) ∧
          (n < 32 → x.getMsbD n = true)) ∧
        op 0x012 = put rd (BitVec.ofNat 32 ((List.range 32).countP x.getLsbD))) ∧
      (b ≠ 0 → op 0x011 = illegal (0x01#6 ++ rd ++ a ++ b ++ 0x011#11) ∧
        op 0x012 = illegal (0x01#6 ++ rd ++ a ++ b ++ 0x012#11)) ∧
      (∀ func : BitVec 11, 0x012 < func.toNat → op func = illegal (0x01#6 ++ rd ++ a ++ b ++ func)))

/-- R49: the conditions of the branches, their target, the link of JAL and JALR, and the instruction-address trap of a target
that is no word of the scratchpad, which leaves the link register unchanged (the last word of the scratchpad is in
CoreEvents). Completes: BEQZ, BNEZ, BLTZ, BGEZ, BLEZ, BGTZ, JAL, JALR. -/
def Obligations.BranchesAndJumps : Prop :=
  ∀ (s : State) (c : CoreRef), s.ready c →
    let k := s.core c
    k.pc.toNat + 4 < 2 ^ 19 →
    let go (k' : Core) (t : Word) : Host.Outcome State Fault Refusal :=
      if t.setWidth 2 = 0 ∧ t.toNat < 2 ^ 19 then .next (s.after c k' (t.setWidth 19)) else .next (s.trap c 0x02 t)
    let target (off : BitVec 21) : Word := k.pc.setWidth 32 + off.signExtend 32 * 4
    let branch (f : FmtB) (taken : Bool) : Host.Outcome State Fault Refusal :=
      if taken then go k (target f.off) else .next (s.after c k (k.pc + 4))
    let link : Word := (k.pc + 4).setWidth 32
    (∀ f, exec (.beqz c f) s = branch f ((k.getG f.r).toInt == 0)) ∧
    (∀ f, exec (.bnez c f) s = branch f ((k.getG f.r).toInt != 0)) ∧
    (∀ f, exec (.bltz c f) s = branch f (decide ((k.getG f.r).toInt < 0))) ∧
    (∀ f, exec (.bgez c f) s = branch f (decide ((k.getG f.r).toInt ≥ 0))) ∧
    (∀ f, exec (.blez c f) s = branch f (decide ((k.getG f.r).toInt ≤ 0))) ∧
    (∀ f, exec (.bgtz c f) s = branch f (decide ((k.getG f.r).toInt > 0))) ∧
    (∀ f, exec (.jal c f) s = go (k.setG f.r link) (target f.off)) ∧
    (∀ f, exec (.jalr c f) s = go (k.setG f.rd link) (k.getG f.rs1 + f.imm.signExtend 32))

/-- R50, R130, R136, R138: every load whose effective address is aligned, in range and in banks that the image uses and that
stand open to its port, and that meets no uncorrectable word, reads the bytes that program order puts there (`spBytes`:
memory under the stores still in flight), least significant first, extended as the mnemonic says; nothing is written to
memory. A load that meets an uncorrectable word reads nothing and faults the core, which is reported as 0x0102; one at a
bank that is not open to it waits a cycle, and nothing changes. Completes: LW, LH, LHU, LB, LBU, DLD, VLD. -/
def Obligations.LoadsReadTheScratchpad : Prop :=
  ∀ (s : State) (c : CoreRef) (f : FmtI), s.ready c →
    let k := s.core c
    let ea : Word := k.getG f.rs1 + f.imm.signExtend 32
    let inside (size : Nat) : Prop := ea.toNat % size = 0 ∧ ea.toNat < 2 ^ 19 ∧ k.rangeOn ea.toNat size = true
    let can (port size : Nat) : Prop := inside size ∧ k.opens port ea.toNat size = true ∧
      k.noUncorrectable ea.toNat size
    let seen (size : Nat) : Nat := natOf (spBytes s.mem c k.stores ea.toNat size)
    let loads (i : Instr) (k' : Core) : Prop :=
      ∃ t, exec i s = .next t ∧ (t.core c).g = k'.g ∧ (t.core c).d = k'.d ∧ (t.core c).v = k'.v ∧
        (t.core c).pc = k.pc + 4 ∧ t.mem = s.mem ∧ ∀ e, e ≠ c → t.core e = s.core e
    let turnedAway (port size : Nat) (i : Instr) : Prop :=
      (inside size → k.opens port ea.toNat size = false → exec i s = .next s) ∧
      (inside size → k.opens port ea.toNat size = true → ¬ k.noUncorrectable ea.toNat size →
        ∃ t r, exec i s = .next t ∧ (t.core c).mode = .faulted ∧ (t.core c).g = k.g ∧ (t.core c).d = k.d ∧
          (t.core c).v = k.v ∧ t.mem = s.mem ∧ t.reports.getLast? = some r ∧ r.source = 0x0102)
    (can 0 4 → loads (.lw c f) (k.setG f.rd (BitVec.ofNat 32 (seen 4)))) ∧
    (can 0 2 → loads (.lh c f) (k.setG f.rd ((BitVec.ofNat 16 (seen 2)).signExtend 32))) ∧
    (can 0 2 → loads (.lhu c f) (k.setG f.rd ((BitVec.ofNat 16 (seen 2)).setWidth 32))) ∧
    (can 0 1 → loads (.lb c f) (k.setG f.rd ((BitVec.ofNat 8 (seen 1)).signExtend 32))) ∧
    (can 0 1 → loads (.lbu c f) (k.setG f.rd ((BitVec.ofNat 8 (seen 1)).setWidth 32))) ∧
    (can 0 16 → f.rd.toNat < 8 → loads (.dld c f) (k.setD f.rd.toNat (BitVec.ofNat 128 (seen 16)))) ∧
    (can 1 128 → f.rd.toNat < 16 → ∃ t, exec (.vld c f) s = .next t ∧ (t.core c).g = k.g ∧ (t.core c).d = k.d ∧
      (t.core c).pc = k.pc + 4 ∧ t.mem = s.mem ∧
      (∀ l, l < 32 → (t.core c).getV f.rd.toNat l =
        BitVec.ofNat 32 (natOf ((spBytes s.mem c k.stores ea.toNat 128).extract (4 * l) (4 * l + 4)))) ∧
      ∀ r l, r ≠ f.rd.toNat → l < 32 → (t.core c).getV r l = k.getV r l) ∧
    turnedAway 0 4 (.lw c f) ∧ turnedAway 0 2 (.lh c f) ∧ turnedAway 0 2 (.lhu c f) ∧ turnedAway 0 1 (.lb c f) ∧
    turnedAway 0 1 (.lbu c f) ∧ (f.rd.toNat < 8 → turnedAway 0 16 (.dld c f)) ∧
    (f.rd.toNat < 16 → turnedAway 1 128 (.vld c f))

/-- R50, R46: the traps of the loads and stores: a misaligned address first, then one outside the scratchpad or in an unused
bank; a register field beyond the descriptor or vector registers is illegal. -/
def Obligations.LoadAndStoreTraps : Prop :=
  ∀ (s : State) (c : CoreRef) (f : FmtI), s.ready c →
    let k := s.core c
    let ea : Word := k.getG f.rs1 + f.imm.signExtend 32
    let outside (size : Nat) (i : Instr) : Prop :=
      2 ^ 19 ≤ ea.toNat ∨ k.rangeOn ea.toNat size = false → exec i s = .next (s.trap c 0x04 ea)
    let traps (size : Nat) (i : Instr) : Prop :=
      (ea.toNat % size ≠ 0 → exec i s = .next (s.trap c 0x03 ea)) ∧ (ea.toNat % size = 0 → outside size i)
    let illegal (op : BitVec 6) : Host.Outcome State Fault Refusal :=
      .next (s.trap c 0x01 (op ++ f.rd ++ f.rs1 ++ f.imm))
    traps 4 (.lw c f) ∧ traps 2 (.lh c f) ∧ traps 2 (.lhu c f) ∧ outside 1 (.lb c f) ∧ outside 1 (.lbu c f) ∧
    traps 4 (.sw c f) ∧ traps 2 (.sh c f) ∧ outside 1 (.sb c f) ∧
    (f.rd.toNat < 8 → traps 16 (.dld c f) ∧ traps 16 (.dst c f)) ∧
    (8 ≤ f.rd.toNat → exec (.dld c f) s = illegal 0x2E ∧ exec (.dst c f) s = illegal 0x2F) ∧
    (f.rd.toNat < 16 → traps 128 (.vld c f) ∧ traps 128 (.vst c f)) ∧
    (16 ≤ f.rd.toNat → exec (.vld c f) s = illegal 0x21 ∧ exec (.vst c f) s = illegal 0x22)

/-- R50, R51, R79, R129: a store whose address is good enters the 4-entry store buffer with the low bytes of its register,
least significant first, and the core goes on; with the buffer full it does not issue, and nothing changes. Memory is as
it was: the store reaches it when the buffer drains. VST writes its 128 bytes at once, lane 0 first, through its own port;
while an earlier store is on its way or one of its banks is not open to it, it does not issue. Completes: SW, SH, SB, DST,
VST. -/
def Obligations.StoresEnterTheBuffer : Prop :=
  ∀ (s : State) (c : CoreRef) (f : FmtI), s.ready c →
    let k := s.core c
    let ea : Word := k.getG f.rs1 + f.imm.signExtend 32
    let stores (i : Instr) (size v : Nat) : Prop :=
      ea.toNat % size = 0 → ea.toNat < 2 ^ 19 → k.rangeOn ea.toNat size = true →
        (k.stores.length < 4 → exec i s =
          .next (s.after c { k with stores := k.stores ++ [{ off := ea.setWidth 19, bytes := bytesOf size v }] } (k.pc + 4))) ∧
        (4 ≤ k.stores.length → exec i s = .next s)
    stores (.sw c f) 4 (k.getG f.rd).toNat ∧ stores (.sh c f) 2 (k.getG f.rd).toNat ∧
    stores (.sb c f) 1 (k.getG f.rd).toNat ∧
    (f.rd.toNat < 8 → stores (.dst c f) 16 (k.getD f.rd.toNat).toNat) ∧
    (f.rd.toNat < 16 → ea.toNat % 128 = 0 → ea.toNat < 2 ^ 19 → k.rangeOn ea.toNat 128 = true →
      let waits : Prop := k.stores ≠ [] ∨ (∃ e ∈ k.banks, ∃ w ∈ e.2.deferred, w.port = 0) ∨
        k.opens 1 ea.toNat 128 = false
      (¬ waits → ∃ t, exec (.vst c f) s = .next t ∧
        t.mem = memWrite s.mem (spAddr c ea.toNat)
          ((List.range 32).flatMap fun l => bytesOf 4 (k.getV f.rd.toNat l).toNat) ∧
        (t.core c).g = k.g ∧ (t.core c).v = k.v ∧ (t.core c).d = k.d ∧ (t.core c).pc = k.pc + 4 ∧
        ∀ e, e ≠ c → t.core e = s.core e) ∧
      (waits → exec (.vst c f) s = .next s))

/-- R79, R128, R130, R132, R138: the oldest store drains when its bank is open to it: its bytes stand at its place in the
core's scratchpad and every other byte of memory is as it was; beside a read of the same row it becomes the bank's
deferred write and no byte changes; over a part of an uncorrectable word it changes no byte and faults the core. At a bank
that is not open, and with an empty buffer, nothing changes. Completes: STORE_DRAIN. -/
def Obligations.StoreBufferDrains : Prop :=
  (∀ (s : State) (c : CoreRef) (w : RowWrite) (rest : List RowWrite),
    let k := s.core c
    let n := w.off.toNat / 64 % 16
    let whole : Prop := ∀ i ∈ partialWords w.off.toNat w.bytes.length, k.noUncorrectable (8 * i) 8
    s.coreOk c = true → s.clocked c = true → k.stores = w :: rest →
    ((k.bank n).opens 0 = true → k.bankOn w.off.toNat = true →
      (whole → ∃ t, exec (.storeDrain c false) s = .next t ∧ (t.core c).stores = rest ∧
        memRead t.mem (spAddr c w.off.toNat) w.bytes.length = w.bytes ∧
        (∀ a, (a < spAddr c w.off.toNat ∨ spAddr c w.off.toNat + w.bytes.length ≤ a) → memGet t.mem a = memGet s.mem a) ∧
        (t.core c).g = k.g ∧ (t.core c).pc = k.pc) ∧
      (∃ t, exec (.storeDrain c true) s = .next t ∧ (t.core c).stores = rest ∧ ((t.core c).bank n).deferred = [w] ∧
        t.mem = s.mem) ∧
      (¬ whole → w.bytes ≠ [] → ∃ t, exec (.storeDrain c false) s = .next t ∧ (t.core c).mode = .faulted ∧
        t.mem = s.mem)) ∧
    ((k.bank n).opens 0 = false → ∀ b, exec (.storeDrain c b) s = .next s)) ∧
  (∀ (s : State) (c : CoreRef) b, s.coreOk c = true → (s.core c).stores = [] → exec (.storeDrain c b) s = .next s)

/-- R51: a word that a core stores is the word that it then loads from the same address: stores and loads of one core take
effect in program order, the store drained or not; g0 stays zero. -/
def Obligations.StoreThenLoadInProgramOrder : Prop :=
  ∀ (s t u : State) (c : CoreRef) (rs rd rb : BitVec 5) (imm : BitVec 16), s.ready c → t.ready c →
    let k := s.core c
    let ea : Word := k.getG rb + imm.signExtend 32
    ea.toNat % 4 = 0 → ea.toNat < 2 ^ 19 → k.rangeOn ea.toNat 4 = true → k.stores.length < 4 →
    k.opens 0 ea.toNat 4 = true → k.noUncorrectable ea.toNat 4 →
    exec (.sw c ⟨rs, rb, imm⟩) s = .next t → exec (.lw c ⟨rd, rb, imm⟩) t = .next u →
      (u.core c).getG rd = if rd = 0 then 0 else k.getG rs

/-- R51: DMOV with func 0 to 3 replaces one quarter of a descriptor register, with func 4 to 7 reads one; every other form is
illegal (R45, R46). Completes: DMOV. -/
def Obligations.DescriptorQuarterMoves : Prop :=
  ∀ (s : State) (c : CoreRef), s.ready c →
    let k := s.core c
    (∀ (rd rs1 : BitVec 5) (q : Nat), q < 4 → rd.toNat < 8 →
      ∃ d : BitVec 128,
        exec (.dmov c ⟨rd, rs1, 0, BitVec.ofNat 11 q⟩) s = .next (s.after c (k.setD rd.toNat d) (k.pc + 4)) ∧
        d.extractLsb' (32 * q) 32 = k.getG rs1 ∧
        ∀ p, p < 4 → p ≠ q → d.extractLsb' (32 * p) 32 = (k.getD rd.toNat).extractLsb' (32 * p) 32) ∧
    (∀ (rd rs1 : BitVec 5) (q : Nat), q < 4 → rs1.toNat < 8 →
      exec (.dmov c ⟨rd, rs1, 0, BitVec.ofNat 11 (4 + q)⟩) s =
        .next (s.after c (k.setG rd ((k.getD rs1.toNat).extractLsb' (32 * q) 32)) (k.pc + 4))) ∧
    (∀ f : FmtA, (f.rs2 ≠ 0 ∨ 8 ≤ f.func.toNat ∨ (f.func.toNat < 4 ∧ 8 ≤ f.rd.toNat) ∨
        (4 ≤ f.func.toNat ∧ 8 ≤ f.rs1.toNat)) →
      exec (.dmov c f) s = .next (s.trap c 0x01 (0x30#6 ++ f.rd ++ f.rs1 ++ f.rs2 ++ f.func)))

/-- R52: the vector operations whose results the opcode table gives in full, lane by lane, and the three forms that name a
general register. Every other vector register, and every general register but the one that VEXTR names, is as it was. -/
def Obligations.VectorLaneResults : Prop :=
  ∀ (s : State) (c : CoreRef) (d a b : BitVec 5), s.ready c →
    let k := s.core c
    let lanes (func : BitVec 11) (rd rs1 rs2 : BitVec 5) (op : Nat → Word) : Prop :=
      ∃ t, exec (.vop c ⟨rd, rs1, rs2, func⟩) s = .next t ∧ (t.core c).pc = k.pc + 4 ∧ (t.core c).g = k.g ∧
        (∀ l, l < 32 → (t.core c).getV rd.toNat l = op l) ∧
        (∀ r l, r ≠ rd.toNat → l < 32 → (t.core c).getV r l = k.getV r l) ∧ t.mem = s.mem
    let x (l : Nat) : Word := k.getV a.toNat l
    let y (l : Nat) : Word := k.getV b.toNat l
    let nan (w : Word) : Bool := decide (0x7F800000 < w.toNat % 2 ^ 31)
    d.toNat < 16 →
    (a.toNat < 16 → b.toNat < 16 →
      lanes 0x010 d a b (fun l => x l + y l) ∧ lanes 0x011 d a b (fun l => x l - y l) ∧
      lanes 0x012 d a b (fun l => x l * y l) ∧ lanes 0x013 d a b (fun l => x l &&& y l) ∧
      lanes 0x014 d a b (fun l => x l ||| y l) ∧ lanes 0x015 d a b (fun l => x l ^^^ y l) ∧
      lanes 0x016 d a b (fun l => x l <<< ((y l).toNat % 32)) ∧
      lanes 0x017 d a b (fun l => x l >>> ((y l).toNat % 32)) ∧
      lanes 0x018 d a b (fun l => (x l).sshiftRight ((y l).toNat % 32)) ∧
      lanes 0x019 d a b (fun l => if (x l).slt (y l) then x l else y l) ∧
      lanes 0x01A d a b (fun l => if (x l).slt (y l) then y l else x l) ∧
      lanes 0x020 d a b (fun l => if k.getV d.toNat l ≠ 0 then x l else y l)) ∧
    (a.toNat < 16 →
      lanes 0x009 d a 0 (fun l => if nan (x l) then 0x7FC00000 else x l &&& 0x7FFFFFFF) ∧
      lanes 0x00A d a 0 (fun l => if nan (x l) then 0x7FC00000 else x l ^^^ 0x80000000)) ∧
    lanes 0x021 d a 0 (fun _ => k.getG a) ∧
    lanes 0x023 d a b (fun l => if l = (k.getG b).toNat % 32 then k.getG a else k.getV d.toNat l) ∧
    (∀ rd : BitVec 5, a.toNat < 16 → exec (.vop c ⟨rd, a, b, 0x022⟩) s =
      .next (s.after c (k.setG rd (k.getV a.toNat ((k.getG b).toNat % 32))) (k.pc + 4)))

/-- R52, R70, R91: every VOP with a listed code and legal fields completes; the floating-point codes write their vector
register and may raise flags; the flags already raised stay. A code that the table does not list is illegal. Completes:
VOP. -/
def Obligations.VectorOperationsComplete : Prop :=
  ∀ (s : State) (c : CoreRef) (f : FmtA), s.ready c →
    let k := s.core c
    let n := f.func.toNat
    let unary : Prop := n = 0x09 ∨ n = 0x0A ∨ (0x24 ≤ n ∧ n ≤ 0x26) ∨ (0x30 ≤ n ∧ n ≤ 0x35)
    (f.rd.toNat < 16 → f.rs1.toNat < 16 → (n ≤ 0x08 ∧ f.rs2.toNat < 16 ∨ unary ∧ f.rs2 = 0) →
      ∃ t, exec (.vop c f) s = .next t ∧ (t.core c).pc = k.pc + 4 ∧ (t.core c).g = k.g ∧
        (t.core c).fpflags ||| k.fpflags = (t.core c).fpflags ∧
        (∀ r l, r ≠ f.rd.toNat → l < 32 → (t.core c).getV r l = k.getV r l) ∧ t.mem = s.mem) ∧
    (unary → f.rs2 ≠ 0 → exec (.vop c f) s = .next (s.trap c 0x01 (0x20#6 ++ f.rd ++ f.rs1 ++ f.rs2 ++ f.func))) ∧
    ((0x0B ≤ n ∧ n ≤ 0x0F ∨ 0x1B ≤ n ∧ n ≤ 0x1F ∨ 0x27 ≤ n ∧ n ≤ 0x2F ∨ 0x36 ≤ n) →
      exec (.vop c f) s = .next (s.trap c 0x01 (0x20#6 ++ f.rd ++ f.rs1 ++ f.rs2 ++ f.func)))

/-- The frame of the instructions that write registers only: nothing of the panel changes but the one core, and of it only the
destination, the PC, the trap registers of a trap that it takes, the cycle and progress counts and its state (R45-R52).
Every byte of memory reads as before. -/
def Obligations.RegisterInstructionFrame : Prop :=
  ∀ (s t : State) (c : CoreRef) (i : Instr) (rd : BitVec 5),
    (∃ f : FmtI, rd = f.rd ∧ i ∈ [.addi c f, .andi c f, .ori c f, .xori c f, .slti c f, .sltiu c f, .shi c f, .lui c f,
        .jalr c f]) ∨
    (∃ f : FmtB, rd = f.r ∧ i = .jal c f) ∨
    (∃ f : FmtB, rd = 0 ∧ i ∈ [.beqz c f, .bnez c f, .bltz c f, .bgez c f, .blez c f, .bgtz c f]) ∨
    (∃ f : FmtA, rd = f.rd ∧ i = .opa c f) →
    exec i s = .next t →
      t = { s with cores := t.cores, reports := t.reports, free := t.free } ∧
      (∀ e, e ≠ c → t.core e = s.core e) ∧
      (∀ r, r ≠ rd → (t.core c).getG r = (s.core c).getG r) ∧ (t.core c).getG 0 = 0 ∧
      t.core c = { s.core c with
        g := (t.core c).g, pc := (t.core c).pc, mode := (t.core c).mode, wait := (t.core c).wait
        cycle := (t.core c).cycle, progress := (t.core c).progress, ibuf := (t.core c).ibuf
        trapCause := (t.core c).trapCause, trapPc := (t.core c).trapPc, trapVal := (t.core c).trapVal }

/-- R53, R54, R94, R113, R114: a tensor instruction whose checks pass enters the 8-entry queue behind the others, with its two
descriptors after the offset of g[gs], its tile, mode, counter and CORE_FPMODE.SAT captured; the kinds of its tiles
change, and with ce = 1 its counter is armed by its bytes, held besides by a TLOAD of mode 0b01. With the queue full the
core waits. A check that fails is taken as the trap that it names; a reserved mode or a nonzero zero field is illegal
first. A TLOAD of mode 0b01 has no descriptor to check, and issues whatever its fields hold. Completes: TLOAD, TMMA,
TSTORE, TCVT. -/
def Obligations.TensorInstructionsIssue : Prop :=
  ∀ (s : State) (c : CoreRef) (f : FmtT), s.ready c →
    let k := s.core c
    let a := (tensorDesc (k.getD f.da.toNat)).shift (k.getG f.gs)
    let b := (tensorDesc (k.getD f.db.toNat)).shift (k.getG f.gs)
    let queued (i : Instr) (op : TOp) (code : Nat) : Prop :=
      let bytes := tBytes op f.mode.toNat a b
      let armed := (k.counter f.ctr).arm bytes
      ∃ t, exec i s = .next t ∧
        (t.core c).tq = k.tq ++ [{
          op, da := a.capture (k.getD f.da.toNat), db := b.capture (k.getD f.db.toNat), acc := f.acc, mode := f.mode
          ctr := f.ctr, ce := decide (f.ce = 1), sat := k.sat, bytes, word := wordT code f, pc := k.pc }] ∧
        (t.core c).kind = (tKinds k op f.mode.toNat f.acc.toNat a).kind ∧
        (f.ce = 1 → (t.core c).counter f.ctr =
          if op = .tload ∧ f.mode = 1 then { armed with holds := armed.holds + 1 } else armed) ∧
        (f.ce = 0 → (t.core c).ccnt = k.ccnt) ∧
        (t.core c).pc = k.pc + 4 ∧ (t.core c).g = k.g ∧ (t.core c).acc = k.acc ∧ t.mem = s.mem
    let issues (i : Instr) (op : TOp) (code : Nat) (modes : Nat) : Prop :=
      (tCheck k op f (wordT code f) = none → k.tq.length < 8 → queued i op code) ∧
      (tCheck k op f (wordT code f) = none → 8 ≤ k.tq.length →
        exec i s = .next (s.setCore c { k with mode := .wait, wait := .tensorQueue })) ∧
      (∀ cause v, tCheck k op f (wordT code f) = some (cause, v) → exec i s = .next (s.trap c cause v)) ∧
      (modes ≤ f.mode.toNat ∨ f.zero ≠ 0 → exec i s = .next (s.trap c 0x01 (wordT code f)))
    issues (.tload c f) .tload 0x24 2 ∧ issues (.tmma c f) .tmma 0x25 1 ∧
    issues (.tstore c f) .tstore 0x26 2 ∧ issues (.tcvt c f) .tcvt 0x27 1 ∧
    (f.mode = 1 → f.zero = 0 → k.tq.length < 8 → queued (.tload c f) .tload 0x24)

/-- R94, R111, R115, R117, R121, R122, R453: the engine starts the oldest instruction that nothing ahead of it holds. A
started one that none ahead of it holds back, with its rows open, its stored residues right and no check failing, leaves
the queue with what it computes (`tCompute`) in the accumulators and in memory, and its bytes counted with ce = 1: a TLOAD
of mode 0b01 makes its tile +0 throughout, another TLOAD puts its 16 lines of 16 elements there, and a TMMA of INT8 adds
the products of its lines, the other tiles as they were. A check that fails, or a stored residue that is wrong, faults the
core, which loses its queues, and is reported as 0x0101 with its DETAIL. Completes: TENSOR_START, TENSOR_COMPLETE. -/
def Obligations.TensorEngineSteps : Prop :=
  ∀ (s : State) (c : CoreRef),
    let k := s.core c
    s.coreOk c = true →
    (s.clocked c = true → k.mode ≠ .faulted →
      (∀ n rest, k.tq = n :: rest → n.started = false →
        exec (.tensorStart c) s = .next (s.setCore c { k with tq := { n with started := true } :: rest })) ∧
      (∀ q, startNext [] k.tq = some q → exec (.tensorStart c) s = .next (s.setCore c { k with tq := q })) ∧
      (startNext [] k.tq = none → exec (.tensorStart c) s = .next s)) ∧
    (∀ (i : BitVec 3) (n : TInstr), k.tq[i.toNat]? = some n → n.started = true →
      (∀ e ∈ k.tq.take i.toNat, tAfter e n = false) → tOpens k n = true →
      let a := tensorDesc n.da
      let b := tensorDesc n.db
      let o := tCompute c n 4096 s k
      let line (d : TDesc) (l : Nat) : List Byte :=
        spBytes s.mem c k.stores (d.base.toNat + l * d.stride) d.lineBytes
      let others (t : State) : Prop :=
        ∀ u x y, u ≠ n.acc.toNat → x < 16 → y < 16 → (t.core c).getAcc u x y = k.getAcc u x y
      let held : Counter := { k.counter n.ctr with
        holds := if n.op = .tload ∧ n.mode = 1 then (k.counter n.ctr).holds - 1 else (k.counter n.ctr).holds }
      (staleEntry k n = none → o.ok = true →
        ∃ t, exec (.tensorComplete c i none) s = .next t ∧ (t.core c).tq = k.tq.eraseIdx i.toNat ∧
          (t.core c).acc = o.k.acc ∧ t.mem = o.s.mem ∧ (t.core c).fpflags = o.k.fpflags ∧ (t.core c).g = k.g ∧
          (n.ce = true → (t.core c).counter n.ctr = held.addBytes n.bytes) ∧ (n.ce = false → (t.core c).ccnt = k.ccnt)) ∧
      (n.op = .tload → n.mode = 1 →
        ∃ t, exec (.tensorComplete c i none) s = .next t ∧ (t.core c).tq = k.tq.eraseIdx i.toNat ∧
          (∀ x y, x < 16 → y < 16 → (t.core c).getAcc n.acc.toNat x y = 0) ∧ others t ∧ t.mem = s.mem) ∧
      (n.op = .tload → n.mode ≠ 1 → (∀ e ∈ k.ecc, e.2.correctable = true) →
        ∃ t, exec (.tensorComplete c i none) s = .next t ∧ (t.core c).tq = k.tq.eraseIdx i.toNat ∧
          (∀ l e, l < 16 → e < 16 →
            (t.core c).getAcc n.acc.toNat (if a.order then e else l) (if a.order then l else e) =
              loadEntry a.fmt (elemCode a.fmt (line a l) e)) ∧ others t ∧ t.mem = s.mem) ∧
      (n.op = .tmma → a.fmt = 3 → staleEntry k n = none → (∀ e ∈ k.ecc, e.2.correctable = true) →
        ∃ t, exec (.tensorComplete c i none) s = .next t ∧ (t.core c).tq = k.tq.eraseIdx i.toNat ∧
          (∀ x y, x < 16 → y < 16 → (t.core c).getAcc n.acc.toNat x y =
            mmaInt (k.getAcc n.acc.toNat x y) (line a x) (line b y)) ∧ others t ∧ t.mem = s.mem) ∧
      (∀ f, (staleEntry k n = some f ∨ staleEntry k n = none ∧ checkRuns n f.check.toNat = true) →
        ∃ t r, exec (.tensorComplete c i (some f)) s = .next t ∧ (t.core c).mode = .faulted ∧ (t.core c).tq = [] ∧
          (t.core c).nq = [] ∧ (t.core c).cq = [] ∧ t.reports.getLast? = some r ∧ r.source = 0x0101 ∧
          r.detail = residueDetail n f)) ∧
    (∀ i f, k.tq[(i : BitVec 3).toNat]? = none → exec (.tensorComplete c i f) s = .next s)

/-- R55, R56, R57, R59, R156: a network instruction whose checks pass enters its queue behind the others, with the LOCAL and
REMOTE that the offset gives, its length and its flow tag, one more than that of the instruction before; with ce = 1 its
counter is armed by its bytes, and a READ's bytes are outstanding. With the queue full the core waits. A check that fails
is taken as the trap that it names; a reserved route or a nonzero zero field is illegal. CPQ queues its checked
descriptor, and CCOPY enters the copy engine's queue of four. Completes: SEND, SENDM, READ, AADD, CPQ, CCOPY. -/
def Obligations.NetworkInstructionsIssue : Prop :=
  ∀ (s : State) (c : CoreRef) (f : FmtN), s.ready c →
    let k := s.core c
    let d := netDesc (k.getD f.d.toNat)
    let queued (i : Instr) (p : State → NInstr → Prop) : Prop :=
      ∃ t n, exec i s = .next t ∧ (t.core c).nq = k.nq ++ [n] ∧ n.flow = k.flowCount + 1 ∧ p t n ∧
        (t.core c).flowCount = k.flowCount + 1 ∧ (t.core c).pc = k.pc + 4 ∧ (t.core c).g = k.g ∧ t.mem = s.mem
    let waits (i : Instr) (w : WaitOn) : Prop := exec i s = .next (s.setCore c { k with mode := .wait, wait := w })
    let illegal (i : Instr) (code : Nat) : Prop :=
      f.route = 3 ∨ f.zero ≠ 0 → exec i s = .next (s.trap c 0x01 (wordN code f))
    let issues (i : Instr) (op : NOp) (code : Nat) : Prop :=
      (∀ loc remote, s.netCheck c k op f (wordN code f) = .inr (loc, remote) →
        (k.nq.length < 16 → queued i fun t n => n.op = op ∧ n.local_ = BitVec.ofNat 19 loc ∧
          n.remote = BitVec.ofNat 48 remote ∧ n.length = (if op = .aadd then 4 else d.length) ∧
          n.addend = k.getG f.gs ∧ (n.link = none → n.route = f.route) ∧ (op ≠ .send → n.link = none) ∧
          (t.core c).reads = k.reads + (if op = .read then d.length else 0) ∧
          (f.ce = 1 → op ≠ .aadd → (t.core c).counter f.ctr =
            (k.counter f.ctr).arm (if op = .sendm ∧ d.notify = true then d.length * d.span else d.length)) ∧
          (f.ce = 0 → (t.core c).ccnt = k.ccnt)) ∧
        (16 ≤ k.nq.length → waits i .netQueue)) ∧
      (∀ cause v, s.netCheck c k op f (wordN code f) = .inl (cause, v) → exec i s = .next (s.trap c cause v)) ∧
      illegal i code
    issues (.send c f) .send 0x28 ∧ issues (.sendm c f) .sendm 0x29 ∧ issues (.read c f) .read 0x2A ∧
    issues (.aadd c f) .aadd 0x2B ∧
    ((∀ desc, s.cpqCheck c k f (wordN 0x2C f) = .inr desc →
        (k.nq.length < 16 → queued (.cpq c f) fun _ n => n.op = .cpq ∧ n.desc = desc) ∧
        (16 ≤ k.nq.length → waits (.cpq c f) .netQueue)) ∧
      (∀ cause v, s.cpqCheck c k f (wordN 0x2C f) = .inl (cause, v) → exec (.cpq c f) s = .next (s.trap c cause v)) ∧
      illegal (.cpq c f) 0x2C) ∧
    ((∀ src dst, s.copyCheck c k f (wordN 0x2D f) = .inr (src, dst) →
        (k.cq.length < 4 → ∃ t, exec (.ccopy c f) s = .next t ∧ (t.core c).pc = k.pc + 4 ∧ t.mem = s.mem ∧
          (t.core c).cq = k.cq ++ [⟨BitVec.ofNat 19 src, BitVec.ofNat 19 dst, d.length, f.ctr, decide (f.ce = 1)⟩] ∧
          (t.core c).flowCount = k.flowCount + 1 ∧
          (f.ce = 1 → (t.core c).counter f.ctr = (k.counter f.ctr).arm d.length) ∧ (f.ce = 0 → (t.core c).ccnt = k.ccnt)) ∧
        (4 ≤ k.cq.length → waits (.ccopy c f) .copyQueue)) ∧
      (∀ cause v, s.copyCheck c k f (wordN 0x2D f) = .inl (cause, v) → exec (.ccopy c f) s = .next (s.trap c cause v)) ∧
      illegal (.ccopy c f) 0x2D)

/-- R57: the trap of a network instruction that stands first: an illegal form before a bad descriptor, that before a
misaligned value, that before an address that the core may not use. -/
def Obligations.NetworkTrapOrder : Prop :=
  ∀ (s : State) (c : CoreRef) (f : FmtN), s.ready c →
    let k := s.core c
    let d := netDesc (k.getD f.d.toNat)
    let word := wordN 0x28 f
    let illegal : Prop := f.route = 3 ∨ f.zero ≠ 0
    let descriptor : Prop := d.reserved = true ∨ d.length = 0 ∨ 524288 < d.length ∨ (f.route = 2 ∧ 64 < d.length) ∨
      (f.ce = 1 ∧ 2 ^ 24 ≤ (k.counter f.ctr).total.toNat + d.length)
    let loc : Word := BitVec.ofNat 32 d.local_ + k.getG f.gs
    let rem : Word := BitVec.ofNat 32 d.remote + k.getG f.gs
    (illegal → exec (.send c f) s = .next (s.trap c 0x01 word)) ∧
    (¬ illegal → descriptor → exec (.send c f) s = .next (s.trap c 0x08 word)) ∧
    (¬ illegal → ¬ descriptor → loc.toNat % 4 ≠ 0 → exec (.send c f) s = .next (s.trap c 0x03 loc)) ∧
    (¬ illegal → ¬ descriptor → loc.toNat % 4 = 0 → rem.toNat % 4 ≠ 0 →
      exec (.send c f) s = .next (s.trap c 0x03 rem)) ∧
    (¬ illegal → ¬ descriptor → loc.toNat % 4 = 0 → rem.toNat % 4 = 0 → d.length % 4 ≠ 0 →
      exec (.send c f) s = .next (s.trap c 0x03 (BitVec.ofNat 32 d.length))) ∧
    (¬ illegal → ¬ descriptor → loc.toNat % 4 = 0 → rem.toNat % 4 = 0 → d.length % 4 = 0 →
      addOff d.local_ (k.getG f.gs) (2 ^ 19) = none → exec (.send c f) s = .next (s.trap c 0x04 loc))

/-- R56, R129, R130, R138, R156, R158, R159, R160, R178: the engines that take the queues. The head of the network queue is
sent: an AADD as one packet with the word to add, a READ as its READ_REQs, a CPQ as one packet to every MSD, a SEND or
SENDM as its pieces (`niInjectHead` says which packets come to the local input); nothing is sent while the die is in
reset, the clock stands, or a NOTIFY finds no slot. A CCOPY whose banks are open and whose source holds no uncorrectable
word, its destination no such word in part, moves its bytes: the destination holds them, every other byte is as it was,
and with ce = 1 they are counted. Completes: NI_INJECT, COPY_ENGINE_MOVE. -/
def Obligations.NetworkEnginesSteps : Prop :=
  ∀ (s : State) (c : CoreRef),
    let k := s.core c
    s.coreOk c = true → s.clocked c = true →
    (∀ n rest d, k.nq = n :: rest → s.dieOf c = some d →
      ((s.die d).net ≠ .reset → n.sent = false → k.headReady n = true →
        (n.op = .send ∨ n.op = .sendm → k.opens 6 n.local_.toNat n.length = true) →
        exec (.niInject c) s = .next (niInjectHead c n rest s k)) ∧
      ((s.die d).net ≠ .reset → n.sent = false → n.op = .aadd → (s.router c).wait = [] →
        ((s.router c).buf 4 (routeVc 5 n.route).toNat).length + 2 ≤ vcSpace (routeVc 5 n.route).toNat false →
        ∃ t p, exec (.niInject c) s = .next t ∧ (n.flume = none → (t.core c).nq = rest) ∧ p.opcode = 5 ∧ p.dest = n.remote ∧ p.len = 4 ∧
          p.payload = bytesOf 4 n.addend.toNat ∧ p.srcX = c.x ∧ p.srcY = c.y ∧ p.flow = n.flow ∧
          p.vc = routeVc 5 n.route ∧
          (t.router c).buf 4 p.vc.toNat = (s.router c).buf 4 p.vc.toNat ++ pktAllFlits p ∧ t.mem = s.mem) ∧
      ((s.die d).net = .reset ∨ k.headReady n = false ∧ n.sent = false → exec (.niInject c) s = .next s)) ∧
    (k.nq = [] → exec (.niInject c) s = .next s) ∧
    (∀ e rest, k.cq = e :: rest →
      (k.opens 4 e.src.toNat e.length = true → k.opens 4 e.dst.toNat e.length = true →
        k.noUncorrectable e.src.toNat e.length →
        (∀ i ∈ partialWords e.dst.toNat e.length, k.noUncorrectable (8 * i) 8) →
        ∃ t, exec (.copyEngineMove c) s = .next t ∧ (t.core c).cq = rest ∧ (t.core c).g = k.g ∧
          t.mem = memWrite s.mem (spAddr c e.dst.toNat) (spBytes s.mem c k.stores e.src.toNat e.length) ∧
          (e.ce = true → (t.core c).counter e.ctr = (k.counter e.ctr).addBytes e.length) ∧
          (e.ce = false → (t.core c).ccnt = k.ccnt)) ∧
      (k.opens 4 e.src.toNat e.length = true → k.opens 4 e.dst.toNat e.length = true →
        ¬ k.noUncorrectable e.src.toNat e.length →
        ∃ t, exec (.copyEngineMove c) s = .next t ∧ (t.core c).mode = .faulted ∧ t.mem = s.mem)) ∧
    (k.cq = [] → exec (.copyEngineMove c) s = .next s)

/-- R59, R60, R114, R163, R164: CARM adds to TOTAL and arms; a counter that a declared flow has armed is overrun, and so is
one whose COUNT is then above TOTAL; a TOTAL above 2^24 - 1 takes the descriptor trap. WAITC of a counter that has fired
sets COUNT := COUNT - TOTAL, TOTAL := 0, ARMED := 0 and goes on, at issue or once it has fired; otherwise the core waits.
Completes: CARM, WAITC, WAITC_COMPLETE. -/
def Obligations.CompletionCounters : Prop :=
  ∀ (s : State) (c : CoreRef) (f : FmtN),
    let k := s.core c
    let t := k.counter f.ctr
    let n := (k.getG f.gs).toNat % 2 ^ 24
    let fired : Bool := t.armed && !t.overrun && decide (t.count = t.total) && decide (t.holds = 0)
    let used : Counter := { t with count := t.count - t.total, total := 0, armed := false, decl := none }
    (s.ready c →
      (f.zero = 0 → t.decl = none → t.total.toNat + n < 2 ^ 24 → t.count.toNat ≤ t.total.toNat + n →
        ∃ u, exec (.carm c f) s = .next u ∧ (u.core c).pc = k.pc + 4 ∧ (u.core c).g = k.g ∧
          (u.core c).counter f.ctr = { t with total := BitVec.ofNat 24 (t.total.toNat + n), armed := true } ∧
          u.mem = s.mem) ∧
      (f.zero = 0 → t.total.toNat + n < 2 ^ 24 → (t.decl ≠ none ∨ t.total.toNat + n < t.count.toNat) →
        ∃ u, exec (.carm c f) s = .next u ∧ (u.core c).pc = k.pc + 4 ∧ (u.core c).g = k.g ∧
          ((u.core c).counter f.ctr).overrun = true ∧ u.mem = s.mem) ∧
      (f.zero = 0 → 2 ^ 24 ≤ t.total.toNat + n → exec (.carm c f) s = .next (s.trap c 0x08 (wordN 0x31 f))) ∧
      (f.zero = 0 → fired = true →
        exec (.waitc c f) s = .next (s.after c (k.setCounter f.ctr used) (k.pc + 4))) ∧
      (f.zero = 0 → fired = false →
        exec (.waitc c f) s = .next (s.setCore c { k with mode := .wait, wait := .counter f.ctr })) ∧
      (f.zero ≠ 0 → exec (.carm c f) s = .next (s.trap c 0x01 (wordN 0x31 f)) ∧
        exec (.waitc c f) s = .next (s.trap c 0x01 (wordN 0x32 f)))) ∧
    (s.coreOk c = true → s.clocked c = true → k.mode = .wait → k.wait = .counter f.ctr → fired = true →
      ∃ u, exec (.waitcComplete c) s = .next u ∧ (u.core c).mode = .run ∧ (u.core c).pc = k.pc + 4 ∧
        (u.core c).counter f.ctr = used ∧ (u.core c).g = k.g ∧ u.mem = s.mem) ∧
    (s.coreOk c = true → (k.mode ≠ .wait ∨ (∀ m, k.wait ≠ .counter m) ∨ k.wait = .counter f.ctr ∧ fired = false) →
      exec (.waitcComplete c) s = .next s)

/-- R45, R61: the table of FLAG, WAITF and BARRIER on a bound channel, the trap of an unbound one, and the illegal forms: a
nonzero register field or an immediate that names no channel. Completes: FLAG, WAITF, BARRIER. -/
def Obligations.SyncChannelInstructions : Prop :=
  ∀ (s : State) (c : CoreRef) (ch : BitVec 4), s.ready c →
    let k := s.core c
    let h := k.chan ch
    let f : FmtS := ⟨0, 0, ch.setWidth 16⟩
    let order (i : Instr) : Prop := exec i s = .next (s.trap c 0x07 (ch.setWidth 32))
    (h.bound = true → h.arrived = false → h.released = false →
      (∃ t, exec (.flag c f) s = .next t ∧ (t.core c).chan ch = { h with arrived := true } ∧
        (t.core c).pc = k.pc + 4 ∧ (t.core c).mode ≠ .wait ∧
        ∀ d, s.dieOf c = some d → c ∈ tget [] (t.die d).arrivedMembers h.group.toNat) ∧
      order (.waitf c f) ∧
      (∃ t, exec (.barrier c f) s = .next t ∧ (t.core c).chan ch = { h with arrived := true } ∧
        (t.core c).mode = .wait ∧ (t.core c).wait = .sync ch ∧ (t.core c).pc = k.pc ∧
        ∀ d, s.dieOf c = some d → c ∈ tget [] (t.die d).arrivedMembers h.group.toNat)) ∧
    (h.bound = true → h.arrived = true → h.released = false → order (.flag c f) ∧ order (.barrier c f) ∧
      exec (.waitf c f) s = .next (s.setCore c { k with mode := .wait, wait := .sync ch })) ∧
    (h.bound = true → h.released = true → order (.flag c f) ∧ order (.barrier c f) ∧
      exec (.waitf c f) s = .next (s.after c (k.setChan ch { h with released := false }) (k.pc + 4))) ∧
    (h.bound = false → ∀ i ∈ [Instr.flag c f, .waitf c f, .barrier c f],
      exec i s = .next (s.trap c 0x06 (ch.setWidth 32))) ∧
    (∀ e : FmtS, (e.rs ≠ 0 ∨ e.zero ≠ 0 ∨ 16 ≤ e.imm.toNat) →
      exec (.flag c e) s = .next (s.trap c 0x01 (wordS 0x34 e)) ∧
      exec (.waitf c e) s = .next (s.trap c 0x01 (wordS 0x35 e)) ∧
      exec (.barrier c e) s = .next (s.trap c 0x01 (wordS 0x33 e)))

/-- R5, R64, R65, R66, R67, R70, R72: NOTICE keeps the last announcement and nothing else, and is illegal with a nonzero
register field or a lead of 0. A CSR instruction with a legal form and a register that it may name puts the register's old
value into g[rd], and CSRW, CSRS and CSRC change what can be written: CORE_FPMODE takes the new bits, CORE_FPFLAGS clears
the flags written as one, a scratch register of the runtime takes the new word, and every other register stays. CSRR of
CORE_CYCLE puts one 64-bit sample into the register pair. Completes: NOTICE, CSRR, CSRW, CSRS, CSRC. -/
def Obligations.NoticeAndCsrInstructions : Prop :=
  ∀ (s : State) (c : CoreRef) (rd rs : BitVec 5), s.ready c →
    let k := s.core c
    let v := k.getG rs
    let mode : Word := (0#30 ++ BitVec.ofBool k.sat ++ BitVec.ofBool k.subn)
    let at_ (i : BitVec 11) : FmtI := ⟨rd, rs, i.setWidth 16⟩
    let done (i : Instr) (k' : Core) : Prop := exec i s = .next (s.after c k' (k.pc + 4))
    (∀ (lead : BitVec 8) (units level : BitVec 4), lead ≠ 0 →
      done (.notice c ⟨0, 0, lead ++ units ++ level⟩) { k with notice := some ⟨lead, units, level⟩ }) ∧
    (∀ units level : BitVec 4, exec (.notice c ⟨0, 0, 0#8 ++ units ++ level⟩) s =
      .next (s.trap c 0x01 (wordI 0x36 ⟨0, 0, 0#8 ++ units ++ level⟩))) ∧
    done (.csrr c ⟨rd, 0, 0x008⟩) (k.setG rd mode) ∧
    done (.csrw c (at_ 0x008)) ({ k with subn := v.getLsbD 0, sat := v.getLsbD 1 }.setG rd mode) ∧
    done (.csrs c (at_ 0x008))
      ({ k with subn := k.subn || v.getLsbD 0, sat := k.sat || v.getLsbD 1 }.setG rd mode) ∧
    done (.csrc c (at_ 0x008))
      ({ k with subn := k.subn && !v.getLsbD 0, sat := k.sat && !v.getLsbD 1 }.setG rd mode) ∧
    done (.csrw c (at_ 0x009)) ({ k with fpflags := k.fpflags &&& ~~~(v.setWidth 6) }.setG rd (k.fpflags.setWidth 32)) ∧
    (∀ i ∈ [Instr.csrw c (at_ 0x000), .csrs c (at_ 0x000), .csrc c (at_ 0x000), .csrr c ⟨rd, 0, 0x000⟩],
      done i (k.setG rd (c.x.setWidth 32 ||| c.y.setWidth 32 <<< 16))) ∧
    (∀ f : FmtI, (f.rd ≠ 0 ∨ f.rs1 ≠ 0) → exec (.notice c f) s = .next (s.trap c 0x01 (wordI 0x36 f))) ∧
    (∀ (f : FmtI) (op : CsrOp) (i : Instr),
      (op, i) ∈ [(CsrOp.read, Instr.csrr c f), (.write, .csrw c f), (.set, .csrs c f), (.clear, .csrc c f)] →
      let n := f.imm.toNat % 2 ^ 11
      csrIllegal op f = false → (csrRuntimeOnly n = true → k.mode = .runtime) → n ≠ 4 →
      ∃ old, s.csr c k.issued k.cycle n = some old ∧
        done i ((k.csrWrite op n old (k.getG f.rs1)).setG f.rd old)) ∧
    (rd ≠ 0 → rd.getLsbD 0 = false → ∃ t sample, exec (.csrr c ⟨rd, 0, 0x004⟩) s = .next t ∧
      (t.core c).getG rd = sample.extractLsb' 0 32 ∧ (t.core c).getG (rd + 1) = sample.extractLsb' 32 32 ∧
      (t.core c).cycle = (sample : BitVec 64) + 1 ∧ (t.core c).pc = k.pc + 4 ∧
      (∀ r, r ≠ rd → r ≠ rd + 1 → (t.core c).getG r = k.getG r) ∧ t.mem = s.mem)

/-- R65, R66, R67: the CSR forms that are illegal (a nonzero imm16 bit above the index, an index outside the map or 0x005,
CSRR with rs1, CSRS or CSRC of CORE_FPFLAGS, CORE_CYCLE with rd odd or zero), and the CSR-access trap of a runtime-only
index outside the runtime state. -/
def Obligations.CsrTraps : Prop :=
  ∀ (s : State) (c : CoreRef) (f : FmtI), s.ready c →
    let k := s.core c
    let i := f.imm.toNat
    let listed : Prop := i ≤ 4 ∨ i = 8 ∨ i = 9 ∨ i = 0xC ∨ (0x10 ≤ i ∧ i ≤ 0x16) ∨ (0x20 ≤ i ∧ i ≤ 0x2F) ∨
      (0x40 ≤ i ∧ i ≤ 0xBF)
    let illegal (j : Instr) (op : Nat) : Prop := exec j s = .next (s.trap c 0x01 (wordI op f))
    let access (j : Instr) (op : Nat) : Prop := exec j s = .next (s.trap c 0x05 (wordI op f))
    (¬ listed → illegal (.csrr c f) 0x38 ∧ illegal (.csrw c f) 0x39 ∧ illegal (.csrs c f) 0x3A ∧
      illegal (.csrc c f) 0x3B) ∧
    (f.rs1 ≠ 0 → illegal (.csrr c f) 0x38) ∧
    (i = 9 → illegal (.csrs c f) 0x3A ∧ illegal (.csrc c f) 0x3B) ∧
    (i = 4 → (f.rd = 0 ∨ f.rd.getLsbD 0 = true) → illegal (.csrr c f) 0x38) ∧
    (0x10 ≤ i → i ≤ 0x16 → k.mode ≠ .runtime → f.rs1 = 0 → access (.csrr c f) 0x38 ∧ access (.csrw c f) 0x39 ∧
      access (.csrs c f) 0x3A ∧ access (.csrc c f) 0x3B)

/-- R73, R74, R76, R301: HALT stops issue with its code; a core that has halted and whose queues are empty is halted with CODE
and VALID, or, in its runtime, trapped. TRAP LOG hands g1-g4 to the first LOG_WAIT of its partition, or else to the
partition's log while that has fewer than 1,024 records, and the core goes on behind the instruction, as it does without a
partition; with the log full it stays in its runtime. TRAP CHECKPOINT waits in the runtime at PC + 4, TRAP ABORT leaves
the core trapped with its code and reports it; the other codes are illegal, and so is a nonzero register field. RTE goes
on at the PC that the runtime set up; it is illegal outside the runtime state and with a nonzero field. Completes: TRAP,
HALT, HALT_COMPLETE, RTE. -/
def Obligations.SystemInstructions : Prop :=
  ∀ (s : State) (c : CoreRef) (code : BitVec 16),
    let k := s.core c
    let f : FmtS := ⟨0, 0, code⟩
    let home := s.partOfDie (c.y.toNat / 32) (c.x.toNat / 32)
    let log := [k.getG 1, k.getG 2, k.getG 3, k.getG 4]
    let goesOn (t : State) : Prop := (t.core c).mode = .run ∧ (t.core c).pc = k.pc + 4 ∧ (t.core c).trapCause = 0x10 ∧
      (t.core c).trapPc = k.pc.setWidth 32 ∧ (t.core c).trapVal = 1 ∧ (t.core c).g = k.g ∧ t.mem = s.mem
    (s.ready c →
      exec (.halt c f) s = .next (s.after c { k with halting := some code } k.pc) ∧
      (code = 1 → home = none → ∃ t, exec (.trap c f) s = .next t ∧ goesOn t) ∧
      (code = 1 → ∀ n, home = some n → s.waiters.find? (isLogWait n) = none → (s.part n).logs.length < 1024 →
        ∃ t, exec (.trap c f) s = .next t ∧ goesOn t ∧
          (t.part n).logs = (s.part n).logs ++ [(c.x.setWidth 16, c.y.setWidth 16, log)]) ∧
      (code = 1 → ∀ n w, home = some n → s.waiters.find? (isLogWait n) = some w →
        ∃ t, exec (.trap c f) s = .next t ∧ goesOn t ∧ t.waiters = eraseOne w s.waiters ∧ t.parts = s.parts) ∧
      (code = 1 → ∀ n, home = some n → s.waiters.find? (isLogWait n) = none → 1024 ≤ (s.part n).logs.length →
        ∃ t, exec (.trap c f) s = .next t ∧ (t.core c).mode = .runtime ∧ (t.core c).service = .log log ∧
          (t.core c).rtPc = k.pc + 4 ∧ t.parts = s.parts) ∧
      (code = 2 → ∃ t, exec (.trap c f) s = .next t ∧ (t.core c).mode = .runtime ∧ (t.core c).rtPc = k.pc + 4 ∧
        (t.core c).service = .hook (k.getG 1) ∧ (t.core c).trapCause = 0x10 ∧
        (t.core c).trapPc = k.pc.setWidth 32 ∧ (t.core c).trapVal = 2) ∧
      (0x8000 ≤ code.toNat → ∃ t r, exec (.trap c f) s = .next t ∧ (t.core c).mode = .trapped ∧
        (t.core c).trapCause = 0x10 ∧ (t.core c).trapPc = k.pc.setWidth 32 ∧ (t.core c).trapVal = code.setWidth 32 ∧
        t.reports = s.reports ++ [r] ∧ r.status = 0x0314 ∧ r.code = code) ∧
      ((code = 0 ∨ 3 ≤ code.toNat ∧ code.toNat < 0x8000) →
        exec (.trap c f) s = .next (s.trap c 0x01 (wordS 0x3C f))) ∧
      (k.mode = .runtime → exec (.rte c ⟨0, 0, 0⟩) s =
        .next (s.after c { k with mode := .run, service := .none } k.rtPc)) ∧
      (k.mode ≠ .runtime → exec (.rte c ⟨0, 0, 0⟩) s = .next (s.trap c 0x01 (wordS 0x3E ⟨0, 0, 0⟩))) ∧
      (∀ e : FmtS, e.rs ≠ 0 ∨ e.zero ≠ 0 →
        exec (.trap c e) s = .next (s.trap c 0x01 (wordS 0x3C e)) ∧
        exec (.halt c e) s = .next (s.trap c 0x01 (wordS 0x3D e)) ∧
        exec (.rte c e) s = .next (s.trap c 0x01 (wordS 0x3E e))) ∧
      (code ≠ 0 → exec (.rte c f) s = .next (s.trap c 0x01 (wordS 0x3E f)))) ∧
    (s.coreOk c = true → s.clocked c = true → k.halting = some code →
      (k.tq = [] → k.nq = [] → k.cq = [] → k.reads = 0 →
        (k.mode = .run → exec (.haltComplete c) s =
          .next (s.setCore c { k with mode := .halted, halting := none, exitCode := code, exitValid := true })) ∧
        (k.mode = .runtime → exec (.haltComplete c) s = .next (s.setCore c { k with mode := .trapped, halting := none }))) ∧
      (k.tq ≠ [] ∨ k.nq ≠ [] ∨ k.cq ≠ [] ∨ k.reads ≠ 0 → exec (.haltComplete c) s = .next s))

/-- R75, R76, R77: what a trap leaves: cause, PC and value in the trap CSRs and in the trap record, the core trapped with its
PC at the trapping instruction, its registers, counters and queues as they were, and a report that ends the job with
status 0x0310; no other core and no byte of memory changes. -/
def Obligations.TrapEntry : Prop :=
  ∀ (s : State) (c : CoreRef) (cause : BitVec 6) (val : Word),
    let k := s.core c
    let t := s.trap c cause val
    let k' := t.core c
    k'.trapCause = cause ∧ k'.trapPc = k.pc.setWidth 32 ∧ k'.trapVal = val ∧ k'.mode = .trapped ∧ k'.pc = k.pc ∧
    k'.g = k.g ∧ k'.d = k.d ∧ k'.v = k.v ∧ k'.ccnt = k.ccnt ∧ k'.tq = k.tq ∧ k'.nq = k.nq ∧ k'.cq = k.cq ∧
    k'.exitCode = k.exitCode ∧ k'.exitValid = k.exitValid ∧ t.mem = s.mem ∧ t.faults = s.faults ∧
    (∀ e, e ≠ c → t.core e = s.core e) ∧
    ∃ r, t.reports = s.reports ++ [r] ∧ r.source = 0x0104 ∧ r.status = 0x0310 ∧ r.x = c.x.setWidth 16 ∧
      r.y = c.y.setWidth 16 ∧ r.code = cause.setWidth 16 ∧ r.trapPc = k.pc.setWidth 32 ∧ r.trapVal = val

/-- R42, R43, R47, R78, R81, R428: a word with a reserved opcode takes the illegal-instruction trap; a fetch that misses, its
bank open and its line without an uncorrectable word, puts the line into the buffer; a failed check of the core faults it,
with its DETAIL; a debug stop that was ordered is taken, the wait that had begun still standing, and reported to the die
agent, and without one nothing changes. Behind the last word of the scratchpad a core goes on at offset 0 (the model's
choice, log entry 12). Completes: ILLEGAL_INSTRUCTION, IBUF_FILL, CORE_HW_FAULT, DEBUG_STOP_TAKEN. -/
def Obligations.CoreEvents : Prop :=
  ∀ (s : State) (c : CoreRef) (word : Word),
    let k := s.core c
    let op := (word.extractLsb' 26 6).toNat
    let line := k.pc.toNat / 64
    (s.ready c → op ∈ [0x00, 0x0A, 0x0B, 0x0C, 0x0D, 0x0E, 0x0F, 0x23, 0x37, 0x3F] →
      exec (.illegalInstruction c word) s = .next (s.trap c 0x01 word)) ∧
    (s.ready c → k.pc = 0x7FFFC →
      (∀ f, exec (.addi c f) s = .next (s.after c (k.setG f.rd (k.getG f.rs1 + f.imm.signExtend 32)) 0)) ∧
      (∀ f : FmtB, k.getG f.r ≠ 0 → exec (.beqz c f) s = .next (s.after c k 0))) ∧
    (s.coreOk c = true →
      (s.clocked c = true → k.mode = .run → k.ibuf.contains (BitVec.ofNat 13 line) = false → k.bankOn (64 * line) = true →
        k.opens 0 (64 * line) 64 = true → (∀ e ∈ k.ecc, e.2.correctable = true) →
        ∃ t, exec (.ibufFill c) s = .next t ∧ BitVec.ofNat 13 line ∈ (t.core c).ibuf ∧
          (t.core c).pc = k.pc ∧ (t.core c).g = k.g ∧ t.mem = s.mem) ∧
      (k.mode ≠ .run ∨ k.ibuf.contains (BitVec.ofNat 13 line) = true → exec (.ibufFill c) s = .next s) ∧
      (∀ source detail, source = 0x0101 ∨ source = 0x0102 →
        ∃ t r, exec (.coreHwFault c source detail) s = .next t ∧ (t.core c).mode = .faulted ∧ (t.core c).tq = [] ∧
          (t.core c).nq = [] ∧ (t.core c).cq = [] ∧ (t.core c).g = k.g ∧ (t.core c).trapCause = k.trapCause ∧
          t.reports = s.reports ++ [r] ∧ r.source = source ∧ r.detail = detail.take 24) ∧
      (k.debugStop = true → k.halting = none → (k.mode = .run ∨ k.mode = .wait) →
        ∃ t, exec (.debugStopTaken c word) s = .next t ∧ (t.core c).mode = .runtime ∧ (t.core c).trapCause = 0x11 ∧
          (t.core c).trapPc = k.pc.setWidth 32 ∧ (t.core c).trapVal = word ∧ (t.core c).rtPc = k.pc ∧
          (t.core c).wait = k.wait ∧ (t.core c).debugStop = false ∧ (t.core c).g = k.g ∧
          ∀ d, s.dieOf c = some d → (t.die d).stopReports = (s.die d).stopReports ++ [c]) ∧
      (k.debugStop = false → exec (.debugStopTaken c word) s = .next s))

/-- R127, R128, R130, R131, R132, R137, R138, R139, R141, R162, R163: what the banks do on their own. A pending ingress write,
or the oldest deferred write, goes into its row: the bytes stand there (the sum, for an ATOMIC_ADD), the bank no longer
holds it, and its counter counts them, after a declared flow has met it; over a part of an uncorrectable word it changes
no byte and faults the core. A correction write-back changes no byte, and the stored error is gone. The scrubber moves to
the next row of a powered bank that is open to it, and with it come the reports of what it finds; forced, it stands at
rank 3; a request that has waited 64 cycles is queued as aged, behind the others. A bank that has been zeroised holds
zeros, is powered, and no byte outside the scratchpad changes, unless it is the last that its job's load waits for
(JobsLoadAndStart). Completes: INGRESS_DUE, DEFERRED_WRITE, CORRECTION_WRITEBACK, SCRUB_READ, SCRUB_FORCE,
BANK_REQUEST_AGED, BANK_ZEROISE_DONE. -/
def Obligations.ScratchpadBankEvents : Prop :=
  ∀ (s : State) (c : CoreRef) (n : BitVec 4),
    let k := s.core c
    let b := k.bank n.toNat
    let whole (off len : Nat) : Prop := ∀ i ∈ partialWords off len, k.noUncorrectable (8 * i) 8
    let writes (i : Instr) (w : RowWrite) (left : Bank → Prop) : Prop :=
      let bs := w.stored c s.mem
      (whole w.off.toNat bs.length →
        ∃ t, exec i s = .next t ∧ t.mem = memWrite s.mem (spAddr c w.off.toNat) bs ∧ left ((t.core c).bank n.toNat) ∧
          (t.core c).g = k.g ∧ (t.core c).pc = k.pc ∧
          (w.ctr = none → (t.core c).ccnt = k.ccnt) ∧
          (∀ m, w.ctr = some m → w.decl = none →
            (t.core c).counter m = (k.counter m).addBytes w.bytes.length) ∧
          (∀ m d total, w.ctr = some m → w.decl = some (d, total) →
            (t.core c).counter m = match (k.counter m).declare d total with
              | some u => u.compare.addBytes w.bytes.length
              | none => { k.counter m with overrun := true })) ∧
      (¬ whole w.off.toNat bs.length → bs ≠ [] →
        ∃ t, exec i s = .next t ∧ (t.core c).mode = .faulted ∧ t.mem = s.mem)
    s.coreOk c = true →
    (∀ w, b.ingress = some w → writes (.ingressDue c n) w fun b' => b'.ingress = none) ∧
    (b.ingress = none → exec (.ingressDue c n) s = .next s) ∧
    (∀ w rest, b.deferred = w :: rest → writes (.deferredWrite c n) w fun b' => b'.deferred = rest) ∧
    (b.deferred = [] → exec (.deferredWrite c n) s = .next s) ∧
    (∀ o rest, b.corrections = o :: rest → b.deferred = [] → whole o.toNat 8 →
      ∃ t, exec (.correctionWriteback c n) s = .next t ∧ (∀ a, memGet t.mem a = memGet s.mem a) ∧
        o ∉ ((t.core c).bank n.toNat).corrections ∧
        (k.inject = none → tget {} (t.core c).ecc (o.toNat / 8) = {}) ∧ (t.core c).g = k.g) ∧
    (b.corrections = [] ∨ b.deferred ≠ [] → exec (.correctionWriteback c n) s = .next s) ∧
    (k.powered.getLsbD n.toNat = true → k.zeroising.getLsbD n.toNat = false →
      (b.deferred = [] → (b.forced = true ∨ b.opens 7 = true) → ∃ t, exec (.scrubRead c n) s = .next t ∧
        ((t.core c).bank n.toNat).scrubRow = b.scrubRow + 1 ∧ ((t.core c).bank n.toNat).forced = false ∧
        t.mem = s.mem ∧ (t.core c).g = k.g ∧
        (¬ k.noUncorrectable (64 * (16 * b.scrubRow.toNat + n.toNat)) 64 → (t.core c).mode = .faulted) ∧
        (k.noUncorrectable (64 * (16 * b.scrubRow.toNat + n.toNat)) 64 → (t.core c).mode = k.mode)) ∧
      (exec (.scrubForce c n) s = .next (s.setCore c (k.setBank n.toNat { b with forced := true }))) ∧
      (∀ port : BitVec 3, k.wantsBank n.toNat port.toNat = true → port ∉ b.aged →
        exec (.bankRequestAged c n port) s =
          .next (s.setCore c (k.setBank n.toNat { b with aged := b.aged ++ [port] })))) ∧
    (k.zeroising.getLsbD n.toNat = true →
      ∃ t, exec (.bankZeroiseDone c n) s = .next t ∧
        ((∀ m, s.partOfDie (c.y.toNat / 32) (c.x.toNat / 32) = some m → (s.part m).state ≠ .loading ∨
            ∃ e ∈ s.placedCores m, e ≠ c ∧ (s.core e).zeroising ≠ 0) →
          (t.core c).powered.getLsbD n.toNat = true ∧
          (∀ off, off < 2 ^ 19 → off / 64 % 16 = n.toNat → memGet t.mem (spAddr c off) = 0) ∧
          (∀ a, (a < spAddr c 0 ∨ spAddr c 0 + 2 ^ 19 ≤ a) → memGet t.mem a = memGet s.mem a))) ∧
    (k.zeroising.getLsbD n.toNat = false → exec (.bankZeroiseDone c n) s = .next s)

/-! ### Packets -/

/-- R130, R131, R157, R158, R160, R162, R163, R195: an arriving packet that passes the checks, at banks with no write pending,
open to the ingress port and without an uncorrectable word: its bytes stand from its offset on, an ATOMIC_ADD's sum over
its word, nothing else of memory changes. Its counter counts its bytes, unless they pass TOTAL or overflow; a declared
flow arms a counter that is free, and is in conflict with one that is armed, which is overrun and counts nothing. With
NOTIFY it is acknowledged with status 0. A row that is not granted waits at its bank, and one beside a read of its row is
deferred, no byte changed; a flit with bad parity cuts the bytes there, which are then not acknowledged, and is reported
as 0x0201. Completes: WRITE, WRITE_NOTIFY, READ_RESP, ATOMIC_ADD, ROWCAST, COLCAST. -/
def Obligations.ArrivingPacketsWrite : Prop :=
  ∀ (s : State) (c : CoreRef) (p : Packet),
    let k := s.core c
    let off := p.dest.toNat % 2 ^ 19
    let n := p.payload.length
    let old := k.counter p.ctr
    let lands (i : Instr) (bs : List Byte) (fewer : Nat) : Prop :=
      let count : BitVec 24 := BitVec.ofNat 24 (old.count.toNat + bs.length)
      ∃ t, exec i s = .next t ∧ t.mem = memWrite s.mem (spAddr c off) bs ∧ (t.core c).g = k.g ∧ (t.core c).pc = k.pc ∧
        (t.core c).mode = k.mode ∧ (t.core c).reads = k.reads - fewer ∧
        (∀ m, m ≠ p.ctr ∨ p.ctrEn = false → (t.core c).counter m = k.counter m) ∧
        (p.ctrEn = true → p.decl = false → old.count.toNat + bs.length < 2 ^ 24 →
          (old.armed = false ∨ old.count.toNat + bs.length ≤ old.total.toNat) →
          (t.core c).counter p.ctr = { old with count }) ∧
        (p.ctrEn = true → p.decl = true → old.decl = none → old.armed = false →
          old.count.toNat + bs.length ≤ p.flowTotal.toNat →
          (t.core c).counter p.ctr =
            { old with decl := some ⟨p.srcX, p.srcY, p.spanel, p.flow⟩, total := p.flowTotal, armed := true, count }) ∧
        (p.ctrEn = true → p.decl = true → old.decl = none → old.armed = true →
          (t.core c).counter p.ctr = { old with overrun := true }) ∧
        (p.notify = true → s.leaves { p with dpanel := p.spanel } = false → ∃ a ∈ t.acks, a.x = p.srcX ∧ a.y = p.srcY ∧
          a.slot = p.ackSlot ∧ a.status = 0 ∧ a.job = p.job ∧ a.part = p.part)
    s.coreOk c = true → k.overtakes p = false → s.ejectCheck c k p = .perform → 0 < n → off + n ≤ 2 ^ 19 →
    (∀ m, m < 16 → (k.bank m).ingress = none) →
    ((∀ e ∈ k.ecc, e.2.correctable = true) → (∀ m, m < 16 → (k.bank m).opens 5 = true) →
      (destCore p = c → p.opcode ≠ 5 →
        lands (.write p [] none) p.payload 0 ∧ lands (.writeNotify p [] none) p.payload 0 ∧
        (p.status = 0 → lands (.readResp p [] none) p.payload n)) ∧
      (destCore p = c → p.opcode = 5 → off % 4 = 0 → 4 ≤ n →
        lands (.atomicAdd p [] none) (bytesOf 4 (natOf (memRead s.mem (spAddr c off) 4) + natOf (p.payload.take 4))) 0) ∧
      (p.opcode ≠ 5 → lands (.rowcast c p [] none) p.payload 0 ∧ lands (.colcast c p [] none) p.payload 0) ∧
      (destCore p = c → p.opcode ≠ 5 → ∀ f : BitVec 6, 64 * f.toNat < n →
        ∀ i ∈ [Instr.write p [] (some f), .writeNotify p [] (some f), .rowcast c p [] (some f), .colcast c p [] (some f)],
          ∃ t r, exec i s = .next t ∧ t.mem = memWrite s.mem (spAddr c off) (p.payload.take (64 * f.toNat)) ∧
            t.acks = s.acks ∧ t.reports.getLast? = some r ∧ r.source = 0x0201 ∧ r.part = p.part.setWidth 8)) ∧
    (p.opcode ≠ 5 → off / 64 = (off + n - 1) / 64 →
      let place (i : Instr) (b : Bank → List RowWrite) : Prop := ∃ t w, exec i s = .next t ∧ t.mem = s.mem ∧
        b ((t.core c).bank (off / 64 % 16)) = [w] ∧ w.off.toNat = off ∧ w.bytes = p.payload ∧ t.acks = s.acks ∧
        (t.core c).ccnt = k.ccnt
      (destCore p = c → place (.write p [.lost] none) (fun b => b.ingress.toList) ∧
        place (.writeNotify p [.lost] none) (fun b => b.ingress.toList) ∧
        ((k.bank (off / 64 % 16)).deferred = [] → place (.write p [.sameRow] none) (fun b => b.deferred) ∧
          place (.writeNotify p [.sameRow] none) (fun b => b.deferred))) ∧
      place (.rowcast c p [.lost] none) (fun b => b.ingress.toList) ∧
      place (.colcast c p [.lost] none) (fun b => b.ingress.toList))

/-- R165, R166, R167, R180, R253: the checks of an arriving packet in their order, for every opcode, and the status with which
one that fails is sunk and answered, nothing written: a header that is bad, a die in reset, another job, a binding that
does not match, another partition, a retired core, a range that the packet may not reach, a bank that is powered down. A
packet that would overtake an earlier one of its order waits. -/
def Obligations.ArrivalChecksInOrder : Prop :=
  ∀ (s : State) (c : CoreRef) (d : Nat) (p : Packet) (g : List BankGrant) (b : Option (BitVec 6)) (bad : Bool) (i : Instr),
    let k := s.core c
    let die := s.die d
    let s0 := s.setCore c { k with arrived := eraseOne p k.arrived }
    let sunk (st : BitVec 8) : Prop :=
      exec i s = .next ((s0.onDie d fun e => { e with discarded := satInc e.discarded }).answerPacket c p st)
    (destCore p = c ∧ i ∈ [Instr.write p g b, .writeNotify p g b, .atomicAdd p g b, .readResp p g b, .completion p bad] ∨
      destCore p = c ∧ i = .readReq p bad ∧ k.requests.length ≠ 8 ∨ i ∈ [.rowcast c p g b, .colcast c p g b]) →
    s.coreOk c = true → s.dieOf c = some d →
    (k.overtakes p = true → exec i s = .next s) ∧
    (k.overtakes p = false →
      let foreign : Prop := p.offPanel = true ∧ p.dpanel = s.panel.panelId
      let headerOk : Prop := p.hcrc = pktCrc p ∧ 1 ≤ p.opcode.toNat ∧ p.opcode.toNat ≤ 9
      let up : Prop := die.net ≠ .reset ∧ k.testing = false
      let job : Prop := die.net = .running ∧ (foreign → (s.part die.part.toNat).bound.isSome = true) ∧
        (¬ foreign → die.assigned = true ∧ p.job = die.job)
      let mine : Prop := (foreign → s.bindOk die.part.toNat p = true) ∧ (¬ foreign → p.part = die.part)
      let live : Prop := s.coreRetired d (coreIndex c) = false
      (¬ headerOk → exec i s = .next (s0.headerBad c p (!p.laneBad.getLsbD 0) (!p.laneBad.getLsbD 3))) ∧
      (headerOk → ¬ up → sunk 0x02) ∧
      (headerOk → up → ¬ job → sunk 0x03) ∧
      (headerOk → up → job → foreign → s.bindOk die.part.toNat p = false → sunk 0x05) ∧
      (headerOk → up → job → ¬ foreign → p.part ≠ die.part →
        ∃ t r, exec i s = .next t ∧ t.reports = s.reports ++ [r] ∧ r.source = 0x0206 ∧
          r.part2 = p.part.setWidth 8 ∧ t.mem = s.mem) ∧
      (headerOk → up → job → mine → ¬ live → sunk 0x04) ∧
      (headerOk → up → job → mine → live →
        (decodeAddr p.dest.toNat = .bad → sunk 0x01) ∧ (∀ a, decodeAddr p.dest.toNat = .hbm a → sunk 0x01)) ∧
      (headerOk → up → job → mine → live → p.opcode ≠ 9 → ∀ x y off, decodeAddr p.dest.toNat = .sp x y off →
        (2 ^ 19 < off + p.len.toNat → sunk 0x01) ∧
        (off + p.len.toNat ≤ 2 ^ 19 → k.rangeOn off p.len.toNat = false →
          exec i s =
            .next (((s0.onDie d fun e => { e with discarded := satInc e.discarded }).report
              (s0.endReport c 0x0107 0x0313 0)).answerPacket c p 0x01))))

/-- R73, R138, R159, R161, R168, R170, R228: a READ_REQ takes one of the 8 entries, or waits; one that is served from powered
banks that stand open, without an uncorrectable word, sends the bytes back, and one to the registers of a core their
bytes. A COMPLETION counts the bytes that it brings, and its last one counts for its copy, whose credit returns with the
last of them; one with bad parity counts nothing and is reported. A nonzero status for the running job is reported as
0x0106, any other answer is sunk. Completes: READ_REQ, READ_REQ_SERVE, COMPLETION, STATUS_ANSWER. -/
def Obligations.ReadsAndCompletions : Prop :=
  ∀ (s : State) (c : CoreRef) (p : Packet),
    let k := s.core c
    let queue (r : Router) (vc : Nat) : List Flit := r.buf 4 vc ++ tget [] r.wait (16 + vc)
    s.coreOk c = true →
    (destCore p = c → k.overtakes p = false → s.ejectCheck c k p = .perform → k.requests.length < 8 →
      (∃ t, exec (.readReq p false) s = .next t ∧ (t.core c).requests = k.requests ++ [p] ∧ t.mem = s.mem ∧
        (t.core c).g = k.g) ∧
      (∃ t r, exec (.readReq p true) s = .next t ∧ t.reports = s.reports ++ [r] ∧ r.source = 0x0201)) ∧
    (destCore p = c → k.requests.length = 8 → ∀ b, exec (.readReq p b) s = .next s) ∧
    (∀ d rest, s.dieOf c = some d → k.requests = p :: rest →
      ((s.die d).net = .reset → exec (.readReqServe c) s = .next s) ∧
      ((s.die d).net ≠ .reset → ∀ x y off, decodeAddr p.dest.toNat = .sp x y off → k.rangeOn off p.len.toNat = true →
        (k.opens 6 off p.len.toNat = false → exec (.readReqServe c) s = .next s) ∧
        (k.opens 6 off p.len.toNat = true → k.noUncorrectable off p.len.toNat →
          ∃ t q, exec (.readReqServe c) s = .next t ∧ (t.core c).requests = rest ∧ t.mem = s.mem ∧
            q = readResponse p (memRead s.mem (spAddr c off) p.len.toNat) ∧ q.opcode = 4 ∧
            queue (t.router c) q.vc.toNat = queue (s.router c) q.vc.toNat ++ pktAllFlits q) ∧
        (k.opens 6 off p.len.toNat = true → ¬ k.noUncorrectable off p.len.toNat →
          ∃ t, exec (.readReqServe c) s = .next t ∧ (t.core c).mode = .faulted ∧ t.routers = s.routers)) ∧
      ((s.die d).net ≠ .reset → ∀ w row col off kind, decodeAddr p.dest.toNat = .reg w row col off kind →
        ∃ t bs, exec (.readReqServe c) s = .next t ∧ (t.core c).requests = rest ∧ t.mem = s.mem ∧
          bs.length = p.len.toNat ∧
          let q := readResponse p bs
          queue (t.router c) q.vc.toNat = queue (s.router c) q.vc.toNat ++ pktAllFlits q)) ∧
    (k.requests = [] → exec (.readReqServe c) s = .next s) ∧
    (destCore p = c → k.overtakes p = false → s.ejectCheck c k p = .perform →
      (p.status = 0 →
        ∃ t, exec (.completion p false) s = .next t ∧ t.mem = s.mem ∧ (t.core c).g = k.g ∧
          (p.ctrEn = true → (t.core c).counter p.ctr = (k.counter p.ctr).addBytes (natOf (p.payload.take 4))) ∧
          (p.ctrEn = false → (t.core c).ccnt = k.ccnt) ∧
          (p.last = false → (t.core c).copies = k.copies) ∧
          (∀ m, k.copies = [(p.flow, [m])] → p.last = true → (t.core c).copies = []) ∧
          (∀ m ms, k.copies = [(p.flow, m :: ms)] → ms ≠ [] → p.last = true → (t.core c).copies = [(p.flow, ms)])) ∧
      (p.status ≠ 0 → ∃ u, exec (.completion p false) s = .next u ∧ (u.core c).ccnt = k.ccnt) ∧
      (∃ t r, exec (.completion p true) s = .next t ∧ t.reports = s.reports ++ [r] ∧ r.source = 0x0201 ∧
        (t.core c).ccnt = k.ccnt)) ∧
    (∀ d st job, s.dieOf c = some d →
      (st ≠ 0 → (s.die d).net = .running → (s.die d).job = job →
        ∃ t r, exec (.statusAnswer c st job) s = .next t ∧ t.reports = s.reports ++ [r] ∧ r.source = 0x0106 ∧
          r.status = 0x0312 ∧ r.code = st.setWidth 16 ∧ t.cores = s.cores) ∧
      (st = 0 ∨ (s.die d).job ≠ job ∨ (s.die d).net ≠ .running → exec (.statusAnswer c st job) s = .next s))

/-! ### Routers and flumes -/

/-- R151, R152, R169, R170, R176, R186, R194: one cycle of an output. A packet's flit that wins it leaves its buffer: a mesh
output puts it at the end of the neighbour's buffer, its last flit at the local output puts the packet into the core's
ejection buffer, and at a turnout both; a head at a failed edge is sunk and answered; a flume's flit goes to its next
place; with no winner only the shares of the flumes grow. A head whose check failed is sunk and reported; a corrected
control flit is reported as 0x0207, a dropped control packet is lost. Also: a packet that escapes goes on on channel 0
from here and counts; the head of a channel 1 packet ages; a failed edge CRC with fewer than four attempts is a replay,
counted and reported, with four the edge fails; a turnout copies in the cycle of the output that its flit wins. Completes:
ROUTER_FLIT_FORWARD, VC_ESCAPE, VC1_AGED, EDGE_CRC_FAIL, TURNOUT_COPY. -/
def Obligations.RouterForwards : Prop :=
  (∀ (s : State) (c : CoreRef) (out : BitVec 3),
     let o := out.toNat
     let r := (s.router c).earn o
     let queue (r : Router) (inp vc : Nat) : List Flit := r.buf inp vc ++ tget [] r.wait (4 * inp + vc)
     s.coreOk c = true →
     (s.winner c r o = none → exec (.routerFlitForward c out .good) s = .next (s.setRouter c (r.sent3 o false))) ∧
     (∀ (w : Cand) (f : Flit) (rest : List Flit), s.winner c r o = some w → w.vc ≠ 2 → r.buf w.inp w.vc = f :: rest →
       let h := s.flitHop c r w.inp w.vc f
       (f.idx ≠ 0 ∨ h.1.sinks = false →
         ∃ t, exec (.routerFlitForward c out .good) s = .next t ∧ t.mem = s.mem ∧
           (o = 4 → queue (t.router c) w.inp w.vc = rest ++ tget [] r.wait (4 * w.inp + w.vc)) ∧
           (o = 4 → pktFlits f.p ≤ f.idx →
             ∃ p, (t.core c).arrived = (s.core c).arrived ++ [p] ∧ samePacket p f.p = true) ∧
           (o = 4 → f.idx < pktFlits f.p → (t.core c).arrived = (s.core c).arrived) ∧
           (∀ x y, s.beside c o = some (x, y) → o < 4 →
             queue (t.router c) w.inp w.vc = rest ++ tget [] r.wait (4 * w.inp + w.vc) ∧
             (∃ g, (t.router (coreXY x y)).buf (farInput o) h.2 = (s.router (coreXY x y)).buf (farInput o) h.2 ++ [g] ∧
               g.idx = f.idx ∧ samePacket g.p f.p = true) ∧
             (w.turns = true → pktFlits f.p ≤ f.idx → (t.core c).arrived = (s.core c).arrived ++ [f.p]) ∧
             (w.turns = false ∨ f.idx < pktFlits f.p → (t.core c).arrived = (s.core c).arrived))) ∧
       (∀ q st, f.idx = 0 → h.1 = .sink q st → pktMulticast f.p = false →
         exec (.routerFlitForward c out .good) s = .next ((s.setRouter c r).sinkPacket c f.p st))) ∧
     (∀ (w : Cand) (h : FlumeHop) (f : FlumeFlit) (rest : List FlumeFlit), s.winner c r o = some w → w.vc = 2 →
       r.flumes[w.flume]? = some h → s.hopFlits c h = f :: rest →
       exec (.routerFlitForward c out .good) s = .next ((s.takeFlumeFlit c
         (Router.sent3 { r with rr := tset 0 r.rr (8 * o + w.rank) w.inp } o false) w.flume h).flumeDeliver c h f)) ∧
     (∀ (w : Cand) (f : Flit) (rest : List Flit) (l0 l3 : Bool), s.winner c (s.router c) o = some w → w.vc ≠ 2 →
       (s.router c).buf w.inp w.vc = f :: rest → f.idx = 0 →
       exec (.routerFlitForward c out (.headerBad l0 l3)) s = .next (s.headerBad c f.p l0 l3)) ∧
     (∃ t q, exec (.routerFlitForward c out .controlCorrected) s = .next t ∧ t.reports = s.reports ++ [q] ∧
       q.source = 0x0207 ∧ t.routers = s.routers) ∧
     (∀ h, exec (.routerFlitForward c out (.controlDropped (.reply h))) s =
       .next { s with ctlReplies := s.ctlReplies.filter fun e => e.1 ≠ h }) ∧
     (∀ a, exec (.routerFlitForward c out (.controlDropped (.ack a))) s = .next { s with acks := eraseOne a s.acks }) ∧
     (∀ h, h.bcast = 0 → h ∉ s.ctlOut →
       exec (.routerFlitForward c out (.controlDropped (.request h))) s = .next { s with ctlOut := s.ctlOut ++ [h] })) ∧
  (∀ (s : State) (c : CoreRef) (inp : BitVec 3),
     let r := s.router c
     s.coreOk c = true →
     (∀ (vc : BitVec 2) (f : Flit) (rest : List Flit), r.buf inp.toNat vc.toNat = f :: rest → f.idx = 0 →
       escapes f.p vc.toNat = true → r.channel inp.toNat vc.toNat f.p ≠ 0 →
       ∃ t, exec (.vcEscape c inp vc) s = .next t ∧ (t.router c).buf inp.toNat vc.toNat = f :: rest ∧
         (t.router c).channel inp.toNat vc.toNat f.p = 0 ∧
         (∀ d, s.dieOf c = some d → (t.die d).escapes = satInc (s.die d).escapes)) ∧
     (∀ vc : BitVec 2, r.buf inp.toNat vc.toNat = [] → exec (.vcEscape c inp vc) s = .next s) ∧
     (∀ (f : Flit) (rest : List Flit), r.buf inp.toNat 1 = f :: rest → f.idx = 0 →
       (r.aged.contains inp = false →
         ∃ t, exec (.vc1Aged c inp) s = .next t ∧ (t.router c).aged = inp :: r.aged ∧ t.cores = s.cores) ∧
       (r.aged.contains inp = true → exec (.vc1Aged c inp) s = .next s)) ∧
     (r.buf inp.toNat 1 = [] → exec (.vc1Aged c inp) s = .next s) ∧
     (let turnsAt (out : Nat) : Prop :=
        (s.winner c ((s.router c).earn out) out).any (fun w => w.turns && w.inp == inp.toNat) = true
      (∀ out : BitVec 3, out.toNat < 5 → turnsAt out.toNat → (∀ q, q < out.toNat → ¬ turnsAt q) →
        exec (.turnoutCopy c inp) s = exec (.routerFlitForward c out .good) s) ∧
      ((∀ q, q < 5 → ¬ turnsAt q) → exec (.turnoutCopy c inp) s = .next s))) ∧
  (∀ (s : State) (d : Site) (e : BitVec 2) (n : BitVec 3), s.siteOk d = true →
     let g := s.edge (siteKey d) e.toNat
     let replays (m : Nat) : Prop := ∃ t q, exec (.edgeCrcFail d e n) s = .next t ∧
       (t.edge (siteKey d) e.toNat).retries = satInc g.retries m ∧
       (t.die (siteKey d)).detLost = true ∧ t.reports = s.reports ++ [q] ∧ q.source = 0x0204
     (g.state = 1 → n ≠ 0 → (∀ m, g.inject = some m → replays m) ∧ (g.inject = none → n.toNat < 4 → replays n.toNat)) ∧
     (g.state = 1 → g.inject = none → 4 ≤ n.toNat →
       ∃ t, exec (.edgeCrcFail d e n) s = .next t ∧ (t.edge (siteKey d) e.toNat).state = 3) ∧
     (g.state ≠ 1 ∨ n = 0 → exec (.edgeCrcFail d e n) s = .next s))

/-- R107, R166, R167, R187, R190, R192, R196, R197, R198, R199, R255, R256: a contribution enters the contributor's buffer of
four. A contributor whose own flits and those of its leg are present (`rowCombine`, `colCombine`) sends the combined flits
on to the next place with room; a combine that fails its residue check stops the flume and is reported as 0x0209. At the
end corner of a linked collector the elements of the upstream panel join the result, which leaves by the downstream port,
or on the last panel to the destination. A flume flit that passes the checks is written at 64 (BASE + POS) of its
receiver, counted, its flags raised, and POS moves one on, around at SIZE; one of a sunk SEND takes only its position with
it; one that fails a check is sunk with its SEND, one with bad parity is reported as 0x0201. Completes: REDUCE_CONTRIB,
COLLECTOR_COMBINE, LINK_COLLECTOR_COMBINE, FLUME_FLIT_DELIVER. -/
def Obligations.FlumeSteps : Prop :=
  (∀ (s : State) (c : CoreRef) (ep : BitVec 3),
     let k := s.core c
     let q := k.endpoint ep
     s.coreOk c = true →
     (∀ f rest, tget [] k.flumeOut ep.toNat = f :: rest →
       (q.valid = true → q.role = 3 → (tget [] k.contrib ep.toNat).length < 4 →
         ∃ t, exec (.reduceContrib c ep) s = .next t ∧ tget [] (t.core c).flumeOut ep.toNat = rest ∧
           tget [] (t.core c).contrib ep.toNat = tget [] k.contrib ep.toNat ++ [f] ∧ t.mem = s.mem) ∧
       (4 ≤ (tget [] k.contrib ep.toNat).length → exec (.reduceContrib c ep) s = .next s)) ∧
     (∀ e, s.flumeEntry k.partNo q.flume = some e → flumeKind e = 2 → q.valid = true → q.role = 3 →
       let (r, i) := contributorAt e c
       let made := (rowCombine e ep.toNat i k).bind fun x => if i + 1 = flumeCw e then colCombine e ep.toNat r x else some x
       (made = none → ∀ b, exec (.collectorCombine c ep b) s = .next s) ∧
       (∀ x, made = some x →
         (∀ u, (s.setCore c x.k).toNext c k.partNo q.flume e x.out = some u →
           exec (.collectorCombine c ep false) s = .next u) ∧
         ((s.setCore c x.k).toNext c k.partNo q.flume e x.out = none → exec (.collectorCombine c ep false) s = .next s) ∧
         (∃ t m, exec (.collectorCombine c ep true) s = .next t ∧ t.reports = s.reports ++ [m] ∧ m.source = 0x0209 ∧
           t.mem = s.mem ∧ t.cores = s.cores ∧
           ∀ n, ∀ h ∈ (t.router n).flumes, h.part = k.partNo → h.flume = q.flume → h.stopped = true)) ∧
       (∀ f rest g, i = 0 → i + 1 ≠ flumeCw e → c ≠ endCorner e → tget [] k.contrib ep.toNat = f :: rest →
         (s.router c).flumeAt k.partNo q.flume 4 = some g → g.stopped = false →
         g.buf.length + (widen e f).length ≤ 4 →
         ∃ t, exec (.collectorCombine c ep false) s = .next t ∧ tget [] (t.core c).contrib ep.toNat = rest ∧
           ((t.router c).flumeAt k.partNo q.flume 4).map (fun h => h.buf) = some (g.buf ++ widen e f) ∧ t.mem = s.mem)) ∧
     (∀ e l g, s.flumeEntry k.partNo q.flume = some e → s.collectorLink k.partNo.toNat q.flume = some l →
       flumeKind e = 2 → q.valid = true → q.role = 3 → c = endCorner e →
       (s.router c).flumeAt k.partNo q.flume 4 = some g → g.stopped = false →
       let key := 4096 * k.partNo.toNat + q.flume.toNat
       let n := if l.code.isSome then 2 else 1
       let col := (tget [] s.linkCol key).take n
       let up := (tget [] s.linkIn key).take n
       let out := if l.up.isSome then List.zipWith (combineFlits e) up col else col
       (col.length = n → (l.up.isSome = true → up.length = n) →
         (∀ m, l.down = some m → (s.port m.toNat).dead = false →
           ∃ t, exec (.linkCollectorCombine c ep false) s = .next t ∧
             (t.port m.toNat).txq = (s.port m.toNat).txq ++ [s.streamSlot k.partNo q.flume l.code out] ∧
             tget [] t.linkCol key = (tget [] s.linkCol key).drop n ∧ t.mem = s.mem) ∧
         (l.down = none → g.buf.length + out.length ≤ 4 →
           ∃ t, exec (.linkCollectorCombine c ep false) s = .next t ∧
             ((t.router c).flumeAt k.partNo q.flume 4).map (fun h => h.buf) = some (g.buf ++ out) ∧
             tget [] t.linkCol key = (tget [] s.linkCol key).drop n ∧ t.mem = s.mem) ∧
         (∃ t m, exec (.linkCollectorCombine c ep true) s = .next t ∧ t.reports = s.reports ++ [m] ∧ m.source = 0x0209 ∧
           t.linkCol = s.linkCol)) ∧
       (col.length < n ∨ l.up.isSome = true ∧ up.length < n → ∀ b,
         exec (.linkCollectorCombine c ep b) s = .next s))) ∧
  (∀ (s : State) (c : CoreRef) (ep : BitVec 3) (e : Nat) (f : FlumeFlit) (b : Bool),
     let k := s.core c
     let q := k.endpoint ep
     let off := 64 * (q.base.toNat + q.pos.toNat)
     let n := if flumeKind e = 2 ∧ flumeCfmt e = 1 then 2 else 1
     let waiting := tget [] k.flumeIn ep.toNat
     let bs := (delivered e k.sat (waiting.take n)).1
     let past (t : State) : Prop := tget [] (t.core c).flumeIn ep.toNat = waiting.drop n ∧
       (t.core c).endpoint ep = q.advance 1 ∧ (t.core c).g = k.g
     s.coreOk c = true → s.flumeEntry k.partNo q.flume = some e → q.valid = true → waiting.head? = some f →
     n ≤ waiting.length →
     (k.sinks f = true → ∃ t, exec (.flumeFlitDeliver c ep b) s = .next t ∧ past t ∧ t.mem = s.mem ∧
       (t.core c).ccnt = k.ccnt ∧ t.reports = s.reports) ∧
     (k.sinks f = false →
       (∃ t r, exec (.flumeFlitDeliver c ep true) s = .next t ∧ past t ∧ t.mem = s.mem ∧ (t.core c).sinks f = true ∧
         t.reports = s.reports ++ [r] ∧ r.source = 0x0201) ∧
       (s.flumeCheck c k off = none → (∀ x ∈ k.ecc, x.2.correctable = true) → (k.bank (off / 64 % 16)).ingress = none →
         (k.bank (off / 64 % 16)).opens 5 = true →
         ∃ t, exec (.flumeFlitDeliver c ep false) s = .next t ∧ past t ∧ t.mem = memWrite s.mem (spAddr c off) bs ∧
           (t.core c).counter q.ctr = (k.counter q.ctr).addBytes bs.length ∧
           (t.core c).fpflags = k.fpflags ||| (delivered e k.sat (waiting.take n)).2) ∧
       (∀ st bank, s.flumeCheck c k off = some (st, bank) →
         ∃ t, exec (.flumeFlitDeliver c ep false) s = .next t ∧ past t ∧ t.mem = s.mem ∧ (t.core c).sinks f = true ∧
           (t.core c).ccnt = k.ccnt)))

/-! ### The control network -/

/-- R74, R174, R299: what CORECTL does to every core that it reaches, and that the other cores stay, when the requester has a
free slot (with none, nothing happens): START sets the PC and runs the core, a partition broadcast only the placed ones;
STOP halts it and discards its engine queues; RELEASE lets a core that waits at a checkpoint hook go on; CLEAR makes its
registers, tiles and counters zero and its channels idle; BIND binds a sync channel; the debug order stops or resumes it,
and acts only within an authorised session. Completes: CORECTL_START, CORECTL_STOP, CORECTL_RELEASE, CORECTL_CLEAR,
CORECTL_BIND, CORECTL_DEBUG. -/
def Obligations.CoreControl : Prop :=
  ∀ (s : State) (h : CtlHdr),
    let cs := s.ctlCores h
    let acts (i : Instr) (f : Core → Core → Prop) : Prop :=
      (s.slotFree h = true →
        ∃ t, exec i s = .next t ∧ t.mem = s.mem ∧ (∀ c ∈ cs, f (s.core c) (t.core c)) ∧
          (∀ c, c ∉ cs → t.core c = s.core c) ∧ (h.bcast = 0 → cs ≠ [] → (h, 0, none) ∈ t.ctlReplies ∧ h ∈ t.ctlOut) ∧
          (h.bcast ≠ 0 → t.ctlReplies = s.ctlReplies ∧ t.ctlOut = s.ctlOut)) ∧
      (s.slotFree h = false → exec i s = .next s)
    (∀ entry, acts (.corectlStart h entry) fun k k' =>
      (h.bcast ≠ 3 ∨ k.placed = true → k' = { k with pc := entry, mode := .run, wait := .none, exitValid := false }) ∧
      (h.bcast = 3 → k.placed = false → k' = k)) ∧
    acts (.corectlStop h) (fun k k' => k'.mode = .halted ∧ k'.tq = [] ∧ k'.nq = [] ∧ k'.cq = [] ∧ k'.g = k.g ∧
      k'.exitCode = k.exitCode ∧ k'.exitValid = k.exitValid) ∧
    acts (.corectlRelease h) (fun k k' =>
      (k.atHook.isSome = true →
        k'.mode = .run ∧ k'.service = .none ∧ k'.pc = k.rtPc ∧ k'.g = k.g) ∧
      (k.atHook = none → k' = k)) ∧
    (∀ m, acts (.corectlClear h m) fun k k' => (∀ r, k'.getG r = 0) ∧ (∀ r l, k'.getV r l = 0) ∧ (∀ n, k'.getD n = 0) ∧
      k'.ccnt = [] ∧ k'.acc = [] ∧ k'.fpflags = 0 ∧ k'.subn = m.getLsbD 0 ∧ k'.sat = m.getLsbD 1 ∧ k'.pc = k.pc ∧
      ∀ ch, (k'.chan ch).arrived = false ∧ (k'.chan ch).released = false ∧ (k'.chan ch).bound = (k.chan ch).bound) ∧
    (∀ ch g, acts (.corectlBind h ch g) fun k k' =>
      (k'.chan ch).bound = true ∧ (k'.chan ch).group = g ∧ (∀ o, o ≠ ch → k'.chan o = k.chan o) ∧ k'.g = k.g) ∧
    ((∃ e ∈ s.sec.sessions, e.authorised = true ∧ e.rights.getLsbD 2 = true) →
      acts (.corectlDebug h false) (fun k k' => (k.mode = .run ∨ k.mode = .wait → k'.debugStop = true) ∧ k'.mode = k.mode) ∧
      acts (.corectlDebug h true) (fun k k' =>
        (k.mode = .runtime → k.service = .debug → k'.debugStop = false ∧ k'.service = .none) ∧
        (k.mode = .runtime → k.service = .debug → k.wait = .none → k'.mode = .run ∧ k'.pc = k.rtPc) ∧
        (∀ ch, k.mode = .runtime → k.service = .debug → k.wait = .sync ch → (k.chan ch).released = true →
          k'.mode = .run ∧ k'.pc = k.rtPc + 4) ∧
        (∀ ch, k.mode = .runtime → k.service = .debug → k.wait = .sync ch → (k.chan ch).released = false →
          k'.mode = .wait ∧ k'.pc = k.rtPc))) ∧
    ((∀ e ∈ s.sec.sessions, e.authorised = false ∨ e.rights.getLsbD 2 = false) →
      ∀ b, acts (.corectlDebug h b) fun k k' => k' = k)

/-- R142, R158, R168, R173, R174, R175, R388: writes, reads and messages of the control network, with a free slot: SPWRITE
puts its bytes into every core that it reaches and nowhere else; REGWRITE writes over the internal path, CD_NETCFG and
CORE_FPMODE among the registers, and at the headworks the panel window; REGREAD brings the register back; FENCE answers;
RECORD travels to the collector; REGREAD, FENCE and RECORD are no broadcasts. REPLY frees its slot; an ACK counts its
bytes, one with a nonzero status is a status answer; a time-out is reported against the region. Completes: SPWRITE,
REGWRITE, REGREAD, FENCE, RECORD, REPLY, ACK, CONTROL_TIMEOUT. -/
def Obligations.ControlRequests : Prop :=
  (∀ (s : State) (h : CtlHdr),
    let region := s.ctlRegion h.destRow.toNat h.destCol.toNat
    let answered (t : State) (v : Option Reg64) : Prop := h.bcast = 0 → h ∈ t.ctlOut ∧ (s.ctlReaches h = true →
      (h, 0, v) ∈ t.ctlReplies)
    s.slotFree h = true →
    (∀ off bs, let cs := s.ctlCores h
      let d := List.take 64 bs
      (∀ c ∈ cs, (s.core c).rangeOn off.toNat d.length = true ∧ (∀ e ∈ (s.core c).ecc, e.2.correctable = true) ∧
        ∀ n, n < 16 → ((s.core c).bank n).ingress = none ∧ ((s.core c).bank n).opens 5 = true) →
      ∃ t, exec (.spwrite h off bs []) s = .next t ∧ (∀ c ∈ cs, memRead t.mem (spAddr c off.toNat) d.length = d) ∧
        (∀ a, (∀ c ∈ cs, a < spAddr c off.toNat ∨ spAddr c off.toNat + d.length ≤ a) → memGet t.mem a = memGet s.mem a) ∧
        ∀ c, (t.core c).g = (s.core c).g) ∧
    (∀ c off bs, s.ctlCores h = [c] → (s.core c).rangeOn off.toNat (List.take 64 bs).length = false →
      ∃ t r, exec (.spwrite h off bs []) s = .next t ∧ t.mem = s.mem ∧ t.reports = s.reports ++ [r] ∧ r.source = 0x0107) ∧
    (∀ d r, region = some (d, r) → h.bcast = 0 → h.endpoint ≠ 0x1F → endpointExists h.endpoint = true →
      (∀ off v, ∃ b, exec (.regwrite h off v) s =
        .next ((s.writeInternal d off.toNat v.toNat).ctlAnswer h b 0x00 none)) ∧
      (∀ v : Reg64, ∃ t, exec (.regwrite h 0x800300 v) s = .next t ∧ (t.die d).part = v.setWidth 4 ∧
        (t.die d).assigned = v.getLsbD 4 ∧ (t.die d).job = v.extractLsb' 8 8 ∧ t.mem = s.mem ∧ answered t none) ∧
      (∀ i c v, i < 1024 → s.coreAt d i = some c →
        ∃ t, exec (.regwrite h (BitVec.ofNat 24 (0x2000 * i + 0x20)) v) s = .next t ∧
          t.core c = { s.core c with subn := v.getLsbD 0, sat := v.getLsbD 1 } ∧ answered t none)) ∧
    (h.endpoint = 0x1F → ∀ off v, ∃ b, exec (.regwrite h off v) s =
      .next ((s.writePanel off.toNat v.toNat).ctlAnswer h b 0x00 none)) ∧
    (h.bcast = 0 → ∀ off,
      (∀ d r, region = some (d, r) → h.endpoint ≠ 0x1F → endpointExists h.endpoint = true →
        ∃ t, exec (.regread h off) s = .next t ∧ t.dies = s.dies ∧ t.mem = s.mem ∧ h ∈ t.ctlOut ∧
          (h, 0, some (t.dieWindow d (8 * (off.toNat / 8)))) ∈ t.ctlReplies) ∧
      (h.endpoint = 0x1F → ∃ t, exec (.regread h off) s = .next t ∧ t.cores = s.cores ∧ t.dies = s.dies ∧
        answered t (some (s.panelReg (8 * (off.toNat / 8)))))) ∧
    (h.bcast = 0 → ∃ t, exec (.fence h) s = .next t ∧ answered t none ∧ t.cores = s.cores ∧ t.mem = s.mem) ∧
    (h.bcast = 0 → ∀ q, ∃ t, exec (.record h q) s = .next t ∧ q ∈ t.reports ∧ t.cores = s.cores ∧ t.mem = s.mem) ∧
    (h.bcast ≠ 0 → ∀ off q, exec (.regread h off) s = .next s ∧ exec (.fence h) s = .next s ∧
      exec (.record h q) s = .next s)) ∧
  (∀ (s : State) (h : CtlHdr),
    (∀ st v, exec (.reply h st v) s =
      .next { s with ctlOut := eraseOne h s.ctlOut, ctlReplies := eraseOne (h, st, v) s.ctlReplies }) ∧
    (h ∈ s.ctlOut → ∀ d r, s.ctlRegion h.destRow.toNat h.destCol.toNat = some (d, r) →
      ∃ t q, exec (.controlTimeout h) s = .next t ∧ t.reports = s.reports ++ [q] ∧ q.source = 0x0208 ∧
        q.unit = BitVec.ofNat 16 r ∧ t.ctlOut = eraseOne h s.ctlOut) ∧
    (h ∉ s.ctlOut → exec (.controlTimeout h) s = .next s)) ∧
  (∀ (s : State) (a : AckMsg), let c : CoreRef := ⟨a.x, a.y⟩
    let sl := (s.core c).slot a.slot
    (s.coreOk c = true → a.panel = none ∨ a.panel = some s.panel.panelId →
      (a.status = 0 → sl.used = true →
        ∃ t, exec (.ack a) s = .next t ∧ t.acks = eraseOne a s.acks ∧
          (sl.ce = true → (t.core c).counter sl.ctr = ((s.core c).counter sl.ctr).addBytes a.bytes.toNat) ∧
          (sl.ce = false → (t.core c).ccnt = (s.core c).ccnt) ∧
          (sl.left ≤ a.bytes.toNat → ((t.core c).slot a.slot).used = false) ∧
          (a.bytes.toNat < sl.left → ((t.core c).slot a.slot).left = sl.left - a.bytes.toNat)) ∧
      (a.status = 0 → sl.used = false → exec (.ack a) s = .next { s with acks := eraseOne a s.acks }) ∧
      (a.status ≠ 0 → exec (.ack a) s = .next ({ s with acks := eraseOne a s.acks }.statusAnswer c a.status a.job))) ∧
    (∀ n, a.panel = some n → n ≠ s.panel.panelId → exec (.ack a) s = .next { s with acks := eraseOne a s.acks }))

/-! ### Barriers and the sync network -/

/-- R61, R202, R204, R205, R264, R325, R343, R357: a die whose members have all arrived sends its arrival to the headworks
hub, or, the only die of its group, releases it; the hub counts the dies, and with the last of them, no hold standing,
releases the group: the generation moves on, the spread of the arrivals is kept, and the release travels to every member.
With the determinism-lost flag of a die of its partition, the release is withheld, and the group reads DETHOLD. At a
member a release ends a WAITF or BARRIER that waits, or stands until the next one; with the first of ADVGROUP the job
enters its next phase. Also: a lost sync culvert is counted and reported as 0x020A, both of them fall back; the
determinism-lost flag of a die makes the hub hold the releases of its partition's job; a forecast that failed to come true
is dropped. Completes: SYNC_ARRIVAL, HWD_HUB_ARRIVAL, SYNC_RELEASE, SYNC_CULVERT_LOSS, DET_HOLD, FORECAST_EXPIRE. -/
def Obligations.BarrierRounds : Prop :=
  (∀ (s : State) (d : Site) (g : BitVec 6) (ticks : BitVec 64),
     let b := s.group g.toNat
     let key := siteKey d
     b.valid = true →
     (s.siteOk d = true → s.membersOn g.toNat key ≠ [] → b.sentDies.contains d = false → b.arrivedDies.contains d = false →
       (∀ c ∈ s.membersOn g.toNat key, c ∈ tget [] (s.die key).arrivedMembers g.toNat) →
       let held : Prop := (s.part b.part.toNat).img.detreq = true ∧ ((s.die key).detLost = true ∨ (s.die key).detHold = true)
       (s.memberDies g.toNat ≠ [key] ∨ b.multi = true →
         exec (.syncArrival d g) s = .next (s.setGroup g.toNat { b with sentDies := b.sentDies ++ [d] })) ∧
       (s.memberDies g.toNat = [key] → b.multi = false → ¬ held →
         ∃ t, exec (.syncArrival d g) s = .next t ∧ (t.group g.toNat).gen = b.gen + 1 ∧
           (t.group g.toNat).lastWait = 0 ∧ (t.group g.toNat).dieRow = d.row ∧
           (t.group g.toNat).releasing = s.members g.toNat ∧ t.cores = s.cores) ∧
       (s.memberDies g.toNat = [key] → b.multi = false → held →
         ∃ t, exec (.syncArrival d g) s = .next t ∧ (t.group g.toNat).gen = b.gen ∧ (t.group g.toNat).detHold = true)) ∧
     (s.siteOk d = true → b.sentDies.contains d = true →
       (b.pending ≠ 1 → ∃ t, exec (.hwdHubArrival d g ticks) s = .next t ∧ (t.group g.toNat).pending = b.pending - 1 ∧
         (t.group g.toNat).gen = b.gen ∧ (t.group g.toNat).arrivedDies = b.arrivedDies ++ [d] ∧
         (t.group g.toNat).releasing = b.releasing ∧ t.cores = s.cores) ∧
       (b.pending = 1 → s.withholds b.part.toNat = false → b.multi = false →
         ∃ t, exec (.hwdHubArrival d g ticks) s = .next t ∧ (t.group g.toNat).gen = b.gen + 1 ∧
           (t.group g.toNat).gens = satInc b.gens ∧ (t.group g.toNat).pending = b.dies ∧
           (t.group g.toNat).releasing = s.members g.toNat ∧ (t.group g.toNat).dieRow = d.row ∧
           (b.arrivedDies ≠ [] → (t.group g.toNat).lastWait =
             BitVec.ofNat 32 (min (ticks.toNat - b.firstTick.toNat) (2 ^ 32 - 1))) ∧ t.cores = s.cores) ∧
       (b.pending = 1 → s.withholds b.part.toNat = true → b.multi = false →
         ∃ t, exec (.hwdHubArrival d g ticks) s = .next t ∧ (t.group g.toNat).gen = b.gen ∧
           (t.group g.toNat).detHold = true) ∧
       (b.pending = 1 → b.multi = true → exec (.hwdHubArrival d g ticks) s = .next ((s.setGroup g.toNat
         (b.arrival d ((s.colOf key).getD 0) s.panel.panelId ticks)).multiArrived g.toNat))) ∧
     (∀ c, s.coreOk c = true → b.releasing.contains c = true →
       let k := s.core c
       (∀ ch, k.chanOf g.toNat = some ch →
         let h := k.chan ch
         ∃ t, exec (.syncRelease c g) s = .next t ∧ (t.group g.toNat).releasing = eraseOne c b.releasing ∧
           ((t.core c).chan ch).arrived = false ∧ ((t.core c).chan ch).gen = h.gen + 1 ∧ (t.core c).g = k.g ∧
           (k.mode = .wait → k.wait = .sync ch → (t.core c).mode = .run ∧ (t.core c).pc = k.pc + 4 ∧
             ((t.core c).chan ch).released = false) ∧
           (k.mode ≠ .wait ∨ k.wait ≠ .sync ch →
             (t.core c).mode = k.mode ∧ (t.core c).pc = k.pc ∧ ((t.core c).chan ch).released = true) ∧
           (∀ ph, (s.part b.part.toNat).img.advGroup = some g → b.releasing.length = (s.members g.toNat).length →
             (s.part b.part.toNat).img.phases[(s.part b.part.toNat).phase]? = some ph →
             (t.part b.part.toNat).phase = ph.next)) ∧
       (k.chanOf g.toNat = none → ∃ t, exec (.syncRelease c g) s = .next t ∧
         (t.group g.toNat).releasing = eraseOne c b.releasing ∧ t.core c = k)) ∧
     (∀ c, s.coreOk c = true → b.releasing.contains c = false → exec (.syncRelease c g) s = .next s)) ∧
  (∀ (s : State) (d : Site), s.siteOk d = true →
     let k := siteKey d
     (∀ n : BitVec 2, (s.die k).culvertsLost < 2 → (s.die k).culvertsLost < n.toNat →
       ∃ t q, exec (.syncCulvertLoss d n) s = .next t ∧ (t.die k).culvertsLost = min 2 n.toNat ∧
         t.reports = s.reports ++ [q] ∧ q.source = 0x020A ∧ t.cores = s.cores ∧
         ∀ g, 2 ≤ n.toNat → (s.group g).valid = true → s.membersOn g k ≠ [] → (t.group g).fallback = true) ∧
     (∀ n : BitVec 2, (s.die k).culvertsLost ≤ 2 → n.toNat ≤ (s.die k).culvertsLost →
       exec (.syncCulvertLoss d n) s = .next s) ∧
     (∀ n, s.partOfSite k = some n → (s.die k).detLost = true → (s.part n).img.detreq = true →
       ∃ t, exec (.detHold d) s = .next t ∧ (t.part n).detHold = true ∧ (∀ e ∈ s.partSites n, (t.die e).detHold = true) ∧
         t.cores = s.cores ∧ t.mem = s.mem) ∧
     ((s.die k).detLost = false → exec (.detHold d) s = .next s) ∧
     (exec (.forecastExpire d) s = .next (s.onDie k fun e => { e with forecast := none })))

/-! ### The memory side -/

/-- R167, R218, R220, R222-R224, R235, R236, R253: the packets that an MSD takes. One that an earlier one of its order
precedes waits. One that a live region of a running job takes, of that job's own partition or, from another panel, of its
binding: a write stands in HBM at once and in the stack's write buffer, an ATOMIC_ADD adds to its word, a READ_REQ brings
the bytes back on the culvert group; with NOTIFY status 0 is acknowledged, and with CTR_EN a COMPLETION goes to the
source. So too beside stored errors that are all correctable; a read of an uncorrectable block is reported as 0x0302 and
brings nothing back. The others are answered: outside the live stacks and any other opcode or address with 0x01, of no job
or of another job with 0x03, of another panel without its binding with 0x05; one of another partition is reported as
0x0206. Completes: MSD_PACKET. -/
def Obligations.MemoryPackets : Prop :=
  ∀ (s : State) (m : BitVec 3) (src : Site) (p : Packet), s.siteOk src = true →
    let key := siteKey src
    let s0 := s.tookCulvert key m.toNat p
    let answered (st : BitVec 8) : Prop := exec (.msdPacket m src p) s = .next (s0.msdAnswer key m.toNat p st)
    let waits : Prop := (s.msd m.toNat).failed = true ∨
      (s.culvert key m.toNat).inq.contains p = true ∧ s.msdOvertakes key m.toNat p = true
    let queue (r : Router) (vc : Nat) : List Flit := r.buf 5 vc ++ tget [] r.wait (20 + vc)
    let sent (t : State) (q : Packet) : Prop := ∀ c, (s.culvert key m.toNat).state ≠ 0 →
      s.entryOfMsd key m.toNat q = some c →
      queue (t.router c) q.vc.toNat = queue (s.router c) q.vc.toNat ++ pktAllFlits q
    (waits → exec (.msdPacket m src p) s = .next s) ∧
    (¬ waits →
      ((∀ a, decodeAddr p.dest.toNat ≠ .hbm a) → answered 0x01) ∧
      (∀ a, decodeAddr p.dest.toNat = .hbm a →
        (s.hbmOwner a = none → s.liveStacks.length * 36 * 2 ^ 30 ≤ a → answered 0x01) ∧
        (s.hbmOwner a = none → a < s.liveStacks.length * 36 * 2 ^ 30 → answered 0x03) ∧
        (∀ n st o, s.hbmOwner a = some n → s.hbmMap (s.part n).img.gran a = some (st, o) →
          let mine : Prop := (s.foreign p = true → s.bindOk n p = true) ∧
            (s.foreign p = false → p.job = s.partJob n ∧ p.part.toNat = n)
          let writes (bs : List Byte) (len : Nat) : Prop :=
            ∃ t, exec (.msdPacket m src p) s = .next t ∧ t.mem = memWrite s.mem a bs ∧ t.cores = s.cores ∧
              (t.stack st).wbuf = (s.stack st).wbuf ++ [⟨a, bs.length⟩] ∧
              (p.notify = true → s.leaves { p with dpanel := p.spanel } = false → ∃ k ∈ t.acks, k.x = p.srcX ∧
                k.y = p.srcY ∧ k.slot = p.ackSlot ∧ k.status = 0) ∧
              (p.notify = false → t.acks = s.acks) ∧ (p.ctrEn = false → t.routers = s.routers) ∧
              (p.ctrEn = true → sent t (pktOnChannel (completionTo p p.ctr true len) 0))
          (s.foreign p = true → s.bindOk n p = false → answered 0x05) ∧
          (s.foreign p = false → p.job ≠ s.partJob n → answered 0x03) ∧
          (s.foreign p = false → p.job = s.partJob n → p.part.toNat ≠ n → ∃ t r, exec (.msdPacket m src p) s = .next t ∧
            t.reports = s.reports ++ [r] ∧ r.source = 0x0206 ∧ r.part2 = p.part.setWidth 8 ∧ t.mem = s.mem) ∧
          (mine → (∀ e ∈ s.hbmErr, e.2.bytes ≤ 2) →
            (p.opcode = 1 ∨ p.opcode = 2 → writes p.payload p.len.toNat) ∧
            (p.opcode = 5 → writes (bytesOf 4 (natOf (memRead s.mem a 4) + natOf (p.payload.take 4))) 4) ∧
            (p.opcode = 3 → ∃ t, exec (.msdPacket m src p) s = .next t ∧ t.mem = s.mem ∧ t.cores = s.cores ∧
              sent t (hbmResponse p (memRead s.mem a p.len.toNat)))) ∧
          (mine → p.opcode = 3 → 0 < p.len.toNat → a / 64 = (a + p.len.toNat - 1) / 64 →
            2 < (tget {} s.hbmErr (s.storedBlock (a / 64))).bytes →
            ∃ t r, exec (.msdPacket m src p) s = .next t ∧ t.mem = s.mem ∧ t.routers = s.routers ∧
              t.reports = s.reports ++ [r] ∧ r.source = 0x0302) ∧
          (mine → p.opcode ≠ 1 → p.opcode ≠ 2 → p.opcode ≠ 3 → p.opcode ≠ 5 → answered 0x01))))

/-- R225-R228: a copy descriptor of a running job goes to the end of its queue, with its source and flow; one whose job has
ended is answered with 0x03. An engine takes the next piece of the queue whose turn it is, and the descriptor leaves its
queue with its last piece: a FILL writes its pattern over exactly the piece's bytes, a LOAD changes no memory and sends
the bytes of a piece within one packet as that packet, and the last piece of a FILL, or each with CTR_EN, sends a
COMPLETION that counts it. With no engine left, or no queue that can go, nothing happens. Completes: COPY_DESCRIPTOR,
COPY_PIECE. -/
def Obligations.CopyEngineSteps : Prop :=
  ∀ (s : State) (m : BitVec 3),
    let msd := s.msd m.toNat
    let sent (t : State) (k : Nat) (q : Packet) : Prop := ∀ c, (s.culvert k m.toNat).state ≠ 0 →
      s.entryOfMsd k m.toNat q = some c →
      (t.router c).buf 5 0 ++ tget [] (t.router c).wait 20 =
        (s.router c).buf 5 0 ++ tget [] (s.router c).wait 20 ++ pktAllFlits q
    (∀ (src : Site) (queue : BitVec 3) (p : Packet), s.siteOk src = true →
      let key := 8 * siteKey src + queue.toNat
      let live : Prop := (s.part p.part.toNat).state.runs = true ∧ p.job = s.partJob p.part.toNat
      (msd.failed = true → exec (.copyDescriptor m src queue p) s = .next s) ∧
      (msd.failed = false → ¬ live → exec (.copyDescriptor m src queue p) s =
        .next ((s.tookCulvert (siteKey src) m.toNat p).msdAnswer (siteKey src) m.toNat p 0x03)) ∧
      (msd.failed = false → live →
        ∃ t j, exec (.copyDescriptor m src queue p) s = .next t ∧
          tget [] (t.msd m.toNat).queues key = tget [] msd.queues key ++ [j] ∧ j.desc.toNat = natOf p.payload % 2 ^ 256 ∧
          j.srcX = p.srcX ∧ j.srcY = p.srcY ∧ j.part = p.part ∧ j.job = p.job ∧ j.flow = p.flow ∧ j.done = 0 ∧
          t.mem = s.mem)) ∧
    (msd.failed = true ∨ 64 ≤ msd.deadEngines.length ∨ s.nextQueue m.toNat = none →
      exec (.copyPiece m) s = .next s) ∧
    (∀ key j rest, msd.failed = false → msd.deadEngines.length < 64 → s.nextQueue m.toNat = some key →
      tget [] msd.queues key = j :: rest →
      let d := copyDesc j.desc
      let todo := (s.ownPieces m.toNat j).drop j.done
      let left := if todo.length ≤ 1 then rest else { j with done := j.done + 1 } :: rest
      ∃ t, exec (.copyPiece m) s = .next t ∧ tget [] (t.msd m.toNat).queues key = left ∧ (t.msd m.toNat).turn = key ∧
        (d.kind ≠ 1 → t.mem = s.mem) ∧
        (∀ l off len more, todo = (l, off, len) :: more →
          let a := d.haddr + l * d.hstride + off
          (d.kind = 1 → (∀ e ∈ s.hbmErr, e.2.bytes ≤ 2) →
            t.mem = memWrite s.mem a (List.replicate (len / 4) (bytesOf 4 (bits d.saddr 0 32))).flatten ∧
            (d.ctrEn = true ∨ more = [] →
              sent t (key / 8) (pktOnChannel (s.copyCompletion j d len (decide (more = []))) 0))) ∧
          (d.kind ≠ 1 → d.ctrEn = false → more ≠ [] → (∀ e ∈ s.hbmErr, e.2.bytes ≤ 2) → ∀ c i x y x0 y0 o,
            d.place l = (c, i) → decodeAddr d.saddr = .sp x0 y0 o →
            along (bits d.saddr 37 9) (bits d.saddr 28 9) d.axis d.dir c = some (x, y) →
            s.dieOf (coreXY x y) ≠ none → cutRange (o + i * d.sstride + off) len = [(0, len)] →
            sent t (key / 8)
              (pktOnChannel (s.copyPacket j d (coreXY x y) (o + i * d.sstride + off) (memRead s.mem a len)) 0))))

/-- R216, R224, R235-R238, R348, R350: the stacks on their own. The oldest buffered write goes in. The scrubber of a live
stack reads its next stored block and moves on, a unit in one block at once: a sound block stays as it is, one with up to
two bad bytes is corrected and counted and reported as 0x0301, one with more is counted, and reported as 0x0302 in a
region that a job owns, else erased so that it reads zero. The scrubber of a stack that is not live does nothing. A
temperature readout from 85 degrees on halves the request rate. A failed supply retires a stack that is in use: the map
loses it, every byte of HBM reads zero; of one that is not it changes nothing. Completes: HBM_WRITE_DRAIN, HBM_SCRUB,
HBM_TEMPERATURE_READOUT, HBM_SUPPLY_FAIL. -/
def Obligations.StackEvents : Prop :=
  ∀ (s : State) (p : BitVec 5), 8 * (p.toNat % 4) < s.stackCount →
    let k := s.stack p.toNat
    (exec (.hbmWriteDrain p) s = .next (s.setStack p.toNat { k with wbuf := k.wbuf.drop 1 })) ∧
    (∀ wrong : BitVec 3,
      let b := s.storedBlock (s.hbmAddrOf p.toNat k.scrubAt / 64)
      let bad := max (tget {} s.hbmErr b).bytes wrong.toNat
      let raw : Prop := tget .erased s.tags (b / 4) = .raw
      let next := if tget .erased s.tags (b / 4) = .raw then k.scrubAt + 64 else (k.scrubAt / 256 + 1) * 256
      (s.panel.liveStacks.getLsbD p.toNat = false → exec (.hbmScrub p wrong) s = .next s) ∧
      (s.panel.liveStacks.getLsbD p.toNat = true →
        ∃ t, exec (.hbmScrub p wrong) s = .next t ∧ t.cores = s.cores ∧ t.routers = s.routers ∧
          (t.stack p.toNat).scrubAt = (if 36 * 2 ^ 30 ≤ next then 0 else next) ∧
          (bad = 0 → t.mem = s.mem ∧ t.reports = s.reports ∧ (t.stack p.toNat).ce = k.ce ∧
            (t.stack p.toNat).ue = k.ue) ∧
          (0 < bad → bad ≤ 2 → t.mem = s.mem ∧ (t.stack p.toNat).ce = satInc k.ce ∧ tget {} t.hbmErr b = {} ∧
            ∃ r, t.reports = s.reports ++ [r] ∧ r.source = 0x0301) ∧
          (2 < bad → s.regionOwner (64 * b) ≠ none → t.mem = s.mem ∧ (t.stack p.toNat).ue = satInc k.ue ∧
            ∃ r, t.reports = s.reports ++ [r] ∧ r.source = 0x0302) ∧
          (2 < bad → s.regionOwner (64 * b) = none → (t.stack p.toNat).ue = satInc k.ue ∧
            ∀ a, a < 2 ^ 41 →
              (raw → memGet t.mem a = if a / 64 = b then 0 else memGet s.mem a) ∧
              (¬ raw → memGet t.mem a = if a / 256 = b / 4 then 0 else memGet s.mem a)))) ∧
    (∀ temp : Int, exec (.hbmTemperatureReadout p temp) s =
      .next (s.setStack p.toNat { k with temp, throttled := decide (1360 ≤ temp) })) ∧
    (k.state = 0 ∨ k.state = 3 → exec (.hbmSupplyFail p) s = .next s) ∧
    (k.state = 1 ∨ k.state = 2 → ∃ t, exec (.hbmSupplyFail p) s = .next t ∧
      t.panel.liveStacks.getLsbD p.toNat = false ∧ (t.stack p.toNat).state = 3 ∧
      p ∈ t.flash.retStacks ∧ (∀ a, a < 2 ^ 41 → memGet t.mem a = 0) ∧ t.tags = [])

/-- R219-R221: a culvert group counts its replays, and the fourth failure of a flit in a row parks a live channel: reported as
0x0303, the other channels as they were; with its last channel the group goes down, and its packets are lost. A relock
parks a live channel and counts, or waits behind the one of its group that relocks; the channel that has locked again is
live, one that has not stays parked and is reported, and of those that wait the next begins. The redundant laser relocks
the channels that it feeds, one after another. Completes: CULVERT_REPLAY, CULVERT_RELOCK, CULVERT_RELOCK_DONE,
REDUNDANT_LASER_SWITCH. -/
def Obligations.CulvertEvents : Prop :=
  (∀ (s : State) (d : Site) (m ch : BitVec 3), s.siteOk d = true →
    let k := siteKey d
    let g := s.culvert k m.toNat
    let live : Prop := g.live.getLsbD ch.toNat = true
    let parks (i : Instr) (more : Culv → Prop) : Prop :=
      ∃ t, exec i s = .next t ∧ t.cores = s.cores ∧ t.routers = s.routers ∧
        (∀ j, j < 8 → (t.culvert k m.toNat).live.getLsbD j = (g.live.getLsbD j && decide (j ≠ ch.toNat))) ∧
        (∃ r ∈ t.reports, r.source = 0x0303) ∧ more (t.culvert k m.toNat) ∧
        (g.live ≠ 1 <<< ch.toNat → (t.culvert k m.toNat).state = 2 ∧ (t.culvert k m.toNat).inq = g.inq) ∧
        (g.live = 1 <<< ch.toNat → (t.culvert k m.toNat).state = (if facing m.toNat d then 3 else 0) ∧
          (t.culvert k m.toNat).inq = [])
    (∀ n : BitVec 3,
      let counted := { g with retries := satInc g.retries (min 4 n.toNat) }
      (g.state = 0 ∨ n = 0 → exec (.culvertReplay d m ch n) s = .next s) ∧
      (g.state ≠ 0 → n ≠ 0 → n.toNat < 4 ∨ ¬ live →
        exec (.culvertReplay d m ch n) s = .next (s.setCulvert k m.toNat counted)) ∧
      (g.state ≠ 0 → 4 ≤ n.toNat → live →
        parks (.culvertReplay d m ch n) fun c => c.retries = satInc g.retries 4 ∧ c.relock = g.relock)) ∧
    (¬ live ∨ ch ∈ g.relockWait → exec (.culvertRelock d m ch) s = .next s) ∧
    (live → ch ∉ g.relockWait → g.relock.isSome = true →
      exec (.culvertRelock d m ch) s = .next (s.setCulvert k m.toNat { g with relockWait := g.relockWait ++ [ch] })) ∧
    (live → ch ∉ g.relockWait → g.relock = none →
      parks (.culvertRelock d m ch) fun c => c.relock = some ch ∧ c.relocks = satInc g.relocks) ∧
    (g.relock ≠ some ch → ∀ b, exec (.culvertRelockDone d m ch b) s = .next s) ∧
    (g.relock = some ch →
      (g.relockWait = [] → ∃ t, exec (.culvertRelockDone d m ch true) s = .next t ∧
        (t.culvert k m.toNat).relock = none ∧ (t.culvert k m.toNat).live = g.live ||| 1 <<< ch.toNat ∧
        ((t.culvert k m.toNat).state = 1 ↔ g.live ||| 1 <<< ch.toNat = 0xFF) ∧ t.reports = s.reports) ∧
      (g.relockWait = [] → ∃ t r, exec (.culvertRelockDone d m ch false) s = .next t ∧
        (t.culvert k m.toNat).relock = none ∧ (t.culvert k m.toNat).live = g.live ∧ t.reports = s.reports ++ [r] ∧
        r.source = 0x0303) ∧
      (∀ c rest b, g.relockWait = c :: rest → c ≠ ch → c ∉ rest → g.live.getLsbD c.toNat = true →
        ∃ t, exec (.culvertRelockDone d m ch b) s = .next t ∧ (t.culvert k m.toNat).relock = some c ∧
          (t.culvert k m.toNat).relockWait = rest ∧ (t.culvert k m.toNat).live.getLsbD c.toNat = false ∧
          (t.culvert k m.toNat).live.getLsbD ch.toNat = (b || g.live.getLsbD ch.toNat)))) ∧
  (∀ (s : State) (d : Site) (m ch : BitVec 3) (feeds : List (Site × BitVec 3 × BitVec 3)),
    exec (.redundantLaserSwitch []) s = .next s ∧
    (s.siteOk d = false → exec (.redundantLaserSwitch ((d, m, ch) :: feeds)) s = exec (.redundantLaserSwitch feeds) s) ∧
    (s.siteOk d = true → ∃ t, exec (.culvertRelock d m ch) s = .next t ∧
      exec (.redundantLaserSwitch ((d, m, ch) :: feeds)) s = exec (.redundantLaserSwitch feeds) t) ∧
    (∃ t, exec (.redundantLaserSwitch feeds) s = .next t))

/-! ### Links between panels -/

/-- R245, R247, R249, R425: a port that is fused in, not yet trained and of an IOD that has not failed trains and learns its
peer. A port that is up and not keyed takes new keys, or, with an exchange that fails, stays without; one whose key is
worn takes new keys, its frames kept and its frame counters again 0. A failed lane in use stalls the port, counts, and is
reported as 0x0401; the port resumes on the other four lanes, its frames resent, or fails. On a port to which it does not
apply the event changes nothing. Completes: PORT_TRAINING, LINK_KEY_EXCHANGE, LINK_REKEY, LANE_FAIL, LANE_RETRAIN_DONE. -/
def Obligations.PortEvents : Prop :=
  ∀ (s : State) (n : BitVec 6),
    let q := s.port n.toNat
    let up : Prop := q.state = 2 ∨ q.state = 3
    let worn : Prop := 2 ^ 32 ≤ q.tx.count ∨ 2 ^ 32 ≤ q.rx.count
    (∀ panel port eight,
      let trains : Prop := q.fused = true ∧ q.state = 0 ∧ s.iodUp n.toNat = true
      (trains → exec (.portTraining n panel port eight) s = .next (s.setPort n.toNat { q with
        state := if eight then 2 else 3, half := if eight then 0 else 1, peerPanel := panel, peerPort := port })) ∧
      (¬ trains → exec (.portTraining n panel port eight) s = .next s)) ∧
    (up → q.keyed = false → ∃ t, exec (.linkKeyExchange n true) s = .next t ∧
      (t.port n.toNat).keyed = true ∧ (t.port n.toNat).state = q.state ∧ (t.port n.toNat).txq = q.txq) ∧
    (up → q.keyed = false → ∃ t, exec (.linkKeyExchange n false) s = .next t ∧ t.port n.toNat = q ∧
      t.cores = s.cores) ∧
    (¬ up ∨ q.keyed = true → ∀ ok, exec (.linkKeyExchange n ok) s = .next s) ∧
    (q.keyed = true → worn → ∃ t, exec (.linkRekey n) s = .next t ∧ (t.port n.toNat).keyed = true ∧
      (t.port n.toNat).tx.count = 0 ∧ (t.port n.toNat).rx.count = 0 ∧ (t.port n.toNat).txq = q.txq ∧
      (t.port n.toNat).replay = q.replay ∧ (t.port n.toNat).rxSeq = q.rxSeq) ∧
    (q.keyed = false ∨ ¬ worn → exec (.linkRekey n) s = .next s) ∧
    (∀ lane : BitVec 3,
      let used : Prop := q.half ≠ (if lane.toNat < 4 then 2 else 1)
      (up → used → ∃ t r, exec (.laneFail n lane) s = .next t ∧
        (t.port n.toNat).state = 1 ∧ (t.port n.toNat).half = (if lane.toNat < 4 then 2 else 1) ∧
        (t.port n.toNat).laneFail = satInc q.laneFail ∧ (t.port n.toNat).txq = q.txq ∧
        t.reports = s.reports ++ [r] ∧ r.source = 0x0401) ∧
      (¬ up ∨ ¬ used → exec (.laneFail n lane) s = .next s)) ∧
    (q.state = 1 → q.half ≠ 0 →
      exec (.laneRetrainDone n true) s =
        .next (s.setPort n.toNat { q with state := 3, resend := q.replay.head?.map (·.seq) }) ∧
      ∃ t r, exec (.laneRetrainDone n false) s = .next t ∧ (t.port n.toNat).state = 5 ∧ (t.port n.toNat).txq = [] ∧
        r ∈ t.reports ∧ r.source = 0x0402) ∧
    (q.state ≠ 1 ∨ q.half = 0 → ∀ b, exec (.laneRetrainDone n b) s = .next s)

/-- R246-R248, R251-R253: a frame time of a port that is up and keyed. It sends a frame: with nothing to resend and room in
the replay buffer a new one of at most 16 flits of its queue and of its oldest control message. The frame that comes in
order with its codes right is accepted: the expected SEQ moves on, and the packet for this panel whose last flit it brings
enters the mesh at one of the port's routers, its tag cleared in the header and kept for the checks. Any other frame is
discarded, and NAK goes back; the eighth failed attempt of one frame in a row fails the port. A port that is not up and
keyed does nothing. Completes: LINK_FRAME. -/
def Obligations.LinkFrames : Prop :=
  ∀ (s : State) (n : BitVec 6) (f : Frame),
    let q := s.port n.toNat
    let up : Prop := (q.state = 2 ∨ q.state = 3) ∧ q.keyed = true
    let codes : Prop := (q.injected f).1 = true ∧ (q.injected f).2.1 = true
    let good : Prop := codes ∧ f.seq = q.rxSeq
    (¬ up → exec (.linkFrame n f) s = .next s) ∧
    (up → good →
      ∃ t, exec (.linkFrame n f) s = .next t ∧ (t.port n.toNat).rxSeq = q.rxSeq + 1 ∧ (t.port n.toNat).nak = false ∧
        (t.port n.toNat).fails = 0 ∧ (t.port n.toNat).inject = none ∧ (t.port n.toNat).tx.count = q.tx.count + 1 ∧
        (t.port n.toNat).rx.count = q.rx.count + 1 ∧
        (f.slots = [] → t.routers = s.routers ∧ t.cores = s.cores) ∧
        (∀ chan cls p, f.slots = [⟨chan, cls, .flit p (linkFlits p)⟩] → pktHeaderOk p = true → p.cmp = none →
          s.panel.panelId ≠ 0xFFFF → p.dpanel = s.panel.panelId → s.shadowOf p.dpanel = none →
          (∀ i, s.destPart p = some i → (s.shadow i).role ≠ 1) →
          let c := s.attachCore n.toNat (pktTarget p)
          let home : BitVec 4 := BitVec.ofNat 4 ((s.destPart p).getD 0)
          let e := pktSeal { p with linkTag := 0, link := none, home, via := some (n, p.linkTag) }
          let queue (r : Router) : List Flit := r.buf 6 p.vc.toNat ++ tget [] r.wait (24 + p.vc.toNat)
          queue (t.router c) = queue (s.router c) ++ pktAllFlits e ∧ t.cores = s.cores)) ∧
    (up → ¬ good → ¬ (¬ codes ∧ f.seq = q.rxSeq ∧ 7 ≤ q.fails) → q.fails < 8 →
      ∃ t, exec (.linkFrame n f) s = .next t ∧ (t.port n.toNat).nak = true ∧ (t.port n.toNat).rxSeq = q.rxSeq ∧
        (f.seq ≠ q.rxSeq → (t.port n.toNat).fails = q.fails) ∧
        (f.seq = q.rxSeq → (t.port n.toNat).fails = q.fails + 1) ∧ t.routers = s.routers ∧ t.cores = s.cores ∧
        (q.resend = none → q.replay.length < replayRoom →
          ∃ slots : List LinkSlot, slots.length ≤ 16 ∧ (∀ x ∈ slots, x ∈ q.txq) ∧
            (t.port n.toNat).replay = q.replay ++ [⟨q.txSeq, slots, q.ctlOut.head?⟩] ∧
            (t.port n.toNat).ctlOut = q.ctlOut.drop 1 ∧ (t.port n.toNat).txSeq = q.txSeq + 1)) ∧
    (up → ¬ codes → f.seq = q.rxSeq → 7 ≤ q.fails →
      ∃ t r, exec (.linkFrame n f) s = .next t ∧ (t.port n.toNat).state = 5 ∧ (t.port n.toNat).txq = [] ∧
        r ∈ t.reports ∧ r.source = 0x0402 ∧ t.routers = s.routers)

/-- R205, R260-R263, R265, R266: the messages of the ring and of the ports' control slots. Each is acted on once; one that has
been seen goes on round the ring, and the origin takes its own away. At the root, or at a node of the tree, an ARRIVE
counts its panel; with the last the root releases its own members and sends RELEASE, a node passes ARRIVE up; with the
determinism-lost flag the release is withheld. A RELEASE releases a group whose own arrivals are in, and goes down the
tree; a shadow keeps it until they are. An abort token goes on over every live port but the one it came from, and over the
ring, and ends the job of the partition that is bound to its group. A digest window that is closed is compared, another
waits. A heartbeat back at its origin brings the ring up, another counts this panel; messages that are still out are
resent; the ring goes down. Completes: ARRIVE, RELEASE, ABORT_TOKEN, DIGEST, HEARTBEAT, RING_RESEND, RING_DOWN. -/
def Obligations.RingEvents : Prop :=
  ∀ (s : State) (m : RingMsg) (via : Option (BitVec 6)) (ticks : BitVec 64),
    let own : Prop := m.origin = s.panel.panelId
    let seen : Prop := (m.origin, m.seq) ∈ s.ring.seen
    let up : Prop := s.ring.state ≠ 0
    let back (k : RingKind) : State := if via.isNone then s.ringReturn k m else s
    (∃ t, exec (.arrive m via ticks) s = .next t) ∧ (∃ t, exec (.release m via) s = .next t) ∧
    (∃ t, exec (.abortToken m via) s = .next t) ∧ (∃ t, exec (.digest m) s = .next t) ∧
    (own ∨ seen → exec (.arrive m via ticks) s = .next (back .arrive) ∧ exec (.release m via) s = .next (back .release) ∧
      exec (.abortToken m via) s = .next (back .abort) ∧ exec (.digest m) s = .next (s.ringReturn .digest m)) ∧
    (∀ k, (own → (s.ringReturn k m).ring.own = s.ring.own.filter fun e => !(decide (e.1 = k) && e.2.seq == m.seq)) ∧
      (¬ own → up → (s.ringReturn k m).ring.forwarded.head? = some (k, m))) ∧
    (¬ own → ¬ seen →
      (∀ g gb, s.msgGroup m = some g → (s.part (s.group g).part.toNat).bound = some gb →
        let b := s.group g
        let counts : Prop := (gb.tree.isSome = true ∨ gb.root = s.panel.panelId) ∧ m.origin ∉ b.panelsIn
        let mine : Prop := b.pending = 0 ∧ b.arrivedDies ≠ []
        let last : Prop := s.arrivesNeeded gb ≤ b.panelsIn.length + 1
        let held : Prop := s.withholds b.part.toNat = true
        let shadow : Prop := s.isShadow b.part.toNat = true
        let released (t : State) : Prop := (t.group g).gen = b.gen + 1 ∧ (t.group g).releasing = s.members g ∧ t.cores = s.cores
        let arrives (ok : State → Prop) : Prop := ∃ t, exec (.arrive m via ticks) s = .next t ∧ ok t
        let releases (ok : State → Prop) : Prop := ∃ t, exec (.release m via) s = .next t ∧ ok t
        (¬ counts → arrives fun t => t.groups = s.groups ∧ t.cores = s.cores) ∧
        (counts → b.pending ≠ 0 ∨ (mine ∧ ¬ held ∧ ¬ shadow ∧ ¬ last) → arrives fun t =>
          (t.group g).panelsIn = b.panelsIn ++ [m.origin] ∧ (t.group g).gen = b.gen ∧ (t.group g).lastTick = ticks ∧
          (t.group g).releasing = b.releasing ∧ (gb.root = s.panel.panelId → (t.group g).panel = m.origin) ∧
          t.cores = s.cores) ∧
        (counts → mine → held → arrives fun t => (t.group g).gen = b.gen ∧ (t.group g).detHold = true) ∧
        (counts → mine → ¬ held → ¬ shadow →
          (gb.tree = none → gb.root = s.panel.panelId → arrives fun t => last → released t ∧
            (up → ∃ e ∈ t.ring.own, e.1 = .release ∧ e.2.group = gb.group ∧ e.2.epoch = gb.epoch ∧ e.2.gen = b.gen)) ∧
          (∀ down, gb.tree = some (none, down) → last → arrives fun t => released t ∧
            ∀ p ∈ down, ∃ e ∈ (t.port p).ctlOut, e.1 = .release ∧ e.2.group = gb.group ∧ e.2.gen = b.gen) ∧
          (∀ u down, gb.tree = some (some u, down) → last → arrives fun t => (t.group g).gen = b.gen ∧
            ∃ e, (t.port u).ctlOut = (s.port u).ctlOut ++ [e] ∧ e.1 = .arrive ∧ e.2.origin = s.panel.panelId ∧
              e.2.group = gb.group ∧ e.2.gen = b.gen)) ∧
        (mine → ¬ held → releases released) ∧
        (mine → held → releases fun t => (t.group g).gen = b.gen ∧ (t.group g).detHold = true) ∧
        (¬ mine → shadow → releases fun t => (t.group g).releaseIn = true ∧ (t.group g).gen = b.gen) ∧
        (¬ mine → ¬ shadow → releases fun t => t.groups = s.groups) ∧
        (∀ u down, gb.tree = some (u, down) → releases fun t => ∀ p ∈ down, (.release, m) ∈ (t.port p).ctlOut)) ∧
      (∃ t, exec (.abortToken m via) s = .next t ∧
        (∀ n, s.boundPart m = some n → (s.part n).state.hasJob = true → (t.part n).state = .idle) ∧
        (s.boundPart m = none → t.parts = s.parts ∧ t.cores = s.cores) ∧
        (∀ p : BitVec 6, ((s.port p.toNat).state = 2 ∨ (s.port p.toNat).state = 3) → via ≠ some p →
          (.abort, m) ∈ (t.port p.toNat).ctlOut) ∧
        (s.boundPart m = none → ∀ p : BitVec 6, via = some p → (t.port p.toNat).ctlOut = (s.port p.toNat).ctlOut)) ∧
      (∀ n, s.boundPart m = some n → (s.shadow n).role = 2 →
        (∀ e, (s.shadow n).closed = [e] → e.1 = m.gen → ∃ t, exec (.digest m) s = .next t ∧
          (t.shadow n).windows = satInc (s.shadow n).windows ∧ (t.shadow n).closed = [] ∧
          (e.2 = m.sum → (t.shadow n).mismatch = (s.shadow n).mismatch) ∧
          (e.2 ≠ m.sum → (t.shadow n).mismatch = satInc (s.shadow n).mismatch)) ∧
        ((s.shadow n).closed = [] → ∃ t, exec (.digest m) s = .next t ∧
          (t.shadow n).peerSums = (s.shadow n).peerSums ++ [(m.gen, m.sum)]))) ∧
    (up → own → ∃ t, exec (.heartbeat m) s = .next t ∧ t.ring.state = 2 ∧ t.ring.panels = m.panels ∧
      t.ring.circuit = m.circuit ∧ t.ring.joining = [] ∧
      t.ring.own = s.ring.own.filter (fun e => !(decide (e.1 = .heartbeat) && e.2.seq == m.seq))) ∧
    (up → ¬ own → ∃ t, exec (.heartbeat m) s = .next t ∧
      t.ring.forwarded.head? = some (.heartbeat, { m with panels := m.panels + 1 }) ∧ t.ring.state = s.ring.state) ∧
    (up → exec .ringResend s =
      .next { s with ring := { s.ring with resends := satInc s.ring.resends s.ring.own.length } }) ∧
    (up → exec .ringDown s = .next { s with ring := { s.ring with state := 3 } }) ∧
    (¬ up → exec (.heartbeat m) s = .next s ∧ exec .ringResend s = .next s ∧ exec .ringDown s = .next s)

/-! ### Commands -/

/-- R280, R284, R286, R291, R303, R427: a command that the panel does not hear changes nothing. One that the panel hears and
that one of the shared reasons refuses gets that status and its DETAIL, a failed authorisation is recorded, and nothing
else changes; one that needs no session right and has a nonzero reserved byte is refused as well. A wait command beyond
the 128 of a host die gets 0x0009. -/
def Obligations.CommandsAreRefused : Prop :=
  ∀ (s : State) (h : Cmd) (a b : Reg64) (len w : Word) (i j : BitVec 16) (x y z v : BitVec 8) (l : List Byte) (d : Site)
    (m : BitVec 4) (u : BringUp),
    (∀ e ∈ [(Instr.panelIdSet h i true, 0x0901), (.routeWrite h a len, 0x0902), (.groupBind h i j i false a len, 0x0903),
        (.groupUnbind h, 0x0904), (.ringJoin h, 0x0905), (.ringLeave h, 0x0906), (.shadowBind h x i y z v, 0x0907),
        (.portRead h a len, 0x0908), (.panelInfo h a len, 0x0101), (.queueCreate h x y z a b, 0x0102),
        (.queueDelete h x, 0x0103), (.partCreate h x y z v, 0x0201), (.partDestroy h, 0x0202), (.partReset h, 0x0203),
        (.partQuery h, 0x0204), (.jobLoad h a len false, 0x0301), (.jobStart h w, 0x0302), (.jobAbort h i, 0x0303),
        (.jobWait h, 0x0304), (.ckptWait h, 0x0305), (.ckptRelease h, 0x0306), (.jobEnd h, 0x0307), (.logWait h, 0x0308),
        (.flumeList h a len, 0x0401), (.flumeStats h i, 0x0402), (.memRead h a b len, 0x0501), (.memWrite h a b len, 0x0502),
        (.faultRead h a len w false, 0x0601), (.faultClear h w, 0x0602), (.eventWait h w, 0x0603),
        (.recRead h a len x, 0x0604), (.recClear h, 0x0605), (.inject h x y i j z, 0x0606), (.identity h a len, 0x0701),
        (.attest h a len x l, 0x0702), (.sessionOpen h a i j, 0x0703), (.sessionAuth h a len, 0x0704),
        (.sessionClose h, 0x0705), (.sealOffer h a len l, 0x0706), (.sealAccept h a len, 0x0707),
        (.powerRead h a len, 0x0801), (.powerLimit h i, 0x0802), (.thermalRead h a len, 0x0803), (.lifeRead h a len, 0x0804),
        (.powerMode h x, 0x0805), (.fwUpdate h a len, 0x0A01), (.cfgWrite h a len, 0x0A02), (.cfgRead h a len false, 0x0A03),
        (.panelResetWarm h u, 0x0A04), (.panelResetCold h u, 0x0A04), (.dieResetDie h d m, 0x0A05),
        (.dieResetCore h d i, 0x0A05), (.retire h d x i, 0x0A06), (.regReadPhys h a b len, 0x0A07)],
      (s.hears h.origin = false → exec e.1 s = .next s) ∧
      (∀ st detail, s.hears h.origin = true → s.refusal h (gateOf e.2) = some (st, detail) →
        exec e.1 s = .next
          ((if st = 0x0006 then s.recordKind 0x0A (bytesOf 4 h.session.toNat) else s).answer h st detail)) ∧
      (s.hears h.origin = true → s.refusal h (gateOf e.2) = none → (gateOf e.2).right = none → h.bad.isSome = true →
        ∃ st detail, st ≠ 0x0000 ∧ st ≠ 0x0006 ∧ exec e.1 s = .next (s.answer h st detail) ∨
          exec e.1 s = .next ((s.recordKind 0x0A (bytesOf 4 h.session.toNat)).answer h 0x0006 detail))) ∧
    (128 ≤ s.waitCount h.origin →
      (s.takes h 0x0304 → exec (.jobWait h) s = .next (s.answer h 0x0009)) ∧
      (s.takes h 0x0305 → exec (.ckptWait h) s = .next (s.answer h 0x0009)) ∧
      (s.takes h 0x0308 → (s.part h.part.toNat).logs = [] → exec (.logWait h) s = .next (s.answer h 0x0009)))

/-- R275, R278, R281, R283, R303: the reply to a command of a host queue that has room in the DMA window: 32 bytes at the
reply queue's tail, with TAG, STATUS, PART and DETAIL in their places, and the tail moves on; without room it is held; of
a deleted pair or a cut host die there is none. The management port gets its reply as a message. Output is stored where
the command asks when that lies in the DMA window, else the status is 0x0007; on the management port it goes with the
response. -/
def Obligations.RepliesAreWritten : Prop :=
  ∀ (s : State) (h : Cmd) (st : BitVec 16) (detail : List Byte), h.silent = false →
    (∀ b, h.origin = .host b →
      let p := (s.host b).pair h.queue
      let t := s.answer h st detail
      let at_ (i n : Nat) : List Byte := t.hostBytes b (p.rqBase.toNat + 32 * p.rqTail + i) n
      (h.intr = false → p.valid = true → (s.host b).cut = false → p.heldReplies = [] → s.replyRoom b h.queue = true →
        at_ 0 4 = bytesOf 4 h.tag.toNat ∧ at_ 4 2 = bytesOf 2 st.toNat ∧ at_ 9 1 = [h.part] ∧
        (detail.length = 20 → at_ 12 20 = detail) ∧
        ((t.host b).pair h.queue).unfreed = p.unfreed + 1 ∧
        (p.rqTail + 1 < 2 ^ p.rqLog2 → ((t.host b).pair h.queue).rqTail = p.rqTail + 1 ∧
          ((t.host b).pair h.queue).phase = p.phase) ∧
        (p.rqTail + 1 = 2 ^ p.rqLog2 → ((t.host b).pair h.queue).rqTail = 0 ∧
          ((t.host b).pair h.queue).phase = !p.phase) ∧
        t.mem = s.mem ∧ t.cores = s.cores) ∧
      (p.valid = true → (s.host b).cut = false → p.heldReplies ≠ [] ∨ s.replyRoom b h.queue = false →
        ∃ r, ((t.host b).pair h.queue).heldReplies = p.heldReplies ++ [r] ∧ r.tag = h.tag ∧ r.status = st ∧
          r.detail = detail ∧ t.hostMem = s.hostMem ∧ t.mem = s.mem) ∧
      (p.valid = false ∨ (s.host b).cut = true → t.hostMem = s.hostMem ∧ t.mem = s.mem)) ∧
    (h.origin = .mgmt → ∀ data, ∃ r, (s.answer h st detail data).mgmtOut = (r, data) :: s.mgmtOut ∧ r.tag = h.tag ∧
      r.status = st ∧ r.detail = detail ∧ (s.answer h st detail data).hostMem = s.hostMem) ∧
    (∀ a len data,
      (∀ b, h.origin = .host b →
        (s.dmaOk b a data.length = true →
          s.deliver h a len data detail = (s.hostStore b a data).answer h 0x0000 detail) ∧
        (s.dmaOk b a data.length = false → s.deliver h a len data detail = s.answer h 0x0007)) ∧
      (h.origin = .mgmt →
        (a ≠ 0 → s.deliver h a len data detail = s.answer h 0x0002 (bytesOf 2 16)) ∧
        (a = 0 → 60 * 1024 < max data.length len → s.deliver h a len data detail = s.answer h 0x0009) ∧
        (a = 0 → max data.length len ≤ 60 * 1024 →
          s.deliver h a len data detail = s.answer h 0x0000 detail data)))

/-- R37, R250, R253, R261, R265, R267, R286, R432: the inter-panel commands, once the panel takes them. The identity is set
until it is locked; route records are checked, all before any is kept; a partition is bound to and unbound from a group;
the bypass opens, is told of no circuit, and closes; a shadow is bound and unbound; the port registers are read out. Each
with the status of what is wrong: a state that does not allow it 0x0005, a bad field 0x0002, input that cannot be read
0x0007. Completes: PANEL_ID_SET, ROUTE_WRITE, GROUP_BIND, GROUP_UNBIND, RING_JOIN, RING_JOIN_TIMEOUT, RING_LEAVE,
SHADOW_BIND, PORT_READ. -/
def Obligations.LinkCommandResults : Prop :=
  ∀ (s : State) (h : Cmd) (addr : Reg64) (len : Word),
    let n := h.part.toNat
    let p := s.part n
    let bad (o : Nat) : Host.Outcome State Fault Refusal := .next (s.answer h 0x0002 (bytesOf 2 o))
    (∀ id lock, s.takes h 0x0901 →
      (s.panel.idLock = true → exec (.panelIdSet h id lock) s = .next (s.answer h 0x0005)) ∧
      (s.panel.idLock = false → id = 0xFFFF → exec (.panelIdSet h id lock) s = bad 16) ∧
      (s.panel.idLock = false → id ≠ 0xFFFF → exec (.panelIdSet h id lock) s =
        .next ((s.onPanel fun p => { p with panelId := id, idLock := lock }).answer h 0 (bytesOf 2 id.toNat)))) ∧
    (s.takes h 0x0902 →
      (s.routesFree = false → exec (.routeWrite h addr len) s = .next (s.answer h 0x0005)) ∧
      (s.routesFree = true → len.toNat % 8 ≠ 0 → exec (.routeWrite h addr len) s = bad 24) ∧
      (s.routesFree = true → len.toNat % 8 = 0 → s.input h addr.toNat len.toNat = none →
        exec (.routeWrite h addr len) s = .next (s.answer h 0x0007)) ∧
      (∀ bs, s.routesFree = true → len.toNat % 8 = 0 → s.input h addr.toNat len.toNat = some bs →
        let rs := pieces 8 bs.length bs
        (rs.all s.routeOk = false → exec (.routeWrite h addr len) s = bad 16) ∧
        (rs.all s.routeOk = true → exec (.routeWrite h addr len) s =
          .next ((s.onPanel fun p => rs.foldl Panel.route p).answer h 0 (bytesOf 4 rs.length))))) ∧
    (∀ group epoch root tree, s.takes h 0x0903 →
      let want : Nat := if tree = true then 64 else 0
      let input := if tree = true then s.input h addr.toNat len.toNat else some []
      let other : Prop := p.secrets.isSome = true ∧
        ∃ q ∈ s.routePorts, ∃ g, (s.port q).sealedGroup = some g ∧ g ≠ group
      (len.toNat ≠ want → exec (.groupBind h group epoch root tree addr len) s = bad 32) ∧
      (len.toNat = want → input = none → exec (.groupBind h group epoch root tree addr len) s = .next (s.answer h 0x0007)) ∧
      (∀ bs, len.toNat = want → input = some bs →
        (tree = true → treeOk bs = false → exec (.groupBind h group epoch root tree addr len) s = bad 24) ∧
        (tree = false ∨ treeOk bs = true → other →
          exec (.groupBind h group epoch root tree addr len) s = .next (s.answer h 0x0009)) ∧
        (tree = false ∨ treeOk bs = true → ¬ other → ∃ (t : State) (detail : List Byte),
          exec (.groupBind h group epoch root tree addr len) s = .next (t.answer h 0 detail) ∧
          (t.part n).bound = some ⟨group, epoch, root, bs⟩ ∧ (t.part n).state = p.state ∧ t.mem = s.mem ∧
          (p.secrets = none → t.ports = s.ports)))) ∧
    (s.takes h 0x0904 → ∃ t : State, exec (.groupUnbind h) s = .next (t.answer h 0) ∧ (t.part n).bound = none ∧
      (t.part n).state = p.state ∧ t.mem = s.mem ∧ (p.secrets = none → t = s.setPart n { p with bound := none })) ∧
    (s.takes h 0x0905 → ∃ t, exec (.ringJoin h) s = .next t ∧ t.ring.joining = s.ring.joining ++ [h] ∧
      t.ring.state = (if s.ring.state = 2 then 2 else 1) ∧ t.parts = s.parts ∧
      ∃ m, t.ring.own = s.ring.own ++ [(.heartbeat, m)] ∧ m.origin = s.panel.panelId ∧ m.panels = 1) ∧
    (h ∈ s.ring.joining → ∃ t : State, exec (.ringJoinTimeout h) s = .next (t.answer h 0) ∧ t.ring.state = 3 ∧
      t.ring.joining = eraseOne h s.ring.joining) ∧
    (h ∉ s.ring.joining → exec (.ringJoinTimeout h) s = .next s) ∧
    (s.takes h 0x0906 → ∃ t, exec (.ringLeave h) s = .next t ∧ t.ring.state = 0 ∧ t.ring.own = [] ∧
      t.ring.joining = [] ∧ t.mem = s.mem) ∧
    (∀ role peer (peerPart mirror digest : BitVec 8), s.takes h 0x0907 →
      let i := Instr.shadowBind h role peer peerPart mirror digest
      let wrong : Prop := (role ≠ 0 ∧ p.bound = none) ∨ (role = 2 ∧ Config.peerShape peer peerPart ≠ (p.rows, p.cols))
      (wrong → exec i s = .next (s.answer h 0x0005)) ∧
      (¬ wrong → 2 < role.toNat → exec i s = bad 16) ∧
      (¬ wrong → role.toNat ≤ 2 → role ≠ 0 → 16 ≤ peerPart.toNat → exec i s = bad 19) ∧
      (¬ wrong → role = 1 → peerPart.toNat < 16 → 64 ≤ mirror.toNat → exec i s = bad 20) ∧
      (¬ wrong → role = 1 ∨ role = 2 → peerPart.toNat < 16 → (role = 1 → mirror.toNat < 64) →
        ∃ t : State, exec i s = .next (t.answer h 0) ∧ t.shadow n =
          { role := role.setWidth 2, peer, peerPart, mirrorPort := mirror, digestGroup := digest } ∧
          (∀ q, q ≠ n → t.shadow q = s.shadow q) ∧ t.parts = s.parts) ∧
      (role = 0 → ∃ t : State, exec i s = .next (t.answer h 0) ∧ t.shadow n = {} ∧ t.parts = s.parts)) ∧
    (s.takes h 0x0908 → exec (.portRead h addr len) s =
      .next (s.deliverBytes h addr len ((List.range 64).flatMap fun m =>
        bytesOf 8 (s.port m).reg.toNat ++ bytesOf 8 (s.port m).errReg.toNat)))

/-- R271, R274, R277-R279, R282, R283: queues: ENABLE with good sizes and bases makes the administration pair anew, others set
the error flag, and ENABLE = 0 deletes it. A doorbell moves the tail on, and one that passes the queue or the head is
ignored and counted; freed reply entries are counted, and a held reply is then written. A fetch takes the commands of the
queue whose turn it is: they stand in execution with the head past them, an ORDERED one not before the earlier ones of its
queue have replied. A control-core pair that miscompares is stopped, its roles go to other pairs, and it is reported as
0x0601; a host link that falls back to one module is reported as 0x0604, and one that loses both is cut, its wait commands
forgotten. What does not apply changes nothing. Completes: ADMIN_QUEUE_CREATE, ADMIN_QUEUE_DELETE, SQ_DOORBELL,
RQ_DOORBELL, COMMAND_FETCH, PAIR_MISCOMPARE, HOST_LINK_DEGRADE. -/
def Obligations.QueuesAndDoorbells : Prop :=
  ∀ (s : State) (b : Bool) (q : BitVec 4) (v : Reg64),
    let h := s.host b
    let p := h.pair q
    let base := v.toNat % 2 ^ 48
    let size := v.toNat / 2 ^ 48 % 16
    let rbase := h.admRq.toNat % 2 ^ 48
    let rsize := h.admRq.toNat / 2 ^ 48 % 16
    let good : Prop := 4 ≤ size ∧ size ≤ rsize ∧ rsize ≤ 12 ∧ base % 4096 = 0 ∧ rbase % 4096 = 0
    (good → ∃ t, exec (.adminQueueCreate b v) s = .next t ∧ (t.host b).admErr = false ∧
      (t.host b).pair 0 = { valid := true, sqBase := BitVec.ofNat 64 base, sqLog2 := size,
                            rqBase := BitVec.ofNat 64 rbase, rqLog2 := rsize } ∧ t.mem = s.mem) ∧
    (¬ good → ∃ t, exec (.adminQueueCreate b v) s = .next t ∧ (t.host b).admErr = true ∧
      (t.host b).queues = h.queues ∧ t.mem = s.mem) ∧
    (∃ t, exec (.adminQueueDelete b v) s = .next t ∧ (t.host b).pair 0 = {} ∧ t.mem = s.mem) ∧
    (let open_ : Prop := h.ready = true ∧ h.cut = false ∧ p.valid = true
     let tail := v.toNat % 2 ^ 12
     let passes : Prop := 2 ^ p.sqLog2 ≤ tail ∨ ({ p with tail := tail } : QPair).waiting < p.waiting
     let left := p.unfreed - min p.unfreed ((tail + 2 ^ p.rqLog2 - p.rqHead) % 2 ^ p.rqLog2)
     (¬ open_ → exec (.sqDoorbell b q v) s = .next s ∧ exec (.rqDoorbell b q v) s = .next s) ∧
     (open_ → passes → exec (.sqDoorbell b q v) s = .next (s.setHost b { h with badTails := h.badTails + 1 })) ∧
     (open_ → ¬ passes → exec (.sqDoorbell b q v) s = .next (s.setHost b (h.setPair q { p with tail := tail }))) ∧
     (open_ → 2 ^ p.rqLog2 ≤ tail → exec (.rqDoorbell b q v) s = .next s) ∧
     (open_ → tail < 2 ^ p.rqLog2 →
       let freed := s.setHost b (h.setPair q { p with rqHead := tail, unfreed := left })
       (p.heldReplies = [] ∨ freed.replyRoom b q = false → exec (.rqDoorbell b q v) s = .next freed) ∧
       (∀ r, p.heldReplies = [r] → freed.replyRoom b q = true → r.intr = false →
         ∃ t, exec (.rqDoorbell b q v) s = .next t ∧ ((t.host b).pair q).heldReplies = [] ∧
           ((t.host b).pair q).rqHead = tail ∧ ((t.host b).pair q).unfreed = left + 1 ∧
           t.hostMem = memWrite s.hostMem (hostKey b (p.rqBase.toNat + 32 * p.rqTail)) (r.bytes p.phase)) ∧
       (∃ t, exec (.rqDoorbell b q v) s = .next t ∧ ((t.host b).pair q).rqHead = tail ∧ t.mem = s.mem))) ∧
    (let bytes := s.hostBytes b (p.sqBase.toNat + 64 * p.head) 64
     let head := (p.head + 1) % 2 ^ p.sqLog2
     let c := cmdOf (.host b) q head bytes
     let turn : Prop := s.fetchTurn = some (16 * b2n b + q.toNat)
     let next := (16 * b2n b + q.toNat + 1) % 32
     (¬ turn → exec (.commandFetch b q) s = .next s) ∧
     (turn → ∃ t, exec (.commandFetch b q) s = .next t ∧ t.panel.fetchNext = next ∧ t.hostMem = s.hostMem ∧
       t.mem = s.mem ∧ t.cores = s.cores) ∧
     (turn → c.ordered = true → p.started ≠ [] →
       exec (.commandFetch b q) s = .next (s.onPanel fun p => { p with fetchNext := next })) ∧
     (turn → c.ordered = false ∨ p.started = [] → p.waiting = 1 → 1 ≤ p.sqLog2 → p.head < 2 ^ p.sqLog2 →
       ∃ t, exec (.commandFetch b q) s = .next t ∧ ((t.host b).pair q).head = head ∧
         ((t.host b).pair q).started = p.started ++ [(head, bytes)] ∧ t.fetched = s.fetched ++ [(c, bytes)])) ∧
    (∀ pair : BitVec 3,
      (pair ∈ s.panel.deadPairs → exec (.pairMiscompare pair) s = .next s) ∧
      (pair ∉ s.panel.deadPairs →
        ∃ t, exec (.pairMiscompare pair) s = .next t ∧ t.panel.deadPairs = s.panel.deadPairs ++ [pair] ∧
          some pair ∉ t.panel.roles ∧ t.panel.roles = (s.panel.moveRoles pair).roles ∧
          (s.faults.length < 4000 → ∃ f ∈ t.faults, f.source = 0x0601 ∧ f.unit = pair.setWidth 16))) ∧
    (h.oneMod = true → exec (.hostLinkDegrade b false) s = .next s) ∧
    (h.oneMod = false → ∃ t, exec (.hostLinkDegrade b false) s = .next t ∧ (t.host b).oneMod = true ∧
      (s.faults.length < 4000 → ∃ f ∈ t.faults, f.source = 0x0604) ∧ t.parts = s.parts ∧ t.mem = s.mem) ∧
    (∃ t, exec (.hostLinkDegrade b true) s = .next t ∧ (t.host b).cut = true ∧
      t.waiters = s.waiters.filter (fun w => decide (w.2.origin ≠ .host b)) ∧ t.mem = s.mem)

/-- R275, R278, R284-R286, R288, R432: panel information, queue pairs and partitions. A created queue pair is valid and empty,
a deleted one is gone, with the numbers of its commands in the reply; a created partition takes the lowest free number, is
Idle, its dies assigned to it and its owner the sender; a destroyed one is free; a query tells its state and place. Each
with the status of what is wrong. Completes: PANEL_INFO, QUEUE_CREATE, QUEUE_DELETE, PART_CREATE, PART_DESTROY,
PART_QUERY. -/
def Obligations.PartitionCommands : Prop :=
  ∀ (s : State) (h : Cmd) (b : Bool) (addr : Reg64) (len : Word),
    let n := h.part.toNat
    let bad (o : Nat) : Host.Outcome State Fault Refusal := .next (s.answer h 0x0002 (bytesOf 2 o))
    (s.takes h 0x0101 → exec (.panelInfo h addr len) s = .next (s.deliverBytes h addr len s.panelBlock)) ∧
    (∀ (q sq rq : BitVec 8) (sb rb : Reg64), s.takes h 0x0102 → h.origin = .host b →
      let i := Instr.queueCreate h q sq rq sb rb
      let free : Prop := 0 < q.toNat ∧ q.toNat < 16 ∧ ((s.host b).pair (BitVec.ofNat 4 q.toNat)).valid = false
      let sqOk : Prop := 4 ≤ sq.toNat ∧ sq.toNat ≤ 12
      let rqOk : Prop := sq.toNat ≤ rq.toNat ∧ rq.toNat ≤ 12
      let window : Prop := s.dmaOk b sb.toNat (64 * 2 ^ sq.toNat) = true ∧ s.dmaOk b rb.toNat (32 * 2 ^ rq.toNat) = true
      (¬ free → exec i s = bad 16) ∧ (free → ¬ sqOk → exec i s = bad 17) ∧ (free → sqOk → ¬ rqOk → exec i s = bad 18) ∧
      (free → sqOk → rqOk → sb.toNat % 4096 ≠ 0 → exec i s = bad 24) ∧
      (free → sqOk → rqOk → sb.toNat % 4096 = 0 → rb.toNat % 4096 ≠ 0 → exec i s = bad 32) ∧
      (free → sqOk → rqOk → sb.toNat % 4096 = 0 → rb.toNat % 4096 = 0 → ¬ window → exec i s = .next (s.answer h 0x0007)) ∧
      (free → sqOk → rqOk → sb.toNat % 4096 = 0 → rb.toNat % 4096 = 0 → window →
        exec i s = .next ((s.setHost b ((s.host b).setPair (BitVec.ofNat 4 q.toNat)
          { valid := true, sqBase := sb, sqLog2 := sq.toNat, rqBase := rb, rqLog2 := rq.toNat })).answer h 0))) ∧
    (∀ q : BitVec 8, s.takes h 0x0103 → h.origin = .host b →
      let p := (s.host b).pair (BitVec.ofNat 4 q.toNat)
      let mine : Prop := q.toNat < 16 ∧ BitVec.ofNat 4 q.toNat ≠ h.queue ∧ p.valid = true
      (¬ mine → exec (.queueDelete h q) s = bad 16) ∧
      (mine → ∃ t : State, exec (.queueDelete h q) s =
        .next (t.answer h 0 (bytesOf 4 p.waiting ++ bytesOf 4 p.started.length)) ∧
        (t.host b).pair (BitVec.ofNat 4 q.toNat) = {} ∧ t.mem = s.mem)) ∧
    (∀ (row col rows cols : BitVec 8), s.takes h 0x0201 → h.origin = .host b →
      let i := Instr.partCreate h row col rows cols
      let ok : Prop := s.rectOk row.toNat col.toNat rows.toNat cols.toNat = true
      (¬ ok → exec i s = .next (s.answer h 0x0005)) ∧
      (ok → rows = 0 → exec i s = bad 18) ∧ (ok → rows ≠ 0 → cols = 0 → exec i s = bad 19) ∧
      (ok → rows ≠ 0 → cols ≠ 0 → (∀ m, m < 16 → (s.part m).state ≠ .free) → exec i s = .next (s.answer h 0x0009)) ∧
      (∀ m, ok → rows ≠ 0 → cols ≠ 0 → m < 16 → (s.part m).state = .free → (∀ i, i < m → (s.part i).state ≠ .free) →
        ∃ t : State, exec i s = .next (t.answer h 0 [BitVec.ofNat 8 m]) ∧
          (t.part m).state = .idle ∧ (t.part m).owner = b ∧ (t.part m).row = row.toNat ∧ (t.part m).col = col.toNat ∧
          (t.part m).rows = rows.toNat ∧ (t.part m).cols = cols.toNat ∧ (t.part m).img = {} ∧
          (∀ i, i ≠ m → t.part i = s.part i) ∧ t.mem = s.mem ∧
          ∀ d ∈ t.partSites m, (t.die d).part = BitVec.ofNat 4 m ∧ (t.die d).assigned = true ∧ (t.die d).net = .idle)) ∧
    (s.takes h 0x0202 → ∃ t, exec (.partDestroy h) s = .next t ∧ t.part n = {} ∧ t.shadow n = {} ∧
      (∀ i, i ≠ n → t.part i = s.part i) ∧ t.mem = s.mem) ∧
    (s.takes h 0x0204 → ∃ d, exec (.partQuery h) s = .next (s.answer h 0 d) ∧ d.length = 8 ∧
      d[0]? = some (BitVec.ofNat 8 (s.part n).state.code) ∧ d[1]? = some (s.partJob n) ∧
      d[2]? = some (BitVec.ofNat 8 (s.part n).rows) ∧ d[3]? = some (BitVec.ofNat 8 (s.part n).cols) ∧
      d[4]? = some (BitVec.ofNat 8 (s.part n).row) ∧ d[5]? = some (BitVec.ofNat 8 (s.part n).col))

/-- R284-R286, R289, R294-R296, R301, R432: a load that must wait waits; one that need not is refused with the state, host
memory or image that does not allow it, or makes the partition Loading, or Loaded at once when no bank waits. A start of a
Loaded job runs every placed core from its entry; a multi-panel job of an unbound partition is refused. A wait command
waits; a LOG_WAIT with a record there takes the oldest. Completes: JOB_LOAD, JOB_START, JOB_WAIT, CKPT_WAIT, LOG_WAIT. -/
def Obligations.JobsLoadAndStart : Prop :=
  ∀ (s : State) (h : Cmd),
    let n := h.part.toNat
    let p := s.part n
    (∀ addr len hold, s.takes h 0x0301 →
      let i := Instr.jobLoad h addr len hold
      let gated : Prop := s.panel.pstate = .regionGated ∨ s.panel.pstate = .standby
      let window : Prop := s.dmaOk p.owner addr.toNat len.toNat = true
      let s1 := s.leaveIdle
      let st := s1.imageStatus n (s1.hostBytes p.owner addr.toNat len.toNat)
      completes (exec i s) ∧
      (s.loadBlocked n = true → ∃ t, exec i s = .next t ∧
        (t.part n).loadWait = p.loadWait ++ [({ h, addr, len, hold } : LoadReq)] ∧ (t.part n).state = p.state ∧
        t.mem = s.mem) ∧
      (p.loadWait = [] → s.loadBlocked n = false →
        (gated → ∃ t : State, exec i s = .next (t.answer h 0x0005) ∧ t.parts = s.parts) ∧
        (¬ gated → ¬ window → ∃ t : State, exec i s = .next (t.answer h 0x0007) ∧ t.parts = s.parts) ∧
        (¬ gated → window → st.1 ≠ 0 → ∃ t : State, exec i s = .next (t.answer h st.1 st.2) ∧ t.parts = s.parts) ∧
        (¬ gated → window → st.1 = 0 → ∃ t, exec i s = .next t ∧
          ((t.part n).state = .loading ∨ (t.part n).state = .loaded) ∧ (t.part n).hold = hold ∧ (t.part n).ended = none ∧
          (t.part n).owner = p.owner))) ∧
    (∀ limit, s.takes h 0x0302 →
      (p.img.multi = true → p.bound = none →
        exec (.jobStart h limit) s = .next (s.answer h 0x0005 [BitVec.ofNat 8 p.state.code, 0])) ∧
      (p.img.multi = false ∨ p.bound.isSome = true →
        ∃ t : State, exec (.jobStart h limit) s = .next (t.answer h 0) ∧ (t.part n).state = .running ∧
          (t.part n).limit = limit ∧ (t.part n).phase = 0 ∧ t.mem = s.mem ∧
          (∀ c ∈ s.placedCores n, t.core c = { s.core c with mode := .run, wait := .none, exitValid := false }) ∧
          (∀ c, c ∉ s.placedCores n → t.core c = s.core c) ∧
          (∀ d ∈ s.partSites n, (t.die d).net = .running))) ∧
    (s.waitCount h.origin < 128 →
      (s.takes h 0x0304 → exec (.jobWait h) s = .next { s with waiters := s.waiters ++ [(.job, h)] }) ∧
      (s.takes h 0x0305 → exec (.ckptWait h) s = .next { s with waiters := s.waiters ++ [(.checkpoint, h)] }) ∧
      (s.takes h 0x0308 → p.logs = [] → exec (.logWait h) s = .next { s with waiters := s.waiters ++ [(.log, h)] })) ∧
    (∀ x y l rest, s.takes h 0x0308 → p.logs = (x, y, l) :: rest →
      ∃ t : State, exec (.logWait h) s = .next (t.answer h 0 (logDetail x y l)) ∧ rest <+: (t.part n).logs ∧
        (t.part n).state = p.state ∧ t.mem = s.mem)

/-- R41, R143, R205, R285, R297, R298, R300, R302, R343: however a job ends (the host's abort, the end of a Held job, its
completion, cores at different hooks, a checkpoint limit), its partition is Idle, has no image and no secrets, and its
scratchpads read as zero; a job whose die has lost determinism ends so too. A reset of a partition ends its job and resets
its dies, which takes until nothing else is waiting: then it is Idle. Where the conditions of a completion or of a limit
do not hold, nothing happens. Completes: JOB_ABORT, JOB_END, PART_RESET, JOB_COMPLETE, CKPT_LIMIT_EXPIRE. -/
def Obligations.JobsEnd : Prop :=
  ∀ (s : State) (m : BitVec 4) (h : Cmd),
    let n := m.toNat
    let p := s.part n
    let cleared (t : State) : Prop := (t.part n).img = {} ∧ (t.part n).secrets = none ∧
      (∀ c off, p.hasCore c = true → off < 2 ^ 19 → memGet t.mem (spAddr c off) = 0)
    let ended (i : Instr) : Prop := ∃ t, exec i s = .next t ∧ (t.part n).state = .idle ∧ cleared t
    let halted : Prop := ∀ c ∈ s.placedCores n, (s.core c).mode = .halted ∧ (s.core c).exitValid = true
    (h.part = m.setWidth 8 →
      (∀ reason, s.takes h 0x0303 → ended (.jobAbort h reason)) ∧
      (s.takes h 0x0307 → ended (.jobEnd h)) ∧
      (s.takes h 0x0203 → ∃ t, exec (.partReset h) s = .next t ∧ (t.part n).state = .ending ∧
        (p.state.hasJob = true → cleared t) ∧ t.resets = s.resets ++ [.levee n h] ∧
        (∀ d ∈ s.partSites n, (t.die d).net = .reset) ∧
        (t.pending = [] → t.fetched = [] → t.resets = [.levee n h] → ∃ u, step t = .next u ∧
          (u.part n).state = .idle ∧ u.resets = [] ∧ (∀ d ∈ s.partSites n, (u.die d).net = .idle)))) ∧
    (p.state ≠ .running ∨ ¬ halted → exec (.jobComplete m) s = .next s) ∧
    (p.state = .running → halted → s.detFailed n = true ∨ p.hold = false → ended (.jobComplete m)) ∧
    (p.limit = 0 ∨ s.hookCores n = [] ∨ (p.state ≠ .running ∧ p.state ≠ .checkpoint) →
      exec (.ckptLimitExpire m) s = .next s) ∧
    (p.state = .running ∨ p.state = .checkpoint → p.limit ≠ 0 → s.hookCores n ≠ [] → ended (.ckptLimitExpire m)) ∧
    (∀ x ∈ s.hookCores n, ∀ y ∈ s.hookCores n, p.state = .running →
      (∀ c ∈ s.placedCores n, (s.core c).mode = .halted ∨ (s.core c).atHook.isSome = true) →
      (s.core x).atHook ≠ (s.core y).atHook → ended (.checkpointEntry m))

/-- R285, R297, R300, R343: a job that is told to hold stays, Held, when every placed core has halted; one whose placed cores
have halted or wait at one and the same hook is at a checkpoint, and its release lets them go on. While a placed core
runs, or no core is at a hook, there is no checkpoint. Completes: CHECKPOINT_ENTRY, CKPT_RELEASE; with HOLD, JOB_COMPLETE.
-/
def Obligations.HoldsAndCheckpoints : Prop :=
  ∀ (s : State) (m : BitVec 4) (h : Cmd),
    let n := m.toNat
    let p := s.part n
    (p.state = .running → p.hold = true → s.detFailed n = false →
      (∀ c ∈ s.placedCores n, (s.core c).mode = .halted ∧ (s.core c).exitValid = true) →
      ∃ t, exec (.jobComplete m) s = .next t ∧ (t.part n).state = .held ∧ (t.part n).img = p.img ∧ t.mem = s.mem ∧
        t.cores = s.cores) ∧
    (∀ hook, p.state = .running → s.hookCores n ≠ [] → s.detFailed n = false →
      (∀ c ∈ s.placedCores n, (s.core c).mode = .halted ∨ (s.core c).atHook = some hook) →
      ∃ t, exec (.checkpointEntry m) s = .next t ∧ (t.part n).state = .checkpoint ∧ (t.part n).img = p.img ∧
        t.mem = s.mem ∧ t.cores = s.cores) ∧
    (∀ c ∈ s.placedCores n, (s.core c).mode ≠ .halted → (s.core c).atHook = none →
      exec (.checkpointEntry m) s = .next s) ∧
    (p.state ≠ .running ∨ s.hookCores n = [] → exec (.checkpointEntry m) s = .next s) ∧
    (h.part = m.setWidth 8 → s.takes h 0x0306 →
      ∃ t : State, exec (.ckptRelease h) s = .next (t.answer h 0) ∧ (t.part n).state = .running ∧
        (∀ c ∈ s.hookCores n, (t.core c).mode = .run ∧ (t.core c).pc = (s.core c).rtPc) ∧
        (∀ c, c ∉ s.hookCores n → t.core c = s.core c) ∧ t.mem = s.mem)

/-- R231, R275, R290: HBM of a stopped job is read out and written. An address or length that is bad is field 16 or 32; host
memory outside the window is 0x0007. Over stacks whose stored errors are correctable open HBM goes out as it stands, and
what comes in stands there; of a sealed job, over stacks with none, the 72 bytes of each stored block go out, and a block
that comes in is kept as given. Flume information of an established flume is answered. Completes: MEM_READ, MEM_WRITE,
FLUME_LIST, FLUME_STATS. -/
def Obligations.MemoryAndFlumeCommands : Prop :=
  ∀ (s : State) (h : Cmd) (b : Bool) (a host : Reg64) (len : Word), h.origin = .host b →
    let n := h.part.toNat
    let p := s.part n
    let rd := Instr.memRead h a host len
    let wr := Instr.memWrite h a host len
    let size := if p.img.sealed = true then len.toNat / 64 * 72 else len.toNat
    let window : Prop := s.dmaOk b host.toNat size = true
    let given := s.hostBytes b host.toNat size
    (s.takes h 0x0501 →
      completes (exec rd s) ∧
      (∀ f, s.memField n a.toNat len.toNat = some f → exec rd s = .next (s.answer h 0x0002 (bytesOf 2 f))) ∧
      (s.memField n a.toNat len.toNat = none →
        (¬ window → exec rd s = .next (s.answer h 0x0007)) ∧
        (window → p.img.sealed = false → (∀ e ∈ s.hbmErr, e.2.bytes ≤ 2) → ∃ t : State, t.mem = s.mem ∧
          t.hostMem = s.hostMem ∧
          exec rd s = .next ((t.hostStore b host.toNat (memRead s.mem a.toNat len.toNat)).answer h 0)) ∧
        (window → p.img.sealed = true → s.hbmErr = [] → ∃ t : State, t.mem = s.mem ∧ t.hostMem = s.hostMem ∧
          exec rd s = .next ((t.hostStore b host.toNat ((List.range (len.toNat / 64)).flatMap fun i =>
            s.sealedBlock n (a.toNat + 64 * i))).answer h 0)))) ∧
    (s.takes h 0x0502 →
      completes (exec wr s) ∧
      (∀ f, s.memField n a.toNat len.toNat = some f → exec wr s = .next (s.answer h 0x0002 (bytesOf 2 f))) ∧
      (s.memField n a.toNat len.toNat = none →
        (¬ window → exec wr s = .next (s.answer h 0x0007)) ∧
        (window → p.img.sealed = false → (∀ e ∈ s.hbmErr, e.2.bytes ≤ 2) →
          a.toNat + len.toNat ≤ s.liveStacks.length * 36 * 2 ^ 30 → ∃ t : State, exec wr s = .next (t.answer h 0) ∧
          t.mem = memWrite s.mem a.toNat given ∧ t.cores = s.cores) ∧
        (window → p.img.sealed = true → len = 64 → a.toNat < s.liveStacks.length * 36 * 2 ^ 30 →
          ∃ t : State, exec wr s = .next (t.answer h 0) ∧ tget [] t.given (a.toNat / 64) = given ∧ t.cores = s.cores))) ∧
    (s.takes h 0x0401 → exec (.flumeList h host len) s =
      .next (s.deliver h host.toNat len.toNat ((Config.flumeListLayout (s.flumeFacts n)).take len.toNat) [])) ∧
    (∀ i : BitVec 16, s.takes h 0x0402 →
      let there : Prop := p.img.flumes.any (fun e => e.toNat % 2 ^ 12 == i.toNat) = true
      (¬ there → exec (.flumeStats h i) s = .next (s.answer h 0x0002 (bytesOf 2 16))) ∧
      (there → ∃ d, exec (.flumeStats h i) s = .next (s.answer h 0 d) ∧ d.length = 16))

/-- R5, R33, R35, R36, R276, R290, R382: registers. A write or a read over the register space of an address in no window is
field 16; else a write changes the fields that can be written, such as the limit, and no read-only or locked one, and a
read goes out to where it is asked. An access to a physical-site window is a use of the session that it needs, and without
one is refused and recorded. A write over the host aperture sets its registers, the DMA window until it is locked.
Completes: REG_READ, REG_WRITE, REG_READ_PHYS, REGISTER_WRITE. -/
def Obligations.RegisterCommands : Prop :=
  ∀ (s : State) (h : Cmd) (host a value : Reg64) (len : Word),
    let limitReg : Reg64 := 0xE00000003000
    let statReg : Reg64 := 0xE00000003008
    let used := s.recordKind 0x09 (bytesOf 4 h.session.toNat)
    let s1 := if physWindow a.toNat = true then used else s
    let bad (t : State) : Host.Outcome State Fault Refusal := .next (t.answer h 0x0002 (bytesOf 2 16))
    let reads (t : State) : Host.Outcome State Fault Refusal :=
      .next ((t.sampleRegs a.toNat len.toNat).deliver h host.toNat len.toNat
        ((t.sampleRegs a.toNat len.toNat).regBytes a.toNat len.toNat) [])
    (s.admits h (regGate 0x0504 a.toNat) →
      (s1.regPlace a.toNat = .bad → exec (.regWrite h a value) s = bad s1) ∧
      (s1.regPlace a.toNat ≠ .bad →
        exec (.regWrite h a value) s = .next ((s1.writeReg a.toNat value.toNat false).answer h 0))) ∧
    (s.takes h 0x0504 →
      exec (.regWrite h limitReg value) s =
        .next ((s.onPanel fun p => { p with limit := value.setWidth 16 }).answer h 0) ∧
      exec (.regWrite h statReg value) s = .next (s.answer h 0) ∧
      (s.panel.idLock = true → exec (.regWrite h 0xE00000000000 value) s = .next (s.answer h 0))) ∧
    (s.admits h (regGate 0x0503 a.toNat) →
      (s1.regField a.toNat len.toNat = none → exec (.regRead h a host len) s = reads s1) ∧
      (s1.regField a.toNat len.toNat ≠ none → exec (.regRead h a host len) s = bad s1)) ∧
    (s.takes h 0x0A07 →
      (used.regField a.toNat len.toNat = none → exec (.regReadPhys h a host len) s = reads used) ∧
      (used.regField a.toNat len.toNat ≠ none → exec (.regReadPhys h a host len) s = bad used)) ∧
    (∀ b : Bool,
      (∀ off, exec (.registerWrite (.aperture b off) value) s = .next (s.writeAperture b off.toNat value)) ∧
      s.writeAperture b 0x18 value = s.setHost b { s.host b with admRq := value &&& 0x000FFFFFFFFFFFFF } ∧
      s.writeAperture b 0x20 value = s.setHost b { s.host b with msiAddr := value } ∧
      s.writeAperture b 0x28 value = s.setHost b { s.host b with msiData := value.setWidth 32 } ∧
      ((s.host b).dmaLock = true → s.writeAperture b 0x08 value = s) ∧
      ((s.host b).dmaLock = false → s.writeAperture b 0x08 value = s.setHost b { s.host b with
        dmaBase := value.setWidth 28, dmaSize := BitVec.ofNat 28 (value.toNat / 2 ^ 28), dmaLock := value.getLsbD 63 })) ∧
    (∀ (x : BitVec 48) n o,
      let open_ : Prop := physWindow x.toNat = false ∨ s.sessionOk o n 1 = true
      (open_ → exec (.registerWrite (.panel x n o) value) s = .next (s.writeReg x.toNat value.toNat true)) ∧
      (¬ open_ → exec (.registerWrite (.panel x n o) value) s = .next (s.recordKind 0x0A (bytesOf 4 n.toNat))))

/-! ### Power, clocks and temperature -/

/-- R307, R313-R317, R320, R322, R323, R326, R373, R374: the rails: one outside its limits stops the clocks, one out of
tolerance lowers the limit until it is restored, a low standby rail holds the headworks in reset. A region keeps every
live phase and is boosted for a rise that its cores' notices announce, not so after it; its steps are counted, and the
1,001st of a millisecond raises its floor; a wave asks for admission when none is out; it is admitted by turn and room,
waits beside a neighbour at peak until that ends or its time does, ramps, and is supplied by its own phases, else by the
logic rail, else dark; a load whose regions are not admitted in time ends. The power commands read, set the limit, and
move the panel between its power states, refused where the state does not allow it. What does not apply changes nothing.
Completes: RAIL_FAULT, RAIL_OUT_OF_TOLERANCE, RAIL_TOLERANCE_RESTORED, STANDBY_LOW, REGULATOR_NOTICE_STEP,
UNANNOUNCED_STEP, REGION_ADMIT, NEIGHBOUR_WAIT_EXPIRE, REGION_RAMP_DONE, REGION_WAVE, ADMISSION_TIMEOUT, POWER_READ,
POWER_LIMIT, POWER_MODE. -/
def Obligations.PowerDelivery : Prop :=
  (∀ (s : State) (mv : BitVec 12),
    (1700 ≤ mv.toNat → mv.toNat ≤ 1900 → exec (.railFault mv) s = .next s) ∧
    (mv.toNat < 1700 ∨ 1900 < mv.toNat → ∃ t, exec (.railFault mv) s = .next t ∧ t.panel.dead = true ∧
      t.panel.vin = mv ∧ ∀ d, (t.die d).clocks = false) ∧
    (∃ t, exec .railOutOfTolerance s = .next t ∧ t.panel.railCap = true ∧ t.panel.dead = s.panel.dead) ∧
    (exec .railToleranceRestored s = .next { s with panel := { s.panel with railCap := false } }) ∧
    (exec .standbyLow s = .next { s with
      panel := { s.panel with hwdHeld := true }, ring := { s.ring with state := 0, own := [], joining := [] } })) ∧
  (∀ (s : State) (d : Site) (n : BitVec 6), s.siteOk d = true →
    let k := siteKey d
    let r := s.region k n.toNat
    (r.state ≠ .own → ∀ p, exec (.regulatorNoticeStep d n p) s = .next s) ∧
    (r.state = .own →
      (s.announcedDraw k n.toNat = 0 → exec (.regulatorNoticeStep d n .rise) s = .next s) ∧
      (0 < s.announcedDraw k n.toNat → exec (.regulatorNoticeStep d n .rise) s = .next (s.setRegion k n.toNat
        (if r.boost = true then { r with allPhases := true } else { r with boost := true, allPhases := true, vout := r.vout + 20 }))) ∧
      exec (.regulatorNoticeStep d n .afterRise) s = .next (s.setRegion k n.toNat
        (if r.boost = true then { r with boost := false, vout := r.vout - 20 } else r)) ∧
      exec (.regulatorNoticeStep d n .afterFall) s = .next (s.setRegion k n.toNat { r with allPhases := false })) ∧
    (∀ i : BitVec 16, i ≠ 1001 → exec (.unannouncedStep d n i) s =
      .next (s.onDie k fun e => { e with unannounced := satInc e.unannounced })) ∧
    (∃ t, exec (.unannouncedStep d n 1001) s = .next t ∧ (t.region k n.toNat).floor = satInc r.floor 2 ∧
      (t.die k).unannounced = satInc (s.die k).unannounced) ∧
    (∀ avg adm,
      let i := Instr.regionAdmit d n avg adm
      let peak : Prop := s.besidePeak k n.toNat = true
      let goes : Prop := s.firstWaiting k = some n.toNat ∧ s.cappedDie k = false ∧ s.hasRoom k avg.toNat adm.toNat = true
      let becomes (z : Region) : Prop := ∃ t, exec i s = .next t ∧ t.region k n.toNat = z ∧ t.cores = s.cores
      (r.nbWaiting = true → peak → becomes r) ∧
      (r.nbWaiting = true → ¬ peak → becomes { r with state := .ramping, nbWaiting := false }) ∧
      (r.nbWaiting = false → ¬ goes → becomes r) ∧
      (r.nbWaiting = false → goes → peak → becomes { r with nbWaiting := true, nbWait := true }) ∧
      (r.nbWaiting = false → goes → ¬ peak → becomes { r with state := .ramping })) ∧
    (r.nbWaiting = true → exec (.neighbourWaitExpire d n) s =
      .next (s.setRegion k n.toNat { r with state := .ramping, nbWaiting := false })) ∧
    (r.nbWaiting = false → exec (.neighbourWaitExpire d n) s = .next s) ∧
    (r.state ≠ .ramping → exec (.regionRampDone d n) s = .next s) ∧
    (r.state = .ramping →
      let rail : Prop := s.panel.coarse = true ∨ r.livePhases ≤ 5
      (∃ t, exec (.regionRampDone d n) s = .next t ∧ (d, n) ∉ t.panel.wave) ∧
      (rail → (s.die k).logicFailed = true → ∃ t q, exec (.regionRampDone d n) s = .next t ∧
        (t.region k n.toNat).state = .dark ∧ t.reports = s.reports ++ [q] ∧ q.source = 0x0502) ∧
      ((∀ i, s.partOfSite k = some i → (s.part i).state ≠ .loading) →
        (¬ rail → ∃ t, exec (.regionRampDone d n) s = .next t ∧ t.region k n.toNat =
          { r with state := .own, vout := 780, debt := 0, zone := 1, cap := BitVec.ofNat 7 (8 * r.livePhases) }) ∧
        (rail → (s.die k).logicFailed = false → ∃ t, exec (.regionRampDone d n) s = .next t ∧ t.region k n.toNat =
          { r with state := .logic, vout := 780, debt := 0, zone := 1, cap := 64 })))) ∧
  (∀ (s : State) (m : BitVec 4),
    (s.panel.wave ≠ [] → exec .regionWave s = .next s) ∧
    (s.panel.wave = [] → ∃ t, exec .regionWave s = .next t ∧
      t.panel.wave = s.nextWave.map (fun e => (siteOfKey e.1, BitVec.ofNat 6 e.2)) ∧
      (∀ e ∈ s.nextWave, (t.region e.1 e.2).state = .waiting) ∧ t.mem = s.mem) ∧
    (let late : Prop := (s.part m.toNat).state = .loading ∧ ∃ k ∈ s.placedRegions m.toNat,
       (s.region (k / 64) (k % 64)).state = .off ∨
         (s.region (k / 64) (k % 64)).state = .waiting ∧ (s.region (k / 64) (k % 64)).nbWaiting = false
     (late → ∃ t, exec (.admissionTimeout m) s = .next t ∧ (t.part m.toNat).state = .idle ∧
       (t.part m.toNat).loading = none) ∧
     (¬ late → exec (.admissionTimeout m) s = .next s))) ∧
  (∀ (s : State) (h : Cmd) (addr : Reg64) (len : Word),
    (s.takes h 0x0801 → exec (.powerRead h addr len) s = .next (s.deliver h addr.toNat len.toNat
      (((s.panelPwrstat :: s.presentSites.flatMap fun d => s.pwrstat d :: (s.regionsOf d).map Region.reg).flatMap fun w =>
        bytesOf 8 w.toNat).take len.toNat) (bytesOf 4 s.panel.power.toNat))) ∧
    (∀ limit, s.takes h 0x0802 →
      exec (.powerLimit h limit) s = .next ((s.onPanel fun p => { p with limit := limit }).answer h 0)) ∧
    (s.takes h 0x0805 →
      (∀ v : BitVec 8, 4 ≤ v.toNat → exec (.powerMode h v) s = .next (s.answer h 0x0002 (bytesOf 2 16))) ∧
      (∀ v : BitVec 8, v.toNat < 4 → s.moveTo h v.toNat = none → exec (.powerMode h v) s = .next (s.answer h 0x0005)) ∧
      (∀ (v : BitVec 8) t, v.toNat < 4 → s.moveTo h v.toNat = some t → exec (.powerMode h v) s = .next t) ∧
      (s.panel.pstate = .run → exec (.powerMode h 0) s = .next (s.answer h 0)) ∧
      (s.panel.pstate = .idle → ∃ t : State, exec (.powerMode h 0) s = .next (t.answer h 0) ∧ t.panel.pstate = .run) ∧
      (s.panel.pstate = .run ∨ s.panel.pstate = .idle → s.allIdle = true →
        (∃ t : State, exec (.powerMode h 1) s = .next (t.answer h 0) ∧ t.panel.pstate = .idle ∧
          ∀ d, (t.die d).clocks = false) ∧
        (∃ t : State, exec (.powerMode h 2) s = .next (t.answer h 0) ∧ t.panel.pstate = .regionGated) ∧
        (∃ t : State, exec (.powerMode h 3) s = .next (t.answer h 0) ∧ t.panel.pstate = .standby ∧ t.mem = [])) ∧
      (s.panel.pstate ≠ .standby → s.allIdle = false → ∀ v : BitVec 8, 1 ≤ v.toNat → v.toNat < 4 →
        exec (.powerMode h v) s = .next (s.answer h 0x0005))))

/-- R309, R311, R312, R320-R324, R331, R334, R335, R340, R345: the voltage rises after stretched cycles and falls after a calm
millisecond. A lost phase lowers the cap and is reported as 0x0501; with three lost the logic rail carries the region, and
with that failed too it is dark and reported as 0x0502; so are the regions that a failed logic rail carries, and in coarse
mode all. A lost rail of a stack takes its scratchpads, its transit, or its edges, culverts and weir; a lost rail of
another die its unit; a lost lock stops the die's clocks, a lost reference all of them. The budget caps follow the power.
A stretched cycle is counted with its zone in the region or the transit domain; a crossing slips once in a deterministic
job. What does not apply changes nothing. Completes: VOLTAGE_ADAPT_TICK, PHASE_LOSS, RAIL_TRANSFER_COMPLETE,
LOGIC_RAIL_FAIL, STACK_RAIL_FAIL, PLL_LOCK_LOSS, STRETCHED_CYCLE, CROSSING_SLIP, REFCLK_LOSS, BUDGET_CAP_TICK,
DIE_WIDE_RAIL_FAIL. -/
def Obligations.SupplyLossesAndClocks : Prop :=
  (∀ (s : State) (d : Site) (n : BitVec 6), s.siteOk d = true →
    let k := siteKey d
    let r := s.region k n.toNat
    let die := s.die k
    (∀ full st green,
      let i := Instr.voltageAdaptTick d n full st green
      let falls : Prop := full = true ∧ st = 0 ∧ (die.det = false ∨ green = true) ∧ r.floorMv < r.point
      (r.state = .own → 64 < st.toNat → exec i s = .next (s.setRegion k n.toNat (r.atPoint (min 780 (r.point + 10))))) ∧
      (r.state = .own → falls → exec i s = .next (s.setRegion k n.toNat (r.atPoint (r.point - 10)))) ∧
      (r.state ≠ .own ∨ (st.toNat ≤ 64 ∧ ¬ falls) → exec i s = .next s)) ∧
    (∀ (ph : BitVec 3) draw,
      let i := Instr.phaseLoss d n ph draw
      let y := { r with phases := r.phases &&& ~~~((1 : BitVec 8) <<< ph.toNat), draw := draw.toNat }
      let lost : Prop := r.phases.getLsbD ph.toNat = true
      let becomes (z : Region) : Prop := ∃ t q, exec i s = .next t ∧ t.region k n.toNat = z ∧
        t.reports = s.reports ++ [q] ∧ q.source = 0x0501 ∧ (d, n, ph) ∈ t.flash.phases
      (¬ lost ∨ (r.state ≠ .own ∧ r.state ≠ .ramping) → exec i s = .next s) ∧
      (lost → r.state = .ramping → becomes y) ∧
      (lost → r.state = .own → 6 ≤ y.livePhases → becomes { y with cap := BitVec.ofNat 7 (8 * y.livePhases) }) ∧
      (lost → r.state = .own → y.livePhases < 6 → die.logicFailed = false →
        becomes { y with state := .logic, cap := 64, vout := 780, boost := false, transfer := true }) ∧
      (lost → r.state = .own → y.livePhases < 6 → die.logicFailed = true → ∃ t q, exec i s = .next t ∧
        (t.region k n.toNat).state = .dark ∧ t.reports = s.reports ++ [q] ∧ q.source = 0x0502)) ∧
    (exec (.railTransferComplete d n) s = .next (s.setRegion k n.toNat { r with transfer := false })) ∧
    (die.logicFailed = true → exec (.logicRailFail d) s = .next s) ∧
    (die.logicFailed = false → ∃ t, exec (.logicRailFail d) s = .next t ∧ (t.die k).logicFailed = true ∧
      (s.panel.coarse = false → (∀ i, i < 64 → (s.region k i).state ≠ .logic) →
        (∃ q, t.reports = s.reports ++ [q] ∧ q.source = 0x0501) ∧ t.regions = s.regions) ∧
      (∀ i, i < 64 → s.panel.coarse = true ∨ (s.region k i).state = .logic →
        (t.region k i).state = .dark ∧ ∃ q ∈ t.reports, q.source = 0x0502)) ∧
    (∃ t q, exec (.stackRailFail d .memory) s = .next t ∧ t.reports = s.reports ++ [q] ∧ q.source = 0x0102 ∧
      ∀ c off, s.dieOf c = some k → off < 2 ^ 19 → memGet t.mem (spAddr c off) = 0) ∧
    (∃ t, exec (.stackRailFail d .link) s = .next t ∧ d ∈ t.flash.weirs ∧ (∃ q ∈ t.reports, q.source = 0x0205) ∧
      ∀ m, m < 8 → (t.culvert k m).live = 0 ∨ (s.culvert k m).state = 0) ∧
    (die.transitFailed = true → exec (.stackRailFail d .transit) s = .next s) ∧
    (die.transitFailed = false → ∃ t, exec (.stackRailFail d .transit) s = .next t ∧
      (t.die k).transitFailed = true ∧ (t.die k).clocks = false ∧ ∃ q ∈ t.reports, q.source = 0x0205) ∧
    (die.locked = true → ∃ t, exec (.pllLockLoss d) s = .next t ∧ (t.die k).locked = false ∧
      (t.die k).transitFailed = true ∧ (t.die k).clocks = false) ∧
    (die.locked = false → exec (.pllLockLoss d) s = .next s) ∧
    (∀ m,
      let z := (tget {} s.panel.transit k).cycle (zoneOf m.toNat) true
      (exec (.stretchedCycle d 64 m) s = .next (s.onPanel fun p => { p with transit := tset {} p.transit k z })) ∧
      (r.state = .own ∨ r.state = .logic → ∃ t, exec (.stretchedCycle d (n.setWidth 7) m) s = .next t ∧
        t.region k n.toNat = r.cycle (zoneOf m.toNat) die.det ∧ t.mem = s.mem) ∧
      (r.state ≠ .own → r.state ≠ .logic → exec (.stretchedCycle d (n.setWidth 7) m) s = .next s) ∧
      (∀ x : BitVec 7, 64 < x.toNat → exec (.stretchedCycle d x m) s = .next s)) ∧
    (∀ x : BitVec 8,
      let slips : Prop := crossingCode x.toNat = true ∧ die.det = true ∧ x ∉ die.elastic
      (slips → exec (.crossingSlip d x) s = .next (s.setDie k { die with
        slips := satInc die.slips, elastic := die.elastic ++ [x], lastSlip := x, detLost := true })) ∧
      (¬ slips → exec (.crossingSlip d x) s = .next s))) ∧
  (∀ s : State,
    (∃ t, exec .refclkLoss s = .next t ∧ ∀ d, (t.die d).clocks = false) ∧
    (∀ p : BitVec 16, ∃ t, exec (.budgetCapTick p) s = .next t ∧ t.panel.power = p ∧ t.cores = s.cores ∧
      t.regions = tmap {} (fun _ r => if r.state ≠ .own ∧ r.state ≠ .logic then r
        else if s.capLimit < p.toNat then { r with budgetCap := r.budgetCap - 1 }
        else if 100 * p.toNat < 95 * s.capLimit then { r with budgetCap := min 8 (r.budgetCap + 1) } else r) s.regions) ∧
    (∀ u : UnitRef,
      (s.panel.failedUnits.contains u = true → u.kind = 1 ∨ u.kind = 2 ∨ u.kind = 5 →
        u.row.toNat < (if u.kind = 5 then 4 else 8) → exec (.dieWideRailFail u) s = .next s) ∧
      (s.panel.failedUnits.contains u = false →
        (u.kind = 5 → u.row.toNat < 4 → exec (.dieWideRailFail u) s =
          .next { s with panel := { s.panel with failedUnits := s.panel.failedUnits ++ [u] } }) ∧
        (u.kind = 1 → u.row.toNat < 8 → ∃ t, exec (.dieWideRailFail u) s = .next t ∧ u ∈ t.panel.failedUnits ∧
          (t.msd u.row.toNat).failed = true) ∧
        (u.kind = 2 → u.row.toNat < 8 → ∃ t, exec (.dieWideRailFail u) s = .next t ∧ u ∈ t.panel.failedUnits ∧
          ∀ i, i < 8 → (s.port (8 * u.row.toNat + i)).state = 0 ∨ (t.port (8 * u.row.toNat + i)).state = 5))))

/-- R348-R356, R359, R360: the temperatures of a die's hot spots are those that its plausible readings give, three equal
plausible ones that reading; a region's cap falls and rises with them, and a region that is off has none. Coolant readings
are kept: past the trip points they bring the fast stop, past the run limits the orderly one, else they warn by their
limits until a stop is in force. A run limit that stays exceeded brings the orderly stop, and flow that stays low after it
Standby; the comparator, or a sensor over its trip limit, brings the fast one, and a sensor that tripped alone is noted.
Thermal cycles are counted and flushed; the records are read out. Completes: SENSOR_SAMPLE, THERMAL_CAP_TICK,
COOLANT_SAMPLE, RUN_LIMIT_EXPIRE, ORDERLY_STOP_STANDBY, FAST_STOP, THERMAL_CYCLE_SAMPLE, THERMAL_COUNT_FLUSH,
THERMAL_READ, LIFE_READ. -/
def Obligations.ThermalControl : Prop :=
  (∀ (s : State) (u : UnitRef) (l : List (Int × Int × Int)), s.unitOk u = true → u.kind ≠ 7 →
    (l.length ≠ spotCount u.kind → exec (.sensorSample u l) s = .next s) ∧
    (l.length = spotCount u.kind →
      let temps := spotTemps u.kind ((List.range l.length).map fun h =>
        ownTemp (s.plausibleOf u h (nth (0, 0, 0) l h)))
      ∃ t, exec (.sensorSample u l) s = .next t ∧ t.cores = s.cores ∧ t.mem = s.mem ∧
        (∀ h, h < l.length → t.spot (unitKey u) h = (nth none temps h).getD (s.spot (unitKey u) h)) ∧
        (∀ h, h < l.length → (nth (0, 0, 0) l h).2 = ((nth (0, 0, 0) l h).1, (nth (0, 0, 0) l h).1) →
          (∀ w, w < 3 → s.plausible u h w (nth (0, 0, 0) l h).1 (nth (0, 0, 0) l h).1 = true) →
          t.spot (unitKey u) h = (nth (0, 0, 0) l h).1))) ∧
  (∀ (s : State) (d : Site) (n : Nat), s.siteOk d = true → n < 64 →
    let k := siteKey d
    let cap := (s.region k n).thermalCap
    let tl := s.spot k (regionSpots n).1
    let ta := s.spot k (regionSpots n).2
    let on : Prop := (s.region k n).state ≠ .off ∧ (s.region k n).state ≠ .dark
    let free : Prop := s.panel.flowCap = 8 ∧ (s.die k).forecast = none ∧ (s.die k).sensorless = false
    ∃ t, exec (.thermalCapTick d) s = .next t ∧
      (¬ on → (t.region k n).thermalCap = 8) ∧
      (on → (t.region k n).thermalCap ≤ s.panel.flowCap ∧ ∀ f, (s.die k).forecast = some f → (t.region k n).thermalCap ≤ f) ∧
      (on → (s.die k).sensorless = true → (t.region k n).thermalCap ≤ 4) ∧
      (on → free → 16 * 95 ≤ tl ∨ 16 * 85 ≤ ta → (t.region k n).thermalCap = 1) ∧
      (on → free → tl < 16 * 95 → ta < 16 * 85 → 16 * 90 ≤ tl ∨ 16 * 80 ≤ ta → cap ≤ 8 →
        (t.region k n).thermalCap = max (cap - 1) 1) ∧
      (on → free → tl < 16 * 88 → ta < 16 * 78 → (t.region k n).thermalCap = min (cap + 1) 8)) ∧
  (∀ (s : State) (flow fb : BitVec 16) (tin tout tb : Int),
    let fast : Prop := (flow.toNat < 720 ∧ 1800 ≤ fb.toNat) ∨ 48 < tout - tb
    let orderly : Prop := flow.toNat < 1800 ∨ 16 * 40 < tin ∨ 16 * 55 < tout
    ∃ t, exec (.coolantSample flow tin tout fb tb) s = .next t ∧ t.panel.flow = flow ∧
      t.panel.flowCap = clamp 1 8 (32 * flow.toNat / 3600 - 16) ∧
      (fast → t.panel.coolState = 4 ∧ (s.panel.coolState ≠ 4 → t.panel.dead = true ∧ t.panel.stopped = true)) ∧
      (¬ fast → orderly ∨ 3 ≤ s.panel.coolState.toNat → t.panel.coolState.toNat = max 3 s.panel.coolState.toNat) ∧
      (¬ fast → ¬ orderly → s.panel.coolState.toNat < 3 →
        (flow.toNat < 2700 → t.panel.coolState = 2) ∧
        (2700 ≤ flow.toNat → flow.toNat < 3240 ∨ 16 * 32 < tin → t.panel.coolState = 1) ∧
        (3240 ≤ flow.toNat → tin ≤ 16 * 32 → t.panel.coolState = 0))) ∧
  (∀ (s : State) (u : UnitRef),
    (∀ h : BitVec 5, s.unitOk u = true →
      let above : Prop := (limitsOf u.kind h.toNat).run ≤ s.tempOf u h.toNat ∧ s.panel.coolState.toNat < 3
      (above → ∃ t, exec (.runLimitExpire u h) s = .next t ∧ t.panel.coolState = 3 ∧ t.panel.stopped = true ∧
        t.panel.pstate = .regionGated) ∧
      (¬ above → exec (.runLimitExpire u h) s = .next s)) ∧
    (let falls : Prop := s.panel.coolState = 3 ∧ s.panel.flow.toNat < 720 ∧ s.panel.pstate ≠ .standby
     (falls → ∃ t, exec .orderlyStopStandby s = .next t ∧ t.panel.pstate = .standby ∧ t.mem = [] ∧ t.cores = []) ∧
     (¬ falls → exec .orderlyStopStandby s = .next s)) ∧
    (s.panel.coolState = 4 → exec (.fastStop .flowComparator) s = .next s) ∧
    (s.panel.coolState ≠ 4 → ∃ t, exec (.fastStop .flowComparator) s = .next t ∧ t.panel.coolState = 4 ∧
      t.panel.dead = true ∧ t.panel.stopped = true) ∧
    (∀ h w (temp a b : Int), s.unitOk u = true →
      let i := Instr.fastStop (.sensor u h w temp a b)
      let trips : Prop := (limitsOf u.kind h.toNat).trip < temp ∧ (u, h, w) ∉ s.flash.sensors
      (trips → ∃ t, exec i s = .next t ∧ t.panel.coolState = 4 ∧
        (s.panel.coolState ≠ 4 → t.panel.dead = true ∧ t.panel.stopped = true) ∧
        (320 < temp - a → 320 < temp - b → (u, h, w) ∈ t.flash.tripped)) ∧
      (¬ trips → exec i s = .next s)) ∧
    (∀ temp, s.unitOk u = true → ∃ t, exec (.thermalCycleSample u temp) s = .next t ∧
      (tget {} t.life (unitKey u)).highest = max ((tget {} s.life (unitKey u)).sample temp).highest temp ∧
      t.cores = s.cores ∧ t.panel = s.panel) ∧
    (exec .thermalCountFlush s = .next { s with flash := { s.flash with life := s.life } })) ∧
  (∀ (s : State) (h : Cmd) (addr : Reg64) (len : Word),
    (s.takes h 0x0803 → ∃ data d, data.length ≤ len.toNat ∧
      exec (.thermalRead h addr len) s = .next (s.deliver h addr.toNat len.toNat data d)) ∧
    (s.takes h 0x0804 → exec (.lifeRead h addr len) s = .next (s.deliver h addr.toNat len.toNat
      (((s.allUnits true).flatMap s.lifeRecord).take len.toNat) [])))

/-! ### Resets, bring-up and updates -/

/-- R302, R363, R364, R367, R368, R370, R381-R383, R442, R449: the resets of the panel and what each takes away: every
partition, core, scratchpad and HBM byte; a power-on and a cold one host memory besides; flash stays. A bring-up whose
checks pass ends ready at stage 0xA; a fuse fault after a power-on, or a bad strap of the headworks, stops it at 0xF, an
image that does not verify or no configuration to use at 0xE, and one without coolant stays at 3. With the pin low a
bring-up waits, and begins when it rises. A reset by command is refused after a trip, a warm one also with the supply down
or in Standby; while the panel is not ready it does nothing. Completes: POWER_ON, PANEL_RST_N, PANEL_RST_N_RELEASE,
PANEL_RESET_WARM, PANEL_RESET_COLD. -/
def Obligations.PanelResets : Prop :=
  ∀ (s : State) (h : Cmd) (b : BringUp),
    let verifies : Prop := b.imageOk = true ∧ s.sec.fwc ≤ s.flash.fw.svn ∧ s.flash.fw.svn.toNat ≤ 64
    let config : Prop := s.configChoice b ≠ none
    let gone (t : State) : Prop := t.parts = [] ∧ t.cores = [] ∧ t.mem = [] ∧ t.tags = [] ∧ t.routers = [] ∧
      t.waiters = [] ∧ t.flash = s.flash ∧ t.sec.sessions = []
    let stops (i : Instr) (stage : BitVec 4) (more : State → Prop) : Prop :=
      ∃ t, exec i s = .next t ∧ t.panel.stage = stage ∧ t.panel.ready = false ∧ more t
    let fails (i : Instr) (more : State → Prop) : Prop := ¬ verifies ∨ ¬ config → stops i 0xE more
    let ready (i : Instr) : Prop := verifies → config →
      ∃ t, exec i s = .next t ∧ t.panel.ready = true ∧ t.panel.stage = 0xA
    let comes (i : Instr) (more : State → Prop) : Prop :=
      (hwdBad b = true → stops i 0xF more) ∧
      (hwdBad b = false → fails i more ∧ (b.coolantReady = true → ready i) ∧
        (verifies → config → b.coolantReady = false →
          ∃ t, exec i s = .next t ∧ t.panel.stage = 3 ∧ t.panel.ready = false))
    (s.panel.rstLow = true → ∃ t, exec (.powerOn b) s = .next t ∧ gone t ∧ t.panel.rstLow = true ∧ t.panel.ready = false) ∧
    (s.panel.rstLow = false →
      let bare (t : State) : Prop := gone t ∧ t.panel.lastReset = 0 ∧ t.hostMem = []
      (b.fusesOk = false → stops (.powerOn b) 0xF bare) ∧
      (b.fusesOk = true → comes (.powerOn b) bare)) ∧
    (s.panel.hwdHeld = true → exec .panelRstN s = .next (s.onPanel fun p => { p with rstLow := true })) ∧
    (s.panel.hwdHeld = false → ∃ t, exec .panelRstN s = .next t ∧ gone t ∧ t.hostMem = [] ∧ t.panel.rstLow = true ∧
      t.panel.ready = false ∧
      t.panel.lastReset = (if s.panel.lastReset = 0 ∧ s.panel.ready = false then 0 else 1)) ∧
    (s.panel.rstLow = false → exec (.panelRstNRelease b) s = .next s) ∧
    (s.panel.rstLow = true → s.panel.hwdHeld = true →
      exec (.panelRstNRelease b) s = .next (s.onPanel fun p => { p with rstLow := false })) ∧
    (s.panel.rstLow = true → s.panel.hwdHeld = false → s.panel.ready = false →
      let free (t : State) : Prop := t.panel.rstLow = false
      (s.panel.lastReset = 0 → b.fusesOk = false → stops (.panelRstNRelease b) 0xF free) ∧
      (s.panel.lastReset ≠ 0 ∨ b.fusesOk = true → comes (.panelRstNRelease b) free)) ∧
    (s.takes h 0x0A04 →
      let tripped : Prop := s.panel.coolState = 4
      let down : Prop := tripped ∨ s.panel.dead = true ∨ s.panel.pstate = .standby
      (s.panel.ready = false → exec (.panelResetWarm h b) s = .next s ∧ exec (.panelResetCold h b) s = .next s) ∧
      (s.panel.ready = true → down → exec (.panelResetWarm h b) s = .next (s.answer h 0x0005)) ∧
      (s.panel.ready = true → ¬ down → ready (.panelResetWarm h b) ∧ fails (.panelResetWarm h b) fun t => gone t ∧
        t.panel.lastReset = 2 ∧ t.hostMem = s.hostMem ∧ t.panel.panelId = s.panel.panelId) ∧
      (s.panel.ready = true → tripped → exec (.panelResetCold h b) s = .next (s.answer h 0x0005)) ∧
      (s.panel.ready = true → ¬ tripped → comes (.panelResetCold h b) fun t => gone t ∧ t.panel.lastReset = 1 ∧
        t.hostMem = [] ∧ t.panel.panelId = 0xFFFF))

/-- R303, R369-R372, R376, R377, R380-R382, R417, R419: a die reset is refused while its die is in use; else it takes until
nothing else is waiting, and then its scratchpads are zero and its network idle; a core reset does one core. An edge
retrain waits until it is due and no flume crosses; it sets the determinism-lost flag of the die, and the edge has a new
epoch, or fails. Images that verify go to flash, others are refused and recorded, and the configuration is read back; in
recovery an image that verifies brings the panel up; the messages of the management port do what they bring. Completes:
DIE_RESET_DIE, DIE_RESET_CORE, EDGE_RETRAIN_DUE, EDGE_RETRAIN, FW_UPDATE, CFG_WRITE, CFG_READ, RECOVERY_IMAGE,
MCTP_MESSAGE. -/
def Obligations.SmallerResetsAndUpdates : Prop :=
  (∀ (s : State) (h : Cmd) (d : Site) (m : BitVec 4) (i : BitVec 16),
    let k := siteKey d
    let bad (o : Nat) : Host.Outcome State Fault Refusal := .next (s.answer h 0x0002 (bytesOf 2 o))
    (s.takes h 0x0A05 →
      (s.mayResetDie k = false → exec (.dieResetDie h d m) s = .next (s.answer h 0x0005) ∧
        exec (.dieResetCore h d i) s = .next (s.answer h 0x0005)) ∧
      (s.mayResetDie k = true → 12 ≤ d.row.toNat → exec (.dieResetDie h d m) s = bad 16 ∧
        exec (.dieResetCore h d i) s = bad 16) ∧
      (s.mayResetDie k = true → d.row.toNat < 12 → s.siteOk d = false → exec (.dieResetDie h d m) s = bad 17 ∧
        exec (.dieResetCore h d i) s = bad 17) ∧
      (s.mayResetDie k = true → s.siteOk d = true →
        (∃ t, exec (.dieResetDie h d m) s = .next t ∧ (t.die k).inReset = true ∧ t.resets = s.resets ++ [.die k m h]) ∧
        (1024 ≤ i.toNat → exec (.dieResetCore h d i) s = bad 19) ∧
        (∀ c, i.toNat < 1024 → s.coreAt k i.toNat = some c → ∃ t : State,
          exec (.dieResetCore h d i) s = .next (t.answer h 0) ∧ (t.core c).g = [] ∧ (t.core c).mode = ({} : Core).mode ∧
          (t.core c).powered = 0 ∧ ∀ off, off < 2 ^ 19 → memGet t.mem (spAddr c off) = 0) ∧
        (i.toNat < 1024 → s.coreAt k i.toNat = none → exec (.dieResetCore h d i) s = .next (s.answer h 0)))) ∧
    (∀ rest, s.pending = [] → s.fetched = [] → s.resets = .die k m h :: rest → ∃ t : State,
      step s = .next (t.answer h 0) ∧ (t.die k).net = .idle ∧ (t.die k).arrivedMembers = [] ∧ (t.die k).inReset = false ∧
      t.resets = rest ∧ ∀ c off, s.dieOf c = some k → off < 2 ^ 19 → memGet t.mem (spAddr c off) = 0) ∧
    (∀ (e : BitVec 2) wires, s.siteOk d = true →
      let x := s.edge k e.toNat
      let due : Prop := x.state = 1 ∧ x.retrainDue = true ∧ s.flumeCrosses k e.toNat = false
      (x.state = 1 → exec (.edgeRetrainDue d e) s = .next (s.setEdge k e.toNat { x with retrainDue := true })) ∧
      (x.state ≠ 1 → exec (.edgeRetrainDue d e) s = .next s) ∧
      (¬ due → ∀ carries, exec (.edgeRetrain d e wires carries) s = .next s) ∧
      (due → ∃ t, exec (.edgeRetrain d e wires true) s = .next t ∧ (t.die k).detLost = true ∧
        (t.edge k e.toNat).epoch = s.nextEpoch k e.toNat ∧ (t.edge k e.toNat).retrainDue = false) ∧
      (due → ∃ t, exec (.edgeRetrain d e wires false) s = .next t ∧ (t.die k).detLost = true ∧
        (t.edge k e.toNat).state = 3))) ∧
  (∀ (s : State) (h : Cmd) (addr : Reg64) (len : Word) (image : List Byte) (b : BringUp),
    let input := s.takeInput h addr.toNat len.toNat
    let refused := s.recordKind 0x0A (bytesOf 4 h.session.toNat)
    (s.takes h 0x0A01 →
      (∀ st detail, input = .inl (st, detail) → exec (.fwUpdate h addr len) s = .next (s.answer h st detail)) ∧
      (∀ bytes, input = .inr bytes → exec (.fwUpdate h addr len) s = .next (
        if 256 * 2 ^ 20 < bytes.length then s.answer h 0x0009
        else match s.firmwareOf bytes with
          | none => refused.answer h 0x0006
          | some fw => ({ s with flash := { s.flash with fw := fw } }).answer h 0 (bytesOf 4 fw.version.toNat)))) ∧
    (s.takes h 0x0A02 →
      (64 * 2 ^ 20 < len.toNat → exec (.cfgWrite h addr len) s = .next (s.answer h 0x0002 (bytesOf 2 24))) ∧
      (∀ st detail, len.toNat ≤ 64 * 2 ^ 20 → input = .inl (st, detail) →
        exec (.cfgWrite h addr len) s = .next (s.answer h st detail)) ∧
      (∀ bytes, len.toNat ≤ 64 * 2 ^ 20 → input = .inr bytes →
        exec (.cfgWrite h addr len) s = .next (if s.cfgVerifies bytes = false then refused.answer h 0x0006
          else match cfgError bytes with
            | some o => s.answer h 0x0301 (bytesOf 4 o)
            | none => (s.writeCfg bytes).answer h 0 (bytesOf 4 (s.cfgInForce.seq + 1).toNat)))) ∧
    (∀ defaults, s.takes h 0x0A03 → exec (.cfgRead h addr len defaults) s = .next (s.deliverBytes h addr len
      (if defaults then s.flash.factory.bytes else s.cfgInForce.bytes))) ∧
    (s.panel.stage ≠ 0xE → exec (.recoveryImage image b) s = .next s) ∧
    (s.panel.stage = 0xE → ∃ t, exec (.recoveryImage image b) s = .next t ∧
      (s.firmwareOf image = none → t = s) ∧
      (∀ fw, s.firmwareOf image = some fw → t.flash.fw = fw ∧ (hwdBad b = true → t.panel.stage = 0xF) ∧
        (hwdBad b = false → b.imageOk = true → s.configChoice b ≠ none → b.coolantReady = true →
          t.panel.ready = true ∧ t.panel.stage = 0xA))) ∧
    (s.panel.hwdHeld = true → ∀ m, exec (.mctpMessage m) s = .next s) ∧
    (s.panel.hwdHeld = false →
      let recovery : Prop := s.panel.stage = 0xE
      (∀ eid, exec (.mctpMessage (.control eid)) s = .next (s.onPanel fun p => { p with eid := eid })) ∧
      exec (.mctpMessage .pldmBase) s = .next s ∧ exec (.mctpMessage .pldmFru) s = .next s ∧
      (recovery → exec (.mctpMessage .pldmMonitor) s = .next s ∧
        exec (.mctpMessage (.pldmUpdate image)) s = exec (.recoveryImage image (Config.bringUpOf s.free)) s ∧
        ∀ c p, exec (.mctpMessage (.vendor c p)) s = .next s) ∧
      (¬ recovery →
        exec (.mctpMessage .pldmMonitor) s = .next (s.onPanel fun p => { p with pldm := p.pldm.drop 1 }) ∧
        (s.panel.ready = false → exec (.mctpMessage (.pldmUpdate image)) s = .next s) ∧
        (s.panel.ready = true → exec (.mctpMessage (.pldmUpdate image)) s = .next (
          if fieldOf image 0 4 = 0x47464341 then
            if s.cfgVerifies image = false then s.recordKind 0x0A
            else if cfgError image = none then s.writeCfg image else s
          else match s.firmwareOf image with
            | none => s.recordKind 0x0A
            | some fw => { s with flash := { s.flash with fw := fw } })) ∧
        (∀ c p, exec (.mctpMessage (.vendor c p)) s = .next { s with
          mgmtStarted := s.mgmtStarted ++ [(c, p)]
          fetched := s.fetched ++ [({ cmdOf .mgmt 0 0 c with payload := p }, c)] }))))

/-! ### Faults, the recorder, retirement and security -/

/-- R385, R388, R389, R390, R393, R394, R405, R407, R409, R410: a report of class 0 that no record covers opens one with the
next sequence number, or is merged into the one that covers it; one of class 1 or 4 ends the job of every partition that
it names; class 2 stops the panel with its regions off, class 3 stops it. A record's window ends; the sequence number goes
to flash; records are read, cleared once their cause is gone, and waited for. A trigger is recorded, or only counted
within its millisecond; the recorder is read and cleared; an injection is recorded and armed. Completes: FAULT_REPORT,
RECORD_WINDOW_EXPIRE, SEQ_FLUSH, RECORDER_TRIGGER, FAULT_READ, FAULT_CLEAR, EVENT_WAIT, REC_READ, REC_CLEAR, INJECT. -/
def Obligations.FaultsAndRecorder : Prop :=
  (∀ (s : State) (r : Report),
    let cls := sourceClass r.source
    let named := namedParts r.source r.part r.part2
    let own : Prop := stackOfReport r = none
    let cover := s.faults.find? fun f => f.covers r
    (∃ t, exec (.faultReport r) s = .next t) ∧
    (cls = 0 → own → cover = none → s.faults.length < 4096 ∨ s.faults.any FaultRec.replaceable = true →
      ∃ t f, exec (.faultReport r) s = .next t ∧ t.faults.getLast? = some f ∧ f.source = r.source ∧ f.seq = s.panel.seq ∧
        f.site = r.site ∧ f.unit = r.unit ∧ f.part = r.part ∧ f.localCount = r.localCount ∧ f.cls = 0 ∧ f.opened = true ∧
        f.cleared = false ∧ t.reports = eraseOne r s.reports ∧ t.parts = s.parts ∧ t.mem = s.mem) ∧
    (∀ f, cls = 0 → own → cover = some f → ∃ t, exec (.faultReport r) s = .next t ∧ t.panel.seq = s.panel.seq ∧
      t.faults.length = s.faults.length ∧ ∃ g ∈ t.faults, g.seq = f.seq ∧ g.merges = satInc f.merges) ∧
    (cls = 1 ∨ cls = 4 → own → ∃ t, exec (.faultReport r) s = .next t ∧
      ∀ n ∈ named, (s.part n).state.hasJob = true → (t.part n).state = .idle) ∧
    (cls = 2 → ∃ t, exec (.faultReport r) s = .next t ∧ t.panel.stopped = true ∧ t.panel.pstate = .regionGated) ∧
    (cls = 3 → ∃ t, exec (.faultReport r) s = .next t ∧ t.panel.stopped = true)) ∧
  (∀ (s : State) (seq : Word), exec (.recordWindowExpire seq) s = .next { s with
    faults := s.faults.map fun f => if f.seq = seq ∧ f.cls = 0 then { f with opened := false } else f }) ∧
  (∀ s : State, exec .seqFlush s = .next { s with flash := { s.flash with seq := s.panel.seq } }) ∧
  (∀ (s : State) (t : RecTrig),
    let fixed : Prop := t.kind.toNat ∈ [2, 3, 4, 9, 10, 11, 12, 13, 14, 15, 16, 17]
    let chosen := (s.recorder.entries t.kind).filter fun n =>
      (tget {} s.recorder.trig n).enable && filterOk t.kind.toNat (tget {} s.recorder.trig n).filter.toNat t.filter.toNat
    let selectable : Prop := t.kind.toNat ∈ [1, 5, 6, 7, 8]
    let news (u : State) (r : RecRec) : Prop :=
      if s.recorder.permFull = true then u.recorder.circ.getLast? = some r
      else u.recorder.perm = s.recorder.perm ++ [r] ∧ u.flash.mirror = u.recorder.perm
    (t.kind = 0 ∨ 0x11 < t.kind.toNat ∨ (selectable ∧ chosen = []) → exec (.recorderTrigger t) s = .next s) ∧
    (fixed ∨ (selectable ∧ chosen ≠ [] ∧ t.withinMs = false) →
      ∃ u r, exec (.recorderTrigger t) s = .next u ∧ news u r ∧ r.kind = t.kind ∧ r.seq = s.panel.seq ∧ r.site = t.site ∧
        r.unit = t.unit ∧ r.data = t.data ∧ u.mem = s.mem) ∧
    (selectable → chosen ≠ [] → t.withinMs = true → ∃ u, exec (.recorderTrigger t) s = .next u ∧
      u.recorder.suppressed = satInc s.recorder.suppressed ∧ u.recorder.perm = s.recorder.perm ∧
      u.recorder.circ = s.recorder.circ ∧ u.panel = s.panel)) ∧
  (∀ (s : State) (h : Cmd) (addr : Reg64) (len x : Word),
    let bad (o : Nat) : Host.Outcome State Fault Refusal := .next (s.answer h 0x0002 (bytesOf 2 o))
    (∀ only, s.takes h 0x0601 →
      let l := (s.faults.filter fun f => decide (x ≤ f.seq) && (!only || f.holds)).take (len.toNat / 64)
      exec (.faultRead h addr len x only) s = .next (s.deliver h addr.toNat len.toNat (l.flatMap FaultRec.bytes)
        (bytesOf 4 l.length ++ bytesOf 4 s.uncleared))) ∧
    (s.takes h 0x0602 →
      let found := s.faults.find? fun f => f.seq = x
      (found = none → exec (.faultClear h x) s = bad 16) ∧
      (∀ f, found = some f → s.causeGone f = false → exec (.faultClear h x) s = .next (s.answer h 0x0005)) ∧
      (∀ f, found = some f → s.causeGone f = true → ∃ (t : State) (d : List Byte),
        exec (.faultClear h x) s = .next (t.answer h 0 d) ∧
        (t.faults.find? fun g => g.seq = x) = some { f with cleared := true, opened := f.opened && f.cls != 2 } ∧
        ((∀ g ∈ eraseOne f s.faults, g.cleared = true ∨ (g.cls ≠ 2 ∧ g.cls ≠ 3)) → t.panel.stopped = false))) ∧
    (s.takes h 0x0603 →
      (x = 0 ∨ 64 ≤ x.toNat → exec (.eventWait h x) s = bad 16) ∧
      (x ≠ 0 → x.toNat < 64 → h.origin ≠ .mgmt → 128 ≤ s.waitCount h.origin →
        exec (.eventWait h x) s = .next (s.answer h 0x0009)) ∧
      (x ≠ 0 → x.toNat < 64 → h.origin = .mgmt ∨ s.waitCount h.origin < 128 →
        exec (.eventWait h x) s = .next { s with waiters := s.waiters ++ [(.event x, h)] })) ∧
    (∀ area : BitVec 8, s.takes h 0x0604 →
      let l := (s.areaRecords area.toNat).take (len.toNat / 192)
      (4 ≤ area.toNat → exec (.recRead h addr len area) s = bad 28) ∧
      (area.toNat < 4 → exec (.recRead h addr len area) s =
        .next (s.deliver h addr.toNat len.toNat (l.flatMap RecRec.bytes) (bytesOf 4 l.length)))) ∧
    (s.takes h 0x0605 → ∃ (t : State) (d : List Byte), exec (.recClear h) s = .next (t.answer h 0 d) ∧
      t.recorder.circ = [] ∧ ∃ r, t.recorder.perm = [r] ∧ r.kind = 0x10 ∧ t.flash.mirror = [r]) ∧
    (∀ (target count port : BitVec 8) (site unit : BitVec 16),
      let u := unitOfWord site
      let k := unitKey u
      let m := u.row.toNat
      let used := s.recordKind 0x09 (bytesOf 4 h.session.toNat)
      let field := used.injectField target.toNat count.toNat site unit.toNat port.toNat
      let sealed : Prop := (s.injectPart u).any (fun n => (s.part n).secrets.isSome) = true
      let mine : Prop := (s.injectPart u).all (fun n => h.origin == .host (s.part n).owner) = true
      (s.hears h.origin = true → s.sessionOk h.origin h.session 4 = true → sealed →
        exec (.inject h target count site unit port) s = .next (s.answer h 0x0006)) ∧
      (s.takes h 0x0606 → ¬ sealed →
        (¬ mine → exec (.inject h target count site unit port) s = .next (used.answer h 0x0004)) ∧
        (∀ o, mine → field = some o →
          exec (.inject h target count site unit port) s = .next (used.answer h 0x0002 (bytesOf 2 o))) ∧
        (mine → field = none → ∃ t : State, exec (.inject h target count site unit port) s = .next (t.answer h 0) ∧
          t.mem = s.mem ∧
          (∀ c, target = 0 → s.coreAt k unit.toNat = some c → (t.core c).inject = some (port, count.toNat)) ∧
          (target = 1 → (t.stack (4 * m + unit.toNat)).inject = some count.toNat) ∧
          (target = 2 → (t.edge k unit.toNat).inject = some count.toNat) ∧
          (2 < target.toNat → (t.port (8 * m + unit.toNat)).inject = some (target, count.toNat))))))

/-- R395-R397, R399, R401, R402, R410, R452: each millisecond the placed cores of Running partitions are sampled, and the
first partition whose active cores all stand still for the threshold loses its job. The test of a core waits for a quiet
partition; a failure decides a retirement. A retirement that was decided is listed once its partition is Idle. An
engagement that was ordered waits for the partitions that it moves and for its links; a weir that fails is recorded, and
else the row has its new map. RETIRE takes out a unit that no partition uses. Completes: HANG_SAMPLE, POST_FAULT_TEST,
UNIT_RETIRE, SPARE_ENGAGE, RETIRE. -/
def Obligations.Retirements : Prop :=
  (∀ s : State,
    let s1 : State := { s with cores := tmap {} (fun key k => if s.samples key k then k.sampled else k) s.cores }
    let active (n : Nat) : List CoreRef := (s1.placedCores n).filter fun c => (s1.core c).active
    let hung (n : Nat) : Prop := (s.part n).state = .running ∧ active n ≠ [] ∧
      ∀ c ∈ active n, s.panel.threshold ≤ (s1.core c).still.toNat
    ((∀ n, n < 16 → ¬ hung n) → exec .hangSample s = .next s1) ∧
    (∀ n c, n < 16 → hung n → (∀ m, m < n → ¬ hung m) → firstCore (active n) = some c →
      s.partOfDie (dieRow c) (dieCol c) = some n → ∃ t, exec .hangSample s = .next t ∧ (t.part n).state = .idle) ∧
    (∃ t, exec .hangSample s = .next t)) ∧
  (∀ (s : State) (c : CoreRef) (d : Nat) (pass : Bool), s.coreOk c = true → s.dieOf c = some d →
    let u := RetUnit.core (siteOfKey d) (BitVec.ofNat 10 (coreIndex c))
    let quiet : Prop := (s.partOfDie (dieRow c) (dieCol c)).all s.partQuiet = true
    let listed : Prop := ∃ e ∈ s.flash.pendingRet ++ s.flash.retLog, e.1 = u
    ((s.core c).testing = false ∨ ¬ quiet → exec (.postFaultTest c pass) s = .next s) ∧
    (∃ t, exec (.postFaultTest c pass) s = .next t) ∧
    ((s.core c).testing = true → quiet → (∀ n, n < 16 → (s.part n).loadWait = []) →
      (∃ t, exec (.postFaultTest c true) s = .next t ∧ (t.core c).testing = false ∧ t.flash = s.flash ∧ t.mem = s.mem) ∧
      (listed → ∃ t, exec (.postFaultTest c false) s = .next t ∧ (t.core c).testing = false ∧ t.flash = s.flash) ∧
      (¬ listed → ∃ t e, exec (.postFaultTest c false) s = .next t ∧ (t.core c).testing = false ∧
        t.flash.pendingRet = s.flash.pendingRet ++ [e] ∧ e.1 = u))) ∧
  (∀ (s : State) (u : RetUnit), s.siteOk (retHome u) = true →
    let decided := s.flash.pendingRet.find? fun e => e.1 = u
    (decided = none ∨ s.unitQuiet u = false → exec (.unitRetire u) s = .next s) ∧
    (∀ src seq, decided = some (u, src, seq) → s.unitQuiet u = true → ∃ t, exec (.unitRetire u) s = .next t ∧
      (∃ e ∈ t.flash.retLog, e.1 = u ∧ e.2.1 = src) ∧ ∀ e ∈ t.flash.pendingRet, e.1 ≠ u)) ∧
  (∀ (s : State) (row : BitVec 4) (weirs : List Site),
    let r := row.toNat
    let plan := s.planRow r
    let moved : Prop := (s.movedParts r).all s.partQuiet = true
    let differs : Prop := plan.lcol ≠ (s.row r).lcol ∨ plan.leftOut ≠ (s.row r).leftOut
    let new := s.setRow r plan
    let bad (w : Site) : Prop := w ∈ weirs ∧ w.row = row ∧ s.siteOk w = true ∧ s.weirBad r w.col.toNat = false
    let ordered : Prop := row ∈ s.panel.engage ∧ moved
    (¬ ordered → exec (.spareEngage row weirs) s = .next s) ∧
    (ordered → differs → s.linksClear new r = false → exec (.spareEngage row weirs) s = .next (s.onPanel fun p =>
      { p with holds := (s.changedLinks new r).map fun e => 4 * e.1 + e.2 })) ∧
    (ordered → differs → s.linksClear new r = true → (∃ w, bad w) →
      ∃ t, exec (.spareEngage row weirs) s = .next t ∧ t.panel.holds = [] ∧ t.rows = s.rows ∧
        ∀ w, bad w → w ∈ t.flash.weirs) ∧
    (ordered → (¬ differs ∨ s.linksClear new r = true) → (differs → ¬ ∃ w, bad w) →
      (∀ n, n < 16 → (s.part n).loadWait = []) →
      ∃ t, exec (.spareEngage row weirs) s = .next t ∧ row ∉ t.panel.engage ∧ (t.row r).lcol = plan.lcol ∧
        (t.row r).leftOut = plan.leftOut) ∧
    (∃ t, exec (.spareEngage row weirs) s = .next t)) ∧
  (∀ (s : State) (h : Cmd) (d : Site) (unit : BitVec 8) (i : BitVec 16), s.takes h 0x0A06 →
    let u := retUnitOf d unit i
    let bad (o : Nat) : Host.Outcome State Fault Refusal := .next (s.answer h 0x0002 (bytesOf 2 o))
    let place : Prop := s.siteOk d = true
    let index : Prop := (unit = 0 → i.toNat < 1024) ∧ (unit = 1 → i.toNat < 64)
    (12 ≤ d.row.toNat → exec (.retire h d unit i) s = bad 16) ∧
    (d.row.toNat < 12 → ¬ place → exec (.retire h d unit i) s = bad 17) ∧
    (d.row.toNat < 12 → place →
      (2 < unit.toNat → exec (.retire h d unit i) s = bad 18) ∧
      (unit.toNat ≤ 2 → ¬ index → exec (.retire h d unit i) s = bad 19) ∧
      (unit.toNat ≤ 2 → index → s.unitQuiet u = false → exec (.retire h d unit i) s = .next (s.answer h 0x0005)) ∧
      (unit.toNat ≤ 2 → index → s.unitQuiet u = true → s.unitRetired u = false →
        ∃ t : State, exec (.retire h d unit i) s = .next (t.answer h 0) ∧ ∃ e ∈ t.flash.retLog, e.1 = u ∧ e.2.1 = 0) ∧
      (unit.toNat ≤ 2 → index → s.unitQuiet u = true → s.unitRetired u = true →
        ∃ t : State, exec (.retire h d unit i) s = .next (t.answer h 0) ∧ t.flash.retLog = s.flash.retLog)))

/-- R416, R421, R422, R423, R427, R428: identity and attestation reports are delivered. A session opens with a fresh number
that is not zero, is authorised by the owner's signatures or lost without them, and ends; an offer stands until it lapses
or is consumed, and one that opens gives the partition its secrets. Debug stops, resumes, reads and writes the cores of an
unsealed partition that the command names; a sealed one refuses it. Completes: IDENTITY, ATTEST, SESSION_OPEN,
SESSION_AUTH, SESSION_AUTH_TIMEOUT, SESSION_CLOSE, SESSION_EXPIRE, SEAL_OFFER, SEAL_OFFER_LAPSE, SEAL_ACCEPT, DEBUG_STOP,
DEBUG_RESUME, DEBUG_READ, DEBUG_WRITE. -/
def Obligations.SecurityCommands : Prop :=
  (∀ (s : State) (h : Cmd) (addr : Reg64) (len : Word),
    let n := h.part.toNat
    let bad (o : Nat) : Host.Outcome State Fault Refusal := .next (s.answer h 0x0002 (bytesOf 2 o))
    let input := s.takeInput h addr.toNat len.toNat
    let unknown := s.recordKind 0x0A (bytesOf 4 h.session.toNat)
    (s.takes h 0x0701 →
      let need := identityBlock.length
      exec (.identity h addr len) s = .next (
        if len.toNat < need then s.answer h 0x0002 (bytesOf 2 24 ++ bytesOf 2 0 ++ bytesOf 4 need)
        else s.deliver h addr.toNat len.toNat identityBlock (bytesOf 4 need))) ∧
    (∀ (part : BitVec 8) nonce, s.takes h 0x0702 →
      (16 ≤ part.toNat → part ≠ 0xFF → exec (.attest h addr len part nonce) s = .next (s.answer h 0x0003)) ∧
      (part.toNat < 16 ∨ part = 0xFF → len.toNat < 3829 → exec (.attest h addr len part nonce) s = bad 24) ∧
      (part.toNat < 16 ∨ part = 0xFF → 3829 ≤ len.toNat → ∃ report, exec (.attest h addr len part nonce) s =
        .next (s.deliver h addr.toNat len.toNat report (bytesOf 4 3829)) ∧
        report.take 7 = bytesOf 4 0x54415A41 ++ bytesOf 2 1 ++ bytesOf 1 part.toNat)) ∧
    (∀ rights minutes : BitVec 16, s.takes h 0x0703 →
      let room := s.outputStatus h addr.toNat 64 64
      let lasts : Prop := 0 < minutes.toNat ∧ minutes.toNat ≤ 480
      (32 ≤ rights.toNat → exec (.sessionOpen h addr rights minutes) s = bad 24) ∧
      (rights.toNat < 32 → ¬ lasts → exec (.sessionOpen h addr rights minutes) s = bad 26) ∧
      (rights.toNat < 32 → lasts →
        (room ≠ 0 → ∃ d, exec (.sessionOpen h addr rights minutes) s = .next (s.answer h room d)) ∧
        (room = 0 → 4 ≤ s.sec.sessions.length →
          exec (.sessionOpen h addr rights minutes) s = .next (s.answer h 0x0009)) ∧
        (room = 0 → s.sec.sessions.length < 4 → ∃ (t : State) (e : Session), exec (.sessionOpen h addr rights minutes) s =
            .next (t.deliver h addr.toNat 64 e.challenge (bytesOf 4 e.number.toNat)) ∧
          t.sec.sessions = s.sec.sessions ++ [e] ∧ e.number ≠ 0 ∧ (∀ o ∈ s.sec.sessions, o.number ≠ e.number) ∧
          e.authorised = false ∧ e.rights = rights ∧ e.minutes = minutes ∧ e.origin = h.origin))) ∧
    (s.takes h 0x0704 →
      (s.sessionOf h = none → exec (.sessionAuth h addr len) s = .next (unknown.answer h 0x0006)) ∧
      (∀ e, s.sessionOf h = some e →
        (len ≠ 3373 → exec (.sessionAuth h addr len) s = bad 24) ∧
        (∀ st d, len = 3373 → input = .inl (st, d) → exec (.sessionAuth h addr len) s = .next (s.answer h st d)) ∧
        (∀ sigs, len = 3373 → input = .inr sigs →
          let signed := s.ownerSigned e sigs
          ∃ t : State, exec (.sessionAuth h addr len) s = .next (t.answer h (if signed then 0 else 0x0006)) ∧
            t.sec.sessions = (if signed then
              s.sec.sessions.map fun o => if o.number = e.number then { o with authorised := true } else o
              else s.sec.sessions.filter fun o => o.number != e.number)))) ∧
    (s.takes h 0x0705 →
      (s.sessionOf h = none → exec (.sessionClose h) s = .next (unknown.answer h 0x0006)) ∧
      (∀ e, s.sessionOf h = some e → ∃ t : State, exec (.sessionClose h) s = .next (t.answer h 0) ∧
        t.sec.sessions = s.sec.sessions.filter fun o => o.number != e.number)) ∧
    (∀ nonce, s.takes h 0x0706 →
      let room := s.outputStatus h addr.toNat 4905 len.toNat
      (len.toNat < 4905 → exec (.sealOffer h addr len nonce) s = bad 24) ∧
      (4905 ≤ len.toNat → room ≠ 0 → ∃ d, exec (.sealOffer h addr len nonce) s = .next (s.answer h room d)) ∧
      (4905 ≤ len.toNat → room = 0 → ∃ (t : State) (o : SealOffer) (out : List Byte), exec (.sealOffer h addr len nonce) s =
          .next (t.deliver h addr.toNat len.toNat out (bytesOf 4 4905)) ∧ (t.part n).offer = some o ∧
        o.seq = s.panel.seq ∧ out.take 5 = bytesOf 4 0x46535A41 ++ bytesOf 1 n ∧ t.mem = s.mem)) ∧
    (s.takes h 0x0707 →
      (len ≠ 1352 → exec (.sealAccept h addr len) s = bad 24) ∧
      (∀ st d, len = 1352 → input = .inl (st, d) → exec (.sealAccept h addr len) s = .next (s.answer h st d)) ∧
      (∀ msg, len = 1352 → input = .inr msg →
        let opened := (s.part n).offer.bind fun o => o.open_ msg
        ∃ t : State, exec (.sealAccept h addr len) s = .next (t.answer h (if opened.isSome then 0 else 0x0006)) ∧
          (t.part n).offer = none ∧
          (t.part n).secrets = (if opened.isSome then opened else (s.part n).secrets))) ∧
    (∀ number : Word,
      let closes (t : State) : Prop := t.sec.sessions = s.sec.sessions.filter fun o => o.number != number
      let known : Prop := ∃ e ∈ s.sec.sessions, e.number = number
      let waits : Prop := ∃ e ∈ s.sec.sessions, e.number = number ∧ e.authorised = false
      (¬ known → exec (.sessionExpire number) s = .next s) ∧
      (known → ∃ t, exec (.sessionExpire number) s = .next t ∧ closes t) ∧
      (¬ waits → exec (.sessionAuthTimeout number) s = .next s) ∧
      (waits → ∃ t, exec (.sessionAuthTimeout number) s = .next t ∧ closes t)) ∧
    (∀ p : BitVec 4, exec (.sealOfferLapse p) s = .next (s.setPart p.toNat { s.part p.toNat with offer := none }))) ∧
  (∀ (s : State) (h : Cmd) (x y : BitVec 16) (off : BitVec 24) (addr : Reg64) (len : Word),
    let n := h.part.toNat
    let used := s.recordKind 0x09 (bytesOf 4 h.session.toNat)
    let bad (o : Nat) : Host.Outcome State Fault Refusal := .next (used.answer h 0x0002 (bytesOf 2 o))
    let room (l : List CoreRef) := used.outputStatus h addr.toNat (l.length * len.toNat) len.toNat
    let plain (c : CoreRef) : Prop := (s.core c).noUncorrectable off.toNat len.toNat ∧ (s.core c).inject = none ∧
      (∀ e ∈ (s.core c).banks, e.2.ingress = none) ∧ (s.core c).rangeOn off.toNat len.toNat = true
    ((s.part n).secrets.isSome = true → s.hears h.origin = true → s.sessionOk h.origin h.session 2 = true →
      exec (.debugStop h x y) s = .next (s.answer h 0x0006) ∧ exec (.debugResume h x y) s = .next (s.answer h 0x0006) ∧
      exec (.debugRead h x y off addr len) s = .next (s.answer h 0x0006) ∧
      exec (.debugWrite h x y off addr len) s = .next (s.answer h 0x0006)) ∧
    (s.takes h 0x0708 → (s.part n).secrets = none →
      (used.debugCores n x y = none → exec (.debugStop h x y) s = bad 17 ∧ exec (.debugResume h x y) s = bad 17 ∧
        exec (.debugRead h x y off addr len) s = bad 17 ∧ exec (.debugWrite h x y off addr len) s = bad 17) ∧
      (∀ l, used.debugCores n x y = some l →
        (∃ t : State, exec (.debugStop h x y) s = .next (t.answer h 0) ∧ t.mem = s.mem ∧
          ∀ c ∈ l, (s.core c).mode = .run ∨ (s.core c).mode = .wait → (t.core c).debugStop = true) ∧
        (∃ t : State, exec (.debugResume h x y) s = .next (t.answer h 0) ∧ t.mem = s.mem ∧
          ∀ c ∈ l, (s.core c).mode = .runtime → (s.core c).service = .debug → (s.core c).wait = .none →
            (t.core c).mode = .run ∧ (t.core c).pc = (s.core c).rtPc) ∧
        (∀ o, debugField off.toNat len.toNat = some o → exec (.debugRead h x y off addr len) s = bad o ∧
          exec (.debugWrite h x y off addr len) s = bad o) ∧
        (debugField off.toNat len.toNat = none →
          (room l ≠ 0 → ∃ d, exec (.debugRead h x y off addr len) s = .next (used.answer h (room l) d)) ∧
          (room l = 0 → (used.debugGather l off.toNat len.toNat).2 = none →
            ∃ t : State, exec (.debugRead h x y off addr len) s = .next (t.answer h 0x0002 (bytesOf 2 21))) ∧
          (∀ b, room l = 0 → (used.debugGather l off.toNat len.toNat).2 = some b →
            ∃ t : State, exec (.debugRead h x y off addr len) s = .next (t.answerData h addr.toNat b []) ∧ t.mem = s.mem) ∧
          (∀ c, room l = 0 → l = [c] → plain c → ∃ t : State, exec (.debugRead h x y off addr len) s =
            .next (t.answerData h addr.toNat (memRead s.mem (spAddr c off.toNat) len.toNat) []) ∧ t.mem = s.mem) ∧
          (∀ st d, used.takeInput h addr.toNat len.toNat = .inl (st, d) →
            exec (.debugWrite h x y off addr len) s = .next (used.answer h st d)) ∧
          (∀ b, used.takeInput h addr.toNat len.toNat = .inr b →
            (∃ t : State, exec (.debugWrite h x y off addr len) s = .next (t.answer h 0)) ∧
            (∀ c, l = [c] → plain c → b.length = len.toNat → ∃ t : State, exec (.debugWrite h x y off addr len) s =
              .next (t.answer h 0) ∧ t.mem = memWrite s.mem (spAddr c off.toNat) b))))))

/-! ### The queue and the whole machine -/

/-- The command at the front of the queue is carried out with the rest of the queue waiting. On an empty queue the panel goes
on with what it has taken in (the model's choice, log entries 2, 16 and 73): it carries out the oldest command that Velty
has fetched, or answers one that names none; with none of these the reset that has gone on longest ends, and with nothing
going on it idles. -/
def Obligations.StepRunsTheFrontCommand : Prop :=
  (∀ (s : State) (c : Instr) (rest : List Instr), s.pending = c :: rest → step s = exec c { s with pending := rest }) ∧
  (∀ s : State, s.pending = [] →
    (∀ h b rest, s.fetched = (h, b) :: rest →
      (∀ i, commandOf h b s.free = some i → step s = exec i { s.tick with fetched := rest }) ∧
      (commandOf h b s.free = none → step s = .next ({ s with fetched := rest }.refuseRaw h b))) ∧
    (s.fetched = [] → step s = .next s.idle ∧ (s.resets = [] → step s = .next s)))

/-- No command and no event of any kind takes or adds a waiting command, and each keeps the canonical form of both memories;
so every step keeps the form and takes exactly the front command. -/
def Obligations.EveryStepKeepsQueueAndMemory : Prop :=
  (∀ (i : Instr) (s t : State), exec i s = .next t → t.pending = s.pending ∧ (s.memWf = true → t.memWf = true)) ∧
  (∀ s t : State, step s = .next t → t.pending = s.pending.tail ∧ (s.memWf = true → t.memWf = true))

/-- R36, R69, R94, R179, R285, R388, R442: the state after reset: no command waits, both memories are in canonical form and
read as zero, every partition is free, every die idle, and the panel identity is not set. -/
def Obligations.ResetState : Prop :=
  State.reset.pending = [] ∧ State.reset.memWf = true ∧ (∀ a, memGet State.reset.mem a = 0) ∧
  (∀ n, (State.reset.part n).state = .free) ∧ (∀ d, (State.reset.die d).net = .idle) ∧
  State.reset.panel.panelId = 0xFFFF ∧ State.reset.panel.ready = false ∧ State.reset.faults = [] ∧
  (∀ c : CoreRef, (State.reset.core c).powered = 0)
end

