-- ==== Sys2Proof/Laws/Memory.lean ====
section
/-!
SUPPORT. Tables and byte memory: every operation keeps the canonical form (rising keys, no entry equal to what an unlisted
key reads as), a read after a write gives what was written, and a write leaves every other place alone.
-/

namespace Sys2Proof.Machine

/-! ### The canonical form of a table -/

/-- Every key of a table is at least `a`. -/
def keysFrom {α : Type} (a : Nat) (t : Tbl α) : Prop := ∀ e ∈ t, a ≤ e.1

/-- The keys of a table rise, and no entry equals the default. -/
def tblWf {α : Type} (d : α) (t : Tbl α) : Prop := keysRise t = true ∧ ∀ e ∈ t, e.2 ≠ d

theorem keysRise_cons {α : Type} (a : Nat) (v : α) (t : Tbl α) :
    keysRise ((a, v) :: t) = true ↔ keysFrom (a + 1) t ∧ keysRise t = true := by
  induction t generalizing a v with
  | nil => simp [keysRise, keysFrom]
  | cons e t ih =>
    obtain ⟨b, w⟩ := e
    simp only [keysRise, Bool.and_eq_true, decide_eq_true_eq, keysFrom, List.mem_cons, forall_eq_or_imp]
    constructor
    · rintro ⟨hab, hr⟩
      refine ⟨⟨by omega, fun e he => ?_⟩, hr⟩
      have := ((ih b w).1 hr).1 e he
      omega
    · rintro ⟨⟨hab, _⟩, hr⟩
      exact ⟨by omega, hr⟩

theorem keysRise_filter {α : Type} (p : Nat × α → Bool) (t : Tbl α) (h : keysRise t = true) :
    keysRise (t.filter p) = true := by
  induction t with
  | nil => rfl
  | cons e t ih =>
    obtain ⟨a, v⟩ := e
    obtain ⟨hf, hr⟩ := (keysRise_cons a v t).1 h
    by_cases hp : p (a, v)
    · rw [List.filter_cons_of_pos hp]
      exact (keysRise_cons a v _).2 ⟨fun e he => hf e (List.mem_filter.1 he).1, ih hr⟩
    · rw [List.filter_cons_of_neg hp]
      exact ih hr

theorem tdel_eq_filter {α : Type} (t : Tbl α) (k : Nat) : tdel t k = t.filter fun e => decide (e.1 ≠ k) := by
  induction t with
  | nil => rfl
  | cons e t ih =>
    obtain ⟨a, v⟩ := e
    by_cases h : a = k <;> simp [tdel, h, ih]

theorem keysFrom_tput {α : Type} (a k : Nat) (v : α) (t : Tbl α) (h : keysFrom a t) (hk : a ≤ k) :
    keysFrom a (tput t k v) := by
  induction t with
  | nil => intro e he; simp [tput] at he; subst he; exact hk
  | cons e t ih =>
    obtain ⟨b, w⟩ := e
    have hb := h (b, w) (List.mem_cons_self ..)
    have ht : keysFrom a t := fun e he => h e (List.mem_cons_of_mem _ he)
    intro e he
    simp only [tput] at he
    split at he
    · rcases List.mem_cons.1 he with rfl | he
      · exact hk
      · exact h e he
    · split at he
      · rcases List.mem_cons.1 he with rfl | he
        · exact hk
        · exact ht e he
      · rcases List.mem_cons.1 he with rfl | he
        · exact hb
        · exact ih ht e he

theorem keysRise_tput {α : Type} (k : Nat) (v : α) (t : Tbl α) (h : keysRise t = true) : keysRise (tput t k v) = true := by
  induction t with
  | nil => rfl
  | cons e t ih =>
    obtain ⟨b, w⟩ := e
    obtain ⟨hf, hr⟩ := (keysRise_cons b w t).1 h
    simp only [tput]
    split
    · rename_i hk
      refine (keysRise_cons k v _).2 ⟨fun e he => ?_, h⟩
      rcases List.mem_cons.1 he with rfl | he
      · exact hk
      · have := hf e he; omega
    · split
      · rename_i _ hk
        subst hk
        exact (keysRise_cons k v t).2 ⟨hf, hr⟩
      · exact (keysRise_cons b w _).2 ⟨keysFrom_tput _ _ _ _ hf (by omega), ih hr⟩

theorem mem_tput {α : Type} (k : Nat) (v : α) (t : Tbl α) (e : Nat × α) (h : e ∈ tput t k v) : e = (k, v) ∨ e ∈ t := by
  induction t with
  | nil => simpa [tput] using h
  | cons a t ih =>
    obtain ⟨b, w⟩ := a
    simp only [tput] at h
    split at h
    · exact List.mem_cons.1 h
    · split at h
      · rcases List.mem_cons.1 h with h | h
        · exact .inl h
        · exact .inr (List.mem_cons_of_mem _ h)
      · rcases List.mem_cons.1 h with h | h
        · exact .inr (h ▸ List.mem_cons_self ..)
        · rcases ih h with h | h
          · exact .inl h
          · exact .inr (List.mem_cons_of_mem _ h)

/-- Changing an entry keeps a table canonical. -/
theorem tset_wf {α : Type} [DecidableEq α] (d : α) (t : Tbl α) (k : Nat) (v : α) (h : tblWf d t) : tblWf d (tset d t k v) := by
  unfold tset
  split
  · rw [tdel_eq_filter]
    exact ⟨keysRise_filter _ _ h.1, fun e he => h.2 e (List.mem_filter.1 he).1⟩
  · rename_i hv
    refine ⟨keysRise_tput _ _ _ h.1, fun e he => ?_⟩
    rcases mem_tput _ _ _ _ he with rfl | he
    · exact hv
    · exact h.2 e he

/-! ### Reading what was written -/

theorem tget_of_keysFrom {α : Type} (d : α) (t : Tbl α) (a k : Nat) (h : keysFrom a t) (hk : k < a) : tget d t k = d := by
  induction t with
  | nil => rfl
  | cons e t ih =>
    obtain ⟨b, w⟩ := e
    have hb := h (b, w) (List.mem_cons_self ..)
    have hne : ¬b = k := by intro hbk; simp only at hb; omega
    simp only [tget, if_neg hne]
    exact ih fun e he => h e (List.mem_cons_of_mem _ he)

theorem tget_tput_same {α : Type} (d : α) (t : Tbl α) (k : Nat) (v : α) : tget d (tput t k v) k = v := by
  induction t with
  | nil => simp [tput, tget]
  | cons e t ih =>
    obtain ⟨b, w⟩ := e
    simp only [tput]
    split
    · simp [tget]
    · split
      · simp [tget]
      · rename_i _ hk
        have hne : ¬b = k := fun h => hk h.symm
        simp only [tget, if_neg hne]
        exact ih

theorem tget_tput_other {α : Type} (d : α) (t : Tbl α) (k j : Nat) (v : α) (h : j ≠ k) : tget d (tput t k v) j = tget d t j := by
  have hk : ¬k = j := fun e => h e.symm
  induction t with
  | nil => simp only [tput, tget, if_neg hk]
  | cons e t ih =>
    obtain ⟨b, w⟩ := e
    simp only [tput]
    split
    · simp only [tget, if_neg hk]
    · split
      · rename_i _ hkb
        subst hkb
        simp only [tget, if_neg hk]
      · simp only [tget, ih]

theorem tget_tdel_same {α : Type} (d : α) (t : Tbl α) (k : Nat) : tget d (tdel t k) k = d := by
  induction t with
  | nil => rfl
  | cons e t ih =>
    obtain ⟨b, w⟩ := e
    by_cases h : b = k
    · simp only [tdel, if_pos h, ih]
    · simp only [tdel, if_neg h, tget, ih]

theorem tget_tdel_other {α : Type} (d : α) (t : Tbl α) (k j : Nat) (h : j ≠ k) : tget d (tdel t k) j = tget d t j := by
  induction t with
  | nil => rfl
  | cons e t ih =>
    obtain ⟨b, w⟩ := e
    by_cases hb : b = k
    · subst hb
      have hj : ¬b = j := fun e => h e.symm
      simp only [tdel, tget, ih, if_true, if_neg hj]
    · simp only [tdel, if_neg hb, tget, ih]

/-- The entry just set is read back. -/
@[simp] theorem tget_tset_same {α : Type} [DecidableEq α] (d : α) (t : Tbl α) (k : Nat) (v : α) : tget d (tset d t k v) k = v := by
  unfold tset
  split
  · rename_i h; rw [tget_tdel_same, h]
  · exact tget_tput_same d t k v

/-- Setting an entry leaves every other one. -/
theorem tget_tset_other {α : Type} [DecidableEq α] (d : α) (t : Tbl α) (k j : Nat) (v : α) (h : j ≠ k) :
    tget d (tset d t k v) j = tget d t j := by
  unfold tset
  split
  · exact tget_tdel_other d t k j h
  · exact tget_tput_other d t k j v h

/-! ### Byte memory -/

theorem memory_wf_iff (m : List Host.Cell) : Memory.wf m = true ↔ tblWf 0 m := by
  simp [Memory.wf, tblWf]

theorem memSet_wf (m : List Host.Cell) (a : Nat) (b : Byte) (h : Memory.wf m = true) : Memory.wf (memSet m a b) = true :=
  (memory_wf_iff _).2 (tset_wf 0 m a b ((memory_wf_iff m).1 h))

/-- Writing bytes keeps memory canonical. -/
theorem memWrite_wf (bs : List Byte) : ∀ (m : List Host.Cell) (a : Nat), Memory.wf m = true → Memory.wf (memWrite m a bs) = true := by
  induction bs with
  | nil => intro m a h; exact h
  | cons b bs ih => intro m a h; exact ih _ _ (memSet_wf m a b h)

/-- Forgetting bytes keeps memory canonical. -/
theorem memDrop_wf (m : List Host.Cell) (p : Nat → Bool) (h : Memory.wf m = true) : Memory.wf (memDrop m p) = true := by
  have hw := (memory_wf_iff m).1 h
  exact (memory_wf_iff _).2 ⟨keysRise_filter _ _ hw.1, fun e he => hw.2 e (List.mem_filter.1 he).1⟩

/-- The byte just written is read back. -/
@[simp] theorem memGet_memSet_same (m : List Host.Cell) (a : Nat) (b : Byte) : memGet (memSet m a b) a = b :=
  tget_tset_same 0 m a b

theorem memGet_memSet_other (m : List Host.Cell) (a j : Nat) (b : Byte) (h : j ≠ a) : memGet (memSet m a b) j = memGet m j :=
  tget_tset_other 0 m a j b h

/-- Writing bytes leaves every address outside them. -/
theorem memGet_memWrite_outside (bs : List Byte) : ∀ (m : List Host.Cell) (a j : Nat), (j < a ∨ a + bs.length ≤ j) →
    memGet (memWrite m a bs) j = memGet m j := by
  induction bs with
  | nil => intro m a j _; rfl
  | cons b bs ih =>
    intro m a j h
    simp only [List.length_cons] at h
    show memGet (memWrite (memSet m a b) (a + 1) bs) j = memGet m j
    rw [ih _ _ _ (by omega), memGet_memSet_other _ _ _ _ (by omega)]

/-- Bytes just written are read back. -/
theorem memRead_memWrite (bs : List Byte) : ∀ (m : List Host.Cell) (a : Nat),
    memRead (memWrite m a bs) a bs.length = bs := by
  induction bs with
  | nil => intro m a; rfl
  | cons b bs ih =>
    intro m a
    show memGet (memWrite (memSet m a b) (a + 1) bs) a :: memRead (memWrite (memSet m a b) (a + 1) bs) (a + 1) bs.length = b :: bs
    rw [ih, memGet_memWrite_outside _ _ _ _ (by omega), memGet_memSet_same]

end Sys2Proof.Machine
end

