-- ==== Sys2Proof/Laws/State.lean ====
section
/-!
SUPPORT. Every field of the panel after every update of one unit, and the units read back: no later proof unfolds a record
update.
-/

namespace Sys2Proof.Machine

/-! ### `State.setCore` -/

@[simp] theorem State.setCore_pending (s : State) (c : CoreRef) (k : Core) : (s.setCore c k).pending = s.pending := rfl
@[simp] theorem State.setCore_free (s : State) (c : CoreRef) (k : Core) : (s.setCore c k).free = s.free := rfl
@[simp] theorem State.setCore_mem (s : State) (c : CoreRef) (k : Core) : (s.setCore c k).mem = s.mem := rfl
@[simp] theorem State.setCore_hostMem (s : State) (c : CoreRef) (k : Core) : (s.setCore c k).hostMem = s.hostMem := rfl
@[simp] theorem State.setCore_cores (s : State) (c : CoreRef) (k : Core) :
    (s.setCore c k).cores = tset {} s.cores (coreKey c) k := rfl
@[simp] theorem State.setCore_routers (s : State) (c : CoreRef) (k : Core) : (s.setCore c k).routers = s.routers := rfl
@[simp] theorem State.setCore_dies (s : State) (c : CoreRef) (k : Core) : (s.setCore c k).dies = s.dies := rfl
@[simp] theorem State.setCore_regions (s : State) (c : CoreRef) (k : Core) : (s.setCore c k).regions = s.regions := rfl
@[simp] theorem State.setCore_edges (s : State) (c : CoreRef) (k : Core) : (s.setCore c k).edges = s.edges := rfl
@[simp] theorem State.setCore_rows (s : State) (c : CoreRef) (k : Core) : (s.setCore c k).rows = s.rows := rfl
@[simp] theorem State.setCore_culv (s : State) (c : CoreRef) (k : Core) : (s.setCore c k).culv = s.culv := rfl
@[simp] theorem State.setCore_msds (s : State) (c : CoreRef) (k : Core) : (s.setCore c k).msds = s.msds := rfl
@[simp] theorem State.setCore_hbm (s : State) (c : CoreRef) (k : Core) : (s.setCore c k).hbm = s.hbm := rfl
@[simp] theorem State.setCore_tags (s : State) (c : CoreRef) (k : Core) : (s.setCore c k).tags = s.tags := rfl
@[simp] theorem State.setCore_hbmErr (s : State) (c : CoreRef) (k : Core) : (s.setCore c k).hbmErr = s.hbmErr := rfl
@[simp] theorem State.setCore_given (s : State) (c : CoreRef) (k : Core) : (s.setCore c k).given = s.given := rfl
@[simp] theorem State.setCore_hardRows (s : State) (c : CoreRef) (k : Core) : (s.setCore c k).hardRows = s.hardRows :=
  rfl
@[simp] theorem State.setCore_ports (s : State) (c : CoreRef) (k : Core) : (s.setCore c k).ports = s.ports := rfl
@[simp] theorem State.setCore_ring (s : State) (c : CoreRef) (k : Core) : (s.setCore c k).ring = s.ring := rfl
@[simp] theorem State.setCore_shadows (s : State) (c : CoreRef) (k : Core) : (s.setCore c k).shadows = s.shadows := rfl
@[simp] theorem State.setCore_shadowShown (s : State) (c : CoreRef) (k : Core) :
    (s.setCore c k).shadowShown = s.shadowShown := rfl
@[simp] theorem State.setCore_linkIn (s : State) (c : CoreRef) (k : Core) : (s.setCore c k).linkIn = s.linkIn := rfl
@[simp] theorem State.setCore_linkCol (s : State) (c : CoreRef) (k : Core) : (s.setCore c k).linkCol = s.linkCol := rfl
@[simp] theorem State.setCore_groups (s : State) (c : CoreRef) (k : Core) : (s.setCore c k).groups = s.groups := rfl
@[simp] theorem State.setCore_parts (s : State) (c : CoreRef) (k : Core) : (s.setCore c k).parts = s.parts := rfl
@[simp] theorem State.setCore_hosts (s : State) (c : CoreRef) (k : Core) : (s.setCore c k).hosts = s.hosts := rfl
@[simp] theorem State.setCore_waiters (s : State) (c : CoreRef) (k : Core) : (s.setCore c k).waiters = s.waiters := rfl
@[simp] theorem State.setCore_mgmtStarted (s : State) (c : CoreRef) (k : Core) :
    (s.setCore c k).mgmtStarted = s.mgmtStarted := rfl
@[simp] theorem State.setCore_mgmtOut (s : State) (c : CoreRef) (k : Core) : (s.setCore c k).mgmtOut = s.mgmtOut := rfl
@[simp] theorem State.setCore_fetched (s : State) (c : CoreRef) (k : Core) : (s.setCore c k).fetched = s.fetched := rfl
@[simp] theorem State.setCore_resets (s : State) (c : CoreRef) (k : Core) : (s.setCore c k).resets = s.resets := rfl
@[simp] theorem State.setCore_ctlOut (s : State) (c : CoreRef) (k : Core) : (s.setCore c k).ctlOut = s.ctlOut := rfl
@[simp] theorem State.setCore_ctlReplies (s : State) (c : CoreRef) (k : Core) :
    (s.setCore c k).ctlReplies = s.ctlReplies := rfl
@[simp] theorem State.setCore_acks (s : State) (c : CoreRef) (k : Core) : (s.setCore c k).acks = s.acks := rfl
@[simp] theorem State.setCore_reports (s : State) (c : CoreRef) (k : Core) : (s.setCore c k).reports = s.reports := rfl
@[simp] theorem State.setCore_faults (s : State) (c : CoreRef) (k : Core) : (s.setCore c k).faults = s.faults := rfl
@[simp] theorem State.setCore_recorder (s : State) (c : CoreRef) (k : Core) : (s.setCore c k).recorder = s.recorder :=
  rfl
@[simp] theorem State.setCore_flash (s : State) (c : CoreRef) (k : Core) : (s.setCore c k).flash = s.flash := rfl
@[simp] theorem State.setCore_sec (s : State) (c : CoreRef) (k : Core) : (s.setCore c k).sec = s.sec := rfl
@[simp] theorem State.setCore_life (s : State) (c : CoreRef) (k : Core) : (s.setCore c k).life = s.life := rfl
@[simp] theorem State.setCore_panel (s : State) (c : CoreRef) (k : Core) : (s.setCore c k).panel = s.panel := rfl

/-! ### `State.setRouter` -/

@[simp] theorem State.setRouter_pending (s : State) (c : CoreRef) (r : Router) : (s.setRouter c r).pending = s.pending :=
  rfl
@[simp] theorem State.setRouter_free (s : State) (c : CoreRef) (r : Router) : (s.setRouter c r).free = s.free := rfl
@[simp] theorem State.setRouter_mem (s : State) (c : CoreRef) (r : Router) : (s.setRouter c r).mem = s.mem := rfl
@[simp] theorem State.setRouter_hostMem (s : State) (c : CoreRef) (r : Router) : (s.setRouter c r).hostMem = s.hostMem :=
  rfl
@[simp] theorem State.setRouter_cores (s : State) (c : CoreRef) (r : Router) : (s.setRouter c r).cores = s.cores := rfl
@[simp] theorem State.setRouter_routers (s : State) (c : CoreRef) (r : Router) :
    (s.setRouter c r).routers = tset {} s.routers (coreKey c) r := rfl
@[simp] theorem State.setRouter_dies (s : State) (c : CoreRef) (r : Router) : (s.setRouter c r).dies = s.dies := rfl
@[simp] theorem State.setRouter_regions (s : State) (c : CoreRef) (r : Router) : (s.setRouter c r).regions = s.regions :=
  rfl
@[simp] theorem State.setRouter_edges (s : State) (c : CoreRef) (r : Router) : (s.setRouter c r).edges = s.edges := rfl
@[simp] theorem State.setRouter_rows (s : State) (c : CoreRef) (r : Router) : (s.setRouter c r).rows = s.rows := rfl
@[simp] theorem State.setRouter_culv (s : State) (c : CoreRef) (r : Router) : (s.setRouter c r).culv = s.culv := rfl
@[simp] theorem State.setRouter_msds (s : State) (c : CoreRef) (r : Router) : (s.setRouter c r).msds = s.msds := rfl
@[simp] theorem State.setRouter_hbm (s : State) (c : CoreRef) (r : Router) : (s.setRouter c r).hbm = s.hbm := rfl
@[simp] theorem State.setRouter_tags (s : State) (c : CoreRef) (r : Router) : (s.setRouter c r).tags = s.tags := rfl
@[simp] theorem State.setRouter_hbmErr (s : State) (c : CoreRef) (r : Router) : (s.setRouter c r).hbmErr = s.hbmErr :=
  rfl
@[simp] theorem State.setRouter_given (s : State) (c : CoreRef) (r : Router) : (s.setRouter c r).given = s.given := rfl
@[simp] theorem State.setRouter_hardRows (s : State) (c : CoreRef) (r : Router) :
    (s.setRouter c r).hardRows = s.hardRows := rfl
@[simp] theorem State.setRouter_ports (s : State) (c : CoreRef) (r : Router) : (s.setRouter c r).ports = s.ports := rfl
@[simp] theorem State.setRouter_ring (s : State) (c : CoreRef) (r : Router) : (s.setRouter c r).ring = s.ring := rfl
@[simp] theorem State.setRouter_shadows (s : State) (c : CoreRef) (r : Router) : (s.setRouter c r).shadows = s.shadows :=
  rfl
@[simp] theorem State.setRouter_shadowShown (s : State) (c : CoreRef) (r : Router) :
    (s.setRouter c r).shadowShown = s.shadowShown := rfl
@[simp] theorem State.setRouter_linkIn (s : State) (c : CoreRef) (r : Router) : (s.setRouter c r).linkIn = s.linkIn :=
  rfl
@[simp] theorem State.setRouter_linkCol (s : State) (c : CoreRef) (r : Router) : (s.setRouter c r).linkCol = s.linkCol :=
  rfl
@[simp] theorem State.setRouter_groups (s : State) (c : CoreRef) (r : Router) : (s.setRouter c r).groups = s.groups :=
  rfl
@[simp] theorem State.setRouter_parts (s : State) (c : CoreRef) (r : Router) : (s.setRouter c r).parts = s.parts := rfl
@[simp] theorem State.setRouter_hosts (s : State) (c : CoreRef) (r : Router) : (s.setRouter c r).hosts = s.hosts := rfl
@[simp] theorem State.setRouter_waiters (s : State) (c : CoreRef) (r : Router) : (s.setRouter c r).waiters = s.waiters :=
  rfl
@[simp] theorem State.setRouter_mgmtStarted (s : State) (c : CoreRef) (r : Router) :
    (s.setRouter c r).mgmtStarted = s.mgmtStarted := rfl
@[simp] theorem State.setRouter_mgmtOut (s : State) (c : CoreRef) (r : Router) : (s.setRouter c r).mgmtOut = s.mgmtOut :=
  rfl
@[simp] theorem State.setRouter_fetched (s : State) (c : CoreRef) (r : Router) : (s.setRouter c r).fetched = s.fetched :=
  rfl
@[simp] theorem State.setRouter_resets (s : State) (c : CoreRef) (r : Router) : (s.setRouter c r).resets = s.resets :=
  rfl
@[simp] theorem State.setRouter_ctlOut (s : State) (c : CoreRef) (r : Router) : (s.setRouter c r).ctlOut = s.ctlOut :=
  rfl
@[simp] theorem State.setRouter_ctlReplies (s : State) (c : CoreRef) (r : Router) :
    (s.setRouter c r).ctlReplies = s.ctlReplies := rfl
@[simp] theorem State.setRouter_acks (s : State) (c : CoreRef) (r : Router) : (s.setRouter c r).acks = s.acks := rfl
@[simp] theorem State.setRouter_reports (s : State) (c : CoreRef) (r : Router) : (s.setRouter c r).reports = s.reports :=
  rfl
@[simp] theorem State.setRouter_faults (s : State) (c : CoreRef) (r : Router) : (s.setRouter c r).faults = s.faults :=
  rfl
@[simp] theorem State.setRouter_recorder (s : State) (c : CoreRef) (r : Router) :
    (s.setRouter c r).recorder = s.recorder := rfl
@[simp] theorem State.setRouter_flash (s : State) (c : CoreRef) (r : Router) : (s.setRouter c r).flash = s.flash := rfl
@[simp] theorem State.setRouter_sec (s : State) (c : CoreRef) (r : Router) : (s.setRouter c r).sec = s.sec := rfl
@[simp] theorem State.setRouter_life (s : State) (c : CoreRef) (r : Router) : (s.setRouter c r).life = s.life := rfl
@[simp] theorem State.setRouter_panel (s : State) (c : CoreRef) (r : Router) : (s.setRouter c r).panel = s.panel := rfl

/-! ### `State.setDie` -/

@[simp] theorem State.setDie_pending (s : State) (n : Nat) (d : Die) : (s.setDie n d).pending = s.pending := rfl
@[simp] theorem State.setDie_free (s : State) (n : Nat) (d : Die) : (s.setDie n d).free = s.free := rfl
@[simp] theorem State.setDie_mem (s : State) (n : Nat) (d : Die) : (s.setDie n d).mem = s.mem := rfl
@[simp] theorem State.setDie_hostMem (s : State) (n : Nat) (d : Die) : (s.setDie n d).hostMem = s.hostMem := rfl
@[simp] theorem State.setDie_cores (s : State) (n : Nat) (d : Die) : (s.setDie n d).cores = s.cores := rfl
@[simp] theorem State.setDie_routers (s : State) (n : Nat) (d : Die) : (s.setDie n d).routers = s.routers := rfl
@[simp] theorem State.setDie_dies (s : State) (n : Nat) (d : Die) : (s.setDie n d).dies = tset {} s.dies n d := rfl
@[simp] theorem State.setDie_regions (s : State) (n : Nat) (d : Die) : (s.setDie n d).regions = s.regions := rfl
@[simp] theorem State.setDie_edges (s : State) (n : Nat) (d : Die) : (s.setDie n d).edges = s.edges := rfl
@[simp] theorem State.setDie_rows (s : State) (n : Nat) (d : Die) : (s.setDie n d).rows = s.rows := rfl
@[simp] theorem State.setDie_culv (s : State) (n : Nat) (d : Die) : (s.setDie n d).culv = s.culv := rfl
@[simp] theorem State.setDie_msds (s : State) (n : Nat) (d : Die) : (s.setDie n d).msds = s.msds := rfl
@[simp] theorem State.setDie_hbm (s : State) (n : Nat) (d : Die) : (s.setDie n d).hbm = s.hbm := rfl
@[simp] theorem State.setDie_tags (s : State) (n : Nat) (d : Die) : (s.setDie n d).tags = s.tags := rfl
@[simp] theorem State.setDie_hbmErr (s : State) (n : Nat) (d : Die) : (s.setDie n d).hbmErr = s.hbmErr := rfl
@[simp] theorem State.setDie_given (s : State) (n : Nat) (d : Die) : (s.setDie n d).given = s.given := rfl
@[simp] theorem State.setDie_hardRows (s : State) (n : Nat) (d : Die) : (s.setDie n d).hardRows = s.hardRows := rfl
@[simp] theorem State.setDie_ports (s : State) (n : Nat) (d : Die) : (s.setDie n d).ports = s.ports := rfl
@[simp] theorem State.setDie_ring (s : State) (n : Nat) (d : Die) : (s.setDie n d).ring = s.ring := rfl
@[simp] theorem State.setDie_shadows (s : State) (n : Nat) (d : Die) : (s.setDie n d).shadows = s.shadows := rfl
@[simp] theorem State.setDie_shadowShown (s : State) (n : Nat) (d : Die) : (s.setDie n d).shadowShown = s.shadowShown :=
  rfl
@[simp] theorem State.setDie_linkIn (s : State) (n : Nat) (d : Die) : (s.setDie n d).linkIn = s.linkIn := rfl
@[simp] theorem State.setDie_linkCol (s : State) (n : Nat) (d : Die) : (s.setDie n d).linkCol = s.linkCol := rfl
@[simp] theorem State.setDie_groups (s : State) (n : Nat) (d : Die) : (s.setDie n d).groups = s.groups := rfl
@[simp] theorem State.setDie_parts (s : State) (n : Nat) (d : Die) : (s.setDie n d).parts = s.parts := rfl
@[simp] theorem State.setDie_hosts (s : State) (n : Nat) (d : Die) : (s.setDie n d).hosts = s.hosts := rfl
@[simp] theorem State.setDie_waiters (s : State) (n : Nat) (d : Die) : (s.setDie n d).waiters = s.waiters := rfl
@[simp] theorem State.setDie_mgmtStarted (s : State) (n : Nat) (d : Die) : (s.setDie n d).mgmtStarted = s.mgmtStarted :=
  rfl
@[simp] theorem State.setDie_mgmtOut (s : State) (n : Nat) (d : Die) : (s.setDie n d).mgmtOut = s.mgmtOut := rfl
@[simp] theorem State.setDie_fetched (s : State) (n : Nat) (d : Die) : (s.setDie n d).fetched = s.fetched := rfl
@[simp] theorem State.setDie_resets (s : State) (n : Nat) (d : Die) : (s.setDie n d).resets = s.resets := rfl
@[simp] theorem State.setDie_ctlOut (s : State) (n : Nat) (d : Die) : (s.setDie n d).ctlOut = s.ctlOut := rfl
@[simp] theorem State.setDie_ctlReplies (s : State) (n : Nat) (d : Die) : (s.setDie n d).ctlReplies = s.ctlReplies :=
  rfl
@[simp] theorem State.setDie_acks (s : State) (n : Nat) (d : Die) : (s.setDie n d).acks = s.acks := rfl
@[simp] theorem State.setDie_reports (s : State) (n : Nat) (d : Die) : (s.setDie n d).reports = s.reports := rfl
@[simp] theorem State.setDie_faults (s : State) (n : Nat) (d : Die) : (s.setDie n d).faults = s.faults := rfl
@[simp] theorem State.setDie_recorder (s : State) (n : Nat) (d : Die) : (s.setDie n d).recorder = s.recorder := rfl
@[simp] theorem State.setDie_flash (s : State) (n : Nat) (d : Die) : (s.setDie n d).flash = s.flash := rfl
@[simp] theorem State.setDie_sec (s : State) (n : Nat) (d : Die) : (s.setDie n d).sec = s.sec := rfl
@[simp] theorem State.setDie_life (s : State) (n : Nat) (d : Die) : (s.setDie n d).life = s.life := rfl
@[simp] theorem State.setDie_panel (s : State) (n : Nat) (d : Die) : (s.setDie n d).panel = s.panel := rfl

/-! ### `State.setRegion` -/

@[simp] theorem State.setRegion_pending (s : State) (d n : Nat) (r : Region) : (s.setRegion d n r).pending = s.pending :=
  rfl
@[simp] theorem State.setRegion_free (s : State) (d n : Nat) (r : Region) : (s.setRegion d n r).free = s.free := rfl
@[simp] theorem State.setRegion_mem (s : State) (d n : Nat) (r : Region) : (s.setRegion d n r).mem = s.mem := rfl
@[simp] theorem State.setRegion_hostMem (s : State) (d n : Nat) (r : Region) : (s.setRegion d n r).hostMem = s.hostMem :=
  rfl
@[simp] theorem State.setRegion_cores (s : State) (d n : Nat) (r : Region) : (s.setRegion d n r).cores = s.cores := rfl
@[simp] theorem State.setRegion_routers (s : State) (d n : Nat) (r : Region) : (s.setRegion d n r).routers = s.routers :=
  rfl
@[simp] theorem State.setRegion_dies (s : State) (d n : Nat) (r : Region) : (s.setRegion d n r).dies = s.dies := rfl
@[simp] theorem State.setRegion_regions (s : State) (d n : Nat) (r : Region) :
    (s.setRegion d n r).regions = tset {} s.regions (64 * d + n) r := rfl
@[simp] theorem State.setRegion_edges (s : State) (d n : Nat) (r : Region) : (s.setRegion d n r).edges = s.edges := rfl
@[simp] theorem State.setRegion_rows (s : State) (d n : Nat) (r : Region) : (s.setRegion d n r).rows = s.rows := rfl
@[simp] theorem State.setRegion_culv (s : State) (d n : Nat) (r : Region) : (s.setRegion d n r).culv = s.culv := rfl
@[simp] theorem State.setRegion_msds (s : State) (d n : Nat) (r : Region) : (s.setRegion d n r).msds = s.msds := rfl
@[simp] theorem State.setRegion_hbm (s : State) (d n : Nat) (r : Region) : (s.setRegion d n r).hbm = s.hbm := rfl
@[simp] theorem State.setRegion_tags (s : State) (d n : Nat) (r : Region) : (s.setRegion d n r).tags = s.tags := rfl
@[simp] theorem State.setRegion_hbmErr (s : State) (d n : Nat) (r : Region) : (s.setRegion d n r).hbmErr = s.hbmErr :=
  rfl
@[simp] theorem State.setRegion_given (s : State) (d n : Nat) (r : Region) : (s.setRegion d n r).given = s.given := rfl
@[simp] theorem State.setRegion_hardRows (s : State) (d n : Nat) (r : Region) :
    (s.setRegion d n r).hardRows = s.hardRows := rfl
@[simp] theorem State.setRegion_ports (s : State) (d n : Nat) (r : Region) : (s.setRegion d n r).ports = s.ports := rfl
@[simp] theorem State.setRegion_ring (s : State) (d n : Nat) (r : Region) : (s.setRegion d n r).ring = s.ring := rfl
@[simp] theorem State.setRegion_shadows (s : State) (d n : Nat) (r : Region) : (s.setRegion d n r).shadows = s.shadows :=
  rfl
@[simp] theorem State.setRegion_shadowShown (s : State) (d n : Nat) (r : Region) :
    (s.setRegion d n r).shadowShown = s.shadowShown := rfl
@[simp] theorem State.setRegion_linkIn (s : State) (d n : Nat) (r : Region) : (s.setRegion d n r).linkIn = s.linkIn :=
  rfl
@[simp] theorem State.setRegion_linkCol (s : State) (d n : Nat) (r : Region) : (s.setRegion d n r).linkCol = s.linkCol :=
  rfl
@[simp] theorem State.setRegion_groups (s : State) (d n : Nat) (r : Region) : (s.setRegion d n r).groups = s.groups :=
  rfl
@[simp] theorem State.setRegion_parts (s : State) (d n : Nat) (r : Region) : (s.setRegion d n r).parts = s.parts := rfl
@[simp] theorem State.setRegion_hosts (s : State) (d n : Nat) (r : Region) : (s.setRegion d n r).hosts = s.hosts := rfl
@[simp] theorem State.setRegion_waiters (s : State) (d n : Nat) (r : Region) : (s.setRegion d n r).waiters = s.waiters :=
  rfl
@[simp] theorem State.setRegion_mgmtStarted (s : State) (d n : Nat) (r : Region) :
    (s.setRegion d n r).mgmtStarted = s.mgmtStarted := rfl
@[simp] theorem State.setRegion_mgmtOut (s : State) (d n : Nat) (r : Region) : (s.setRegion d n r).mgmtOut = s.mgmtOut :=
  rfl
@[simp] theorem State.setRegion_fetched (s : State) (d n : Nat) (r : Region) : (s.setRegion d n r).fetched = s.fetched :=
  rfl
@[simp] theorem State.setRegion_resets (s : State) (d n : Nat) (r : Region) : (s.setRegion d n r).resets = s.resets :=
  rfl
@[simp] theorem State.setRegion_ctlOut (s : State) (d n : Nat) (r : Region) : (s.setRegion d n r).ctlOut = s.ctlOut :=
  rfl
@[simp] theorem State.setRegion_ctlReplies (s : State) (d n : Nat) (r : Region) :
    (s.setRegion d n r).ctlReplies = s.ctlReplies := rfl
@[simp] theorem State.setRegion_acks (s : State) (d n : Nat) (r : Region) : (s.setRegion d n r).acks = s.acks := rfl
@[simp] theorem State.setRegion_reports (s : State) (d n : Nat) (r : Region) : (s.setRegion d n r).reports = s.reports :=
  rfl
@[simp] theorem State.setRegion_faults (s : State) (d n : Nat) (r : Region) : (s.setRegion d n r).faults = s.faults :=
  rfl
@[simp] theorem State.setRegion_recorder (s : State) (d n : Nat) (r : Region) :
    (s.setRegion d n r).recorder = s.recorder := rfl
@[simp] theorem State.setRegion_flash (s : State) (d n : Nat) (r : Region) : (s.setRegion d n r).flash = s.flash := rfl
@[simp] theorem State.setRegion_sec (s : State) (d n : Nat) (r : Region) : (s.setRegion d n r).sec = s.sec := rfl
@[simp] theorem State.setRegion_life (s : State) (d n : Nat) (r : Region) : (s.setRegion d n r).life = s.life := rfl
@[simp] theorem State.setRegion_panel (s : State) (d n : Nat) (r : Region) : (s.setRegion d n r).panel = s.panel := rfl

/-! ### `State.setEdge` -/

@[simp] theorem State.setEdge_pending (s : State) (d n : Nat) (e : Edge) : (s.setEdge d n e).pending = s.pending := rfl
@[simp] theorem State.setEdge_free (s : State) (d n : Nat) (e : Edge) : (s.setEdge d n e).free = s.free := rfl
@[simp] theorem State.setEdge_mem (s : State) (d n : Nat) (e : Edge) : (s.setEdge d n e).mem = s.mem := rfl
@[simp] theorem State.setEdge_hostMem (s : State) (d n : Nat) (e : Edge) : (s.setEdge d n e).hostMem = s.hostMem := rfl
@[simp] theorem State.setEdge_cores (s : State) (d n : Nat) (e : Edge) : (s.setEdge d n e).cores = s.cores := rfl
@[simp] theorem State.setEdge_routers (s : State) (d n : Nat) (e : Edge) : (s.setEdge d n e).routers = s.routers := rfl
@[simp] theorem State.setEdge_dies (s : State) (d n : Nat) (e : Edge) : (s.setEdge d n e).dies = s.dies := rfl
@[simp] theorem State.setEdge_regions (s : State) (d n : Nat) (e : Edge) : (s.setEdge d n e).regions = s.regions := rfl
@[simp] theorem State.setEdge_edges (s : State) (d n : Nat) (e : Edge) :
    (s.setEdge d n e).edges = tset {} s.edges (4 * d + n) e := rfl
@[simp] theorem State.setEdge_rows (s : State) (d n : Nat) (e : Edge) : (s.setEdge d n e).rows = s.rows := rfl
@[simp] theorem State.setEdge_culv (s : State) (d n : Nat) (e : Edge) : (s.setEdge d n e).culv = s.culv := rfl
@[simp] theorem State.setEdge_msds (s : State) (d n : Nat) (e : Edge) : (s.setEdge d n e).msds = s.msds := rfl
@[simp] theorem State.setEdge_hbm (s : State) (d n : Nat) (e : Edge) : (s.setEdge d n e).hbm = s.hbm := rfl
@[simp] theorem State.setEdge_tags (s : State) (d n : Nat) (e : Edge) : (s.setEdge d n e).tags = s.tags := rfl
@[simp] theorem State.setEdge_hbmErr (s : State) (d n : Nat) (e : Edge) : (s.setEdge d n e).hbmErr = s.hbmErr := rfl
@[simp] theorem State.setEdge_given (s : State) (d n : Nat) (e : Edge) : (s.setEdge d n e).given = s.given := rfl
@[simp] theorem State.setEdge_hardRows (s : State) (d n : Nat) (e : Edge) : (s.setEdge d n e).hardRows = s.hardRows :=
  rfl
@[simp] theorem State.setEdge_ports (s : State) (d n : Nat) (e : Edge) : (s.setEdge d n e).ports = s.ports := rfl
@[simp] theorem State.setEdge_ring (s : State) (d n : Nat) (e : Edge) : (s.setEdge d n e).ring = s.ring := rfl
@[simp] theorem State.setEdge_shadows (s : State) (d n : Nat) (e : Edge) : (s.setEdge d n e).shadows = s.shadows := rfl
@[simp] theorem State.setEdge_shadowShown (s : State) (d n : Nat) (e : Edge) :
    (s.setEdge d n e).shadowShown = s.shadowShown := rfl
@[simp] theorem State.setEdge_linkIn (s : State) (d n : Nat) (e : Edge) : (s.setEdge d n e).linkIn = s.linkIn := rfl
@[simp] theorem State.setEdge_linkCol (s : State) (d n : Nat) (e : Edge) : (s.setEdge d n e).linkCol = s.linkCol := rfl
@[simp] theorem State.setEdge_groups (s : State) (d n : Nat) (e : Edge) : (s.setEdge d n e).groups = s.groups := rfl
@[simp] theorem State.setEdge_parts (s : State) (d n : Nat) (e : Edge) : (s.setEdge d n e).parts = s.parts := rfl
@[simp] theorem State.setEdge_hosts (s : State) (d n : Nat) (e : Edge) : (s.setEdge d n e).hosts = s.hosts := rfl
@[simp] theorem State.setEdge_waiters (s : State) (d n : Nat) (e : Edge) : (s.setEdge d n e).waiters = s.waiters := rfl
@[simp] theorem State.setEdge_mgmtStarted (s : State) (d n : Nat) (e : Edge) :
    (s.setEdge d n e).mgmtStarted = s.mgmtStarted := rfl
@[simp] theorem State.setEdge_mgmtOut (s : State) (d n : Nat) (e : Edge) : (s.setEdge d n e).mgmtOut = s.mgmtOut := rfl
@[simp] theorem State.setEdge_fetched (s : State) (d n : Nat) (e : Edge) : (s.setEdge d n e).fetched = s.fetched := rfl
@[simp] theorem State.setEdge_resets (s : State) (d n : Nat) (e : Edge) : (s.setEdge d n e).resets = s.resets := rfl
@[simp] theorem State.setEdge_ctlOut (s : State) (d n : Nat) (e : Edge) : (s.setEdge d n e).ctlOut = s.ctlOut := rfl
@[simp] theorem State.setEdge_ctlReplies (s : State) (d n : Nat) (e : Edge) :
    (s.setEdge d n e).ctlReplies = s.ctlReplies := rfl
@[simp] theorem State.setEdge_acks (s : State) (d n : Nat) (e : Edge) : (s.setEdge d n e).acks = s.acks := rfl
@[simp] theorem State.setEdge_reports (s : State) (d n : Nat) (e : Edge) : (s.setEdge d n e).reports = s.reports := rfl
@[simp] theorem State.setEdge_faults (s : State) (d n : Nat) (e : Edge) : (s.setEdge d n e).faults = s.faults := rfl
@[simp] theorem State.setEdge_recorder (s : State) (d n : Nat) (e : Edge) : (s.setEdge d n e).recorder = s.recorder :=
  rfl
@[simp] theorem State.setEdge_flash (s : State) (d n : Nat) (e : Edge) : (s.setEdge d n e).flash = s.flash := rfl
@[simp] theorem State.setEdge_sec (s : State) (d n : Nat) (e : Edge) : (s.setEdge d n e).sec = s.sec := rfl
@[simp] theorem State.setEdge_life (s : State) (d n : Nat) (e : Edge) : (s.setEdge d n e).life = s.life := rfl
@[simp] theorem State.setEdge_panel (s : State) (d n : Nat) (e : Edge) : (s.setEdge d n e).panel = s.panel := rfl

/-! ### `State.setRow` -/

@[simp] theorem State.setRow_pending (s : State) (n : Nat) (m : SiteMap) : (s.setRow n m).pending = s.pending := rfl
@[simp] theorem State.setRow_free (s : State) (n : Nat) (m : SiteMap) : (s.setRow n m).free = s.free := rfl
@[simp] theorem State.setRow_mem (s : State) (n : Nat) (m : SiteMap) : (s.setRow n m).mem = s.mem := rfl
@[simp] theorem State.setRow_hostMem (s : State) (n : Nat) (m : SiteMap) : (s.setRow n m).hostMem = s.hostMem := rfl
@[simp] theorem State.setRow_cores (s : State) (n : Nat) (m : SiteMap) : (s.setRow n m).cores = s.cores := rfl
@[simp] theorem State.setRow_routers (s : State) (n : Nat) (m : SiteMap) : (s.setRow n m).routers = s.routers := rfl
@[simp] theorem State.setRow_dies (s : State) (n : Nat) (m : SiteMap) : (s.setRow n m).dies = s.dies := rfl
@[simp] theorem State.setRow_regions (s : State) (n : Nat) (m : SiteMap) : (s.setRow n m).regions = s.regions := rfl
@[simp] theorem State.setRow_edges (s : State) (n : Nat) (m : SiteMap) : (s.setRow n m).edges = s.edges := rfl
@[simp] theorem State.setRow_rows (s : State) (n : Nat) (m : SiteMap) : (s.setRow n m).rows = tset {} s.rows n m := rfl
@[simp] theorem State.setRow_culv (s : State) (n : Nat) (m : SiteMap) : (s.setRow n m).culv = s.culv := rfl
@[simp] theorem State.setRow_msds (s : State) (n : Nat) (m : SiteMap) : (s.setRow n m).msds = s.msds := rfl
@[simp] theorem State.setRow_hbm (s : State) (n : Nat) (m : SiteMap) : (s.setRow n m).hbm = s.hbm := rfl
@[simp] theorem State.setRow_tags (s : State) (n : Nat) (m : SiteMap) : (s.setRow n m).tags = s.tags := rfl
@[simp] theorem State.setRow_hbmErr (s : State) (n : Nat) (m : SiteMap) : (s.setRow n m).hbmErr = s.hbmErr := rfl
@[simp] theorem State.setRow_given (s : State) (n : Nat) (m : SiteMap) : (s.setRow n m).given = s.given := rfl
@[simp] theorem State.setRow_hardRows (s : State) (n : Nat) (m : SiteMap) : (s.setRow n m).hardRows = s.hardRows := rfl
@[simp] theorem State.setRow_ports (s : State) (n : Nat) (m : SiteMap) : (s.setRow n m).ports = s.ports := rfl
@[simp] theorem State.setRow_ring (s : State) (n : Nat) (m : SiteMap) : (s.setRow n m).ring = s.ring := rfl
@[simp] theorem State.setRow_shadows (s : State) (n : Nat) (m : SiteMap) : (s.setRow n m).shadows = s.shadows := rfl
@[simp] theorem State.setRow_shadowShown (s : State) (n : Nat) (m : SiteMap) :
    (s.setRow n m).shadowShown = s.shadowShown := rfl
@[simp] theorem State.setRow_linkIn (s : State) (n : Nat) (m : SiteMap) : (s.setRow n m).linkIn = s.linkIn := rfl
@[simp] theorem State.setRow_linkCol (s : State) (n : Nat) (m : SiteMap) : (s.setRow n m).linkCol = s.linkCol := rfl
@[simp] theorem State.setRow_groups (s : State) (n : Nat) (m : SiteMap) : (s.setRow n m).groups = s.groups := rfl
@[simp] theorem State.setRow_parts (s : State) (n : Nat) (m : SiteMap) : (s.setRow n m).parts = s.parts := rfl
@[simp] theorem State.setRow_hosts (s : State) (n : Nat) (m : SiteMap) : (s.setRow n m).hosts = s.hosts := rfl
@[simp] theorem State.setRow_waiters (s : State) (n : Nat) (m : SiteMap) : (s.setRow n m).waiters = s.waiters := rfl
@[simp] theorem State.setRow_mgmtStarted (s : State) (n : Nat) (m : SiteMap) :
    (s.setRow n m).mgmtStarted = s.mgmtStarted := rfl
@[simp] theorem State.setRow_mgmtOut (s : State) (n : Nat) (m : SiteMap) : (s.setRow n m).mgmtOut = s.mgmtOut := rfl
@[simp] theorem State.setRow_fetched (s : State) (n : Nat) (m : SiteMap) : (s.setRow n m).fetched = s.fetched := rfl
@[simp] theorem State.setRow_resets (s : State) (n : Nat) (m : SiteMap) : (s.setRow n m).resets = s.resets := rfl
@[simp] theorem State.setRow_ctlOut (s : State) (n : Nat) (m : SiteMap) : (s.setRow n m).ctlOut = s.ctlOut := rfl
@[simp] theorem State.setRow_ctlReplies (s : State) (n : Nat) (m : SiteMap) : (s.setRow n m).ctlReplies = s.ctlReplies :=
  rfl
@[simp] theorem State.setRow_acks (s : State) (n : Nat) (m : SiteMap) : (s.setRow n m).acks = s.acks := rfl
@[simp] theorem State.setRow_reports (s : State) (n : Nat) (m : SiteMap) : (s.setRow n m).reports = s.reports := rfl
@[simp] theorem State.setRow_faults (s : State) (n : Nat) (m : SiteMap) : (s.setRow n m).faults = s.faults := rfl
@[simp] theorem State.setRow_recorder (s : State) (n : Nat) (m : SiteMap) : (s.setRow n m).recorder = s.recorder := rfl
@[simp] theorem State.setRow_flash (s : State) (n : Nat) (m : SiteMap) : (s.setRow n m).flash = s.flash := rfl
@[simp] theorem State.setRow_sec (s : State) (n : Nat) (m : SiteMap) : (s.setRow n m).sec = s.sec := rfl
@[simp] theorem State.setRow_life (s : State) (n : Nat) (m : SiteMap) : (s.setRow n m).life = s.life := rfl
@[simp] theorem State.setRow_panel (s : State) (n : Nat) (m : SiteMap) : (s.setRow n m).panel = s.panel := rfl

/-! ### `State.setCulvert` -/

@[simp] theorem State.setCulvert_pending (s : State) (d n : Nat) (g : Culv) : (s.setCulvert d n g).pending = s.pending :=
  rfl
@[simp] theorem State.setCulvert_free (s : State) (d n : Nat) (g : Culv) : (s.setCulvert d n g).free = s.free := rfl
@[simp] theorem State.setCulvert_mem (s : State) (d n : Nat) (g : Culv) : (s.setCulvert d n g).mem = s.mem := rfl
@[simp] theorem State.setCulvert_hostMem (s : State) (d n : Nat) (g : Culv) : (s.setCulvert d n g).hostMem = s.hostMem :=
  rfl
@[simp] theorem State.setCulvert_cores (s : State) (d n : Nat) (g : Culv) : (s.setCulvert d n g).cores = s.cores := rfl
@[simp] theorem State.setCulvert_routers (s : State) (d n : Nat) (g : Culv) : (s.setCulvert d n g).routers = s.routers :=
  rfl
@[simp] theorem State.setCulvert_dies (s : State) (d n : Nat) (g : Culv) : (s.setCulvert d n g).dies = s.dies := rfl
@[simp] theorem State.setCulvert_regions (s : State) (d n : Nat) (g : Culv) : (s.setCulvert d n g).regions = s.regions :=
  rfl
@[simp] theorem State.setCulvert_edges (s : State) (d n : Nat) (g : Culv) : (s.setCulvert d n g).edges = s.edges := rfl
@[simp] theorem State.setCulvert_rows (s : State) (d n : Nat) (g : Culv) : (s.setCulvert d n g).rows = s.rows := rfl
@[simp] theorem State.setCulvert_culv (s : State) (d n : Nat) (g : Culv) :
    (s.setCulvert d n g).culv = tset {} s.culv (8 * d + n) g := rfl
@[simp] theorem State.setCulvert_msds (s : State) (d n : Nat) (g : Culv) : (s.setCulvert d n g).msds = s.msds := rfl
@[simp] theorem State.setCulvert_hbm (s : State) (d n : Nat) (g : Culv) : (s.setCulvert d n g).hbm = s.hbm := rfl
@[simp] theorem State.setCulvert_tags (s : State) (d n : Nat) (g : Culv) : (s.setCulvert d n g).tags = s.tags := rfl
@[simp] theorem State.setCulvert_hbmErr (s : State) (d n : Nat) (g : Culv) : (s.setCulvert d n g).hbmErr = s.hbmErr :=
  rfl
@[simp] theorem State.setCulvert_given (s : State) (d n : Nat) (g : Culv) : (s.setCulvert d n g).given = s.given := rfl
@[simp] theorem State.setCulvert_hardRows (s : State) (d n : Nat) (g : Culv) :
    (s.setCulvert d n g).hardRows = s.hardRows := rfl
@[simp] theorem State.setCulvert_ports (s : State) (d n : Nat) (g : Culv) : (s.setCulvert d n g).ports = s.ports := rfl
@[simp] theorem State.setCulvert_ring (s : State) (d n : Nat) (g : Culv) : (s.setCulvert d n g).ring = s.ring := rfl
@[simp] theorem State.setCulvert_shadows (s : State) (d n : Nat) (g : Culv) : (s.setCulvert d n g).shadows = s.shadows :=
  rfl
@[simp] theorem State.setCulvert_shadowShown (s : State) (d n : Nat) (g : Culv) :
    (s.setCulvert d n g).shadowShown = s.shadowShown := rfl
@[simp] theorem State.setCulvert_linkIn (s : State) (d n : Nat) (g : Culv) : (s.setCulvert d n g).linkIn = s.linkIn :=
  rfl
@[simp] theorem State.setCulvert_linkCol (s : State) (d n : Nat) (g : Culv) : (s.setCulvert d n g).linkCol = s.linkCol :=
  rfl
@[simp] theorem State.setCulvert_groups (s : State) (d n : Nat) (g : Culv) : (s.setCulvert d n g).groups = s.groups :=
  rfl
@[simp] theorem State.setCulvert_parts (s : State) (d n : Nat) (g : Culv) : (s.setCulvert d n g).parts = s.parts := rfl
@[simp] theorem State.setCulvert_hosts (s : State) (d n : Nat) (g : Culv) : (s.setCulvert d n g).hosts = s.hosts := rfl
@[simp] theorem State.setCulvert_waiters (s : State) (d n : Nat) (g : Culv) : (s.setCulvert d n g).waiters = s.waiters :=
  rfl
@[simp] theorem State.setCulvert_mgmtStarted (s : State) (d n : Nat) (g : Culv) :
    (s.setCulvert d n g).mgmtStarted = s.mgmtStarted := rfl
@[simp] theorem State.setCulvert_mgmtOut (s : State) (d n : Nat) (g : Culv) : (s.setCulvert d n g).mgmtOut = s.mgmtOut :=
  rfl
@[simp] theorem State.setCulvert_fetched (s : State) (d n : Nat) (g : Culv) : (s.setCulvert d n g).fetched = s.fetched :=
  rfl
@[simp] theorem State.setCulvert_resets (s : State) (d n : Nat) (g : Culv) : (s.setCulvert d n g).resets = s.resets :=
  rfl
@[simp] theorem State.setCulvert_ctlOut (s : State) (d n : Nat) (g : Culv) : (s.setCulvert d n g).ctlOut = s.ctlOut :=
  rfl
@[simp] theorem State.setCulvert_ctlReplies (s : State) (d n : Nat) (g : Culv) :
    (s.setCulvert d n g).ctlReplies = s.ctlReplies := rfl
@[simp] theorem State.setCulvert_acks (s : State) (d n : Nat) (g : Culv) : (s.setCulvert d n g).acks = s.acks := rfl
@[simp] theorem State.setCulvert_reports (s : State) (d n : Nat) (g : Culv) : (s.setCulvert d n g).reports = s.reports :=
  rfl
@[simp] theorem State.setCulvert_faults (s : State) (d n : Nat) (g : Culv) : (s.setCulvert d n g).faults = s.faults :=
  rfl
@[simp] theorem State.setCulvert_recorder (s : State) (d n : Nat) (g : Culv) :
    (s.setCulvert d n g).recorder = s.recorder := rfl
@[simp] theorem State.setCulvert_flash (s : State) (d n : Nat) (g : Culv) : (s.setCulvert d n g).flash = s.flash := rfl
@[simp] theorem State.setCulvert_sec (s : State) (d n : Nat) (g : Culv) : (s.setCulvert d n g).sec = s.sec := rfl
@[simp] theorem State.setCulvert_life (s : State) (d n : Nat) (g : Culv) : (s.setCulvert d n g).life = s.life := rfl
@[simp] theorem State.setCulvert_panel (s : State) (d n : Nat) (g : Culv) : (s.setCulvert d n g).panel = s.panel := rfl

/-! ### `State.setMsd` -/

@[simp] theorem State.setMsd_pending (s : State) (n : Nat) (m : Msd) : (s.setMsd n m).pending = s.pending := rfl
@[simp] theorem State.setMsd_free (s : State) (n : Nat) (m : Msd) : (s.setMsd n m).free = s.free := rfl
@[simp] theorem State.setMsd_mem (s : State) (n : Nat) (m : Msd) : (s.setMsd n m).mem = s.mem := rfl
@[simp] theorem State.setMsd_hostMem (s : State) (n : Nat) (m : Msd) : (s.setMsd n m).hostMem = s.hostMem := rfl
@[simp] theorem State.setMsd_cores (s : State) (n : Nat) (m : Msd) : (s.setMsd n m).cores = s.cores := rfl
@[simp] theorem State.setMsd_routers (s : State) (n : Nat) (m : Msd) : (s.setMsd n m).routers = s.routers := rfl
@[simp] theorem State.setMsd_dies (s : State) (n : Nat) (m : Msd) : (s.setMsd n m).dies = s.dies := rfl
@[simp] theorem State.setMsd_regions (s : State) (n : Nat) (m : Msd) : (s.setMsd n m).regions = s.regions := rfl
@[simp] theorem State.setMsd_edges (s : State) (n : Nat) (m : Msd) : (s.setMsd n m).edges = s.edges := rfl
@[simp] theorem State.setMsd_rows (s : State) (n : Nat) (m : Msd) : (s.setMsd n m).rows = s.rows := rfl
@[simp] theorem State.setMsd_culv (s : State) (n : Nat) (m : Msd) : (s.setMsd n m).culv = s.culv := rfl
@[simp] theorem State.setMsd_msds (s : State) (n : Nat) (m : Msd) : (s.setMsd n m).msds = tset {} s.msds n m := rfl
@[simp] theorem State.setMsd_hbm (s : State) (n : Nat) (m : Msd) : (s.setMsd n m).hbm = s.hbm := rfl
@[simp] theorem State.setMsd_tags (s : State) (n : Nat) (m : Msd) : (s.setMsd n m).tags = s.tags := rfl
@[simp] theorem State.setMsd_hbmErr (s : State) (n : Nat) (m : Msd) : (s.setMsd n m).hbmErr = s.hbmErr := rfl
@[simp] theorem State.setMsd_given (s : State) (n : Nat) (m : Msd) : (s.setMsd n m).given = s.given := rfl
@[simp] theorem State.setMsd_hardRows (s : State) (n : Nat) (m : Msd) : (s.setMsd n m).hardRows = s.hardRows := rfl
@[simp] theorem State.setMsd_ports (s : State) (n : Nat) (m : Msd) : (s.setMsd n m).ports = s.ports := rfl
@[simp] theorem State.setMsd_ring (s : State) (n : Nat) (m : Msd) : (s.setMsd n m).ring = s.ring := rfl
@[simp] theorem State.setMsd_shadows (s : State) (n : Nat) (m : Msd) : (s.setMsd n m).shadows = s.shadows := rfl
@[simp] theorem State.setMsd_shadowShown (s : State) (n : Nat) (m : Msd) : (s.setMsd n m).shadowShown = s.shadowShown :=
  rfl
@[simp] theorem State.setMsd_linkIn (s : State) (n : Nat) (m : Msd) : (s.setMsd n m).linkIn = s.linkIn := rfl
@[simp] theorem State.setMsd_linkCol (s : State) (n : Nat) (m : Msd) : (s.setMsd n m).linkCol = s.linkCol := rfl
@[simp] theorem State.setMsd_groups (s : State) (n : Nat) (m : Msd) : (s.setMsd n m).groups = s.groups := rfl
@[simp] theorem State.setMsd_parts (s : State) (n : Nat) (m : Msd) : (s.setMsd n m).parts = s.parts := rfl
@[simp] theorem State.setMsd_hosts (s : State) (n : Nat) (m : Msd) : (s.setMsd n m).hosts = s.hosts := rfl
@[simp] theorem State.setMsd_waiters (s : State) (n : Nat) (m : Msd) : (s.setMsd n m).waiters = s.waiters := rfl
@[simp] theorem State.setMsd_mgmtStarted (s : State) (n : Nat) (m : Msd) : (s.setMsd n m).mgmtStarted = s.mgmtStarted :=
  rfl
@[simp] theorem State.setMsd_mgmtOut (s : State) (n : Nat) (m : Msd) : (s.setMsd n m).mgmtOut = s.mgmtOut := rfl
@[simp] theorem State.setMsd_fetched (s : State) (n : Nat) (m : Msd) : (s.setMsd n m).fetched = s.fetched := rfl
@[simp] theorem State.setMsd_resets (s : State) (n : Nat) (m : Msd) : (s.setMsd n m).resets = s.resets := rfl
@[simp] theorem State.setMsd_ctlOut (s : State) (n : Nat) (m : Msd) : (s.setMsd n m).ctlOut = s.ctlOut := rfl
@[simp] theorem State.setMsd_ctlReplies (s : State) (n : Nat) (m : Msd) : (s.setMsd n m).ctlReplies = s.ctlReplies :=
  rfl
@[simp] theorem State.setMsd_acks (s : State) (n : Nat) (m : Msd) : (s.setMsd n m).acks = s.acks := rfl
@[simp] theorem State.setMsd_reports (s : State) (n : Nat) (m : Msd) : (s.setMsd n m).reports = s.reports := rfl
@[simp] theorem State.setMsd_faults (s : State) (n : Nat) (m : Msd) : (s.setMsd n m).faults = s.faults := rfl
@[simp] theorem State.setMsd_recorder (s : State) (n : Nat) (m : Msd) : (s.setMsd n m).recorder = s.recorder := rfl
@[simp] theorem State.setMsd_flash (s : State) (n : Nat) (m : Msd) : (s.setMsd n m).flash = s.flash := rfl
@[simp] theorem State.setMsd_sec (s : State) (n : Nat) (m : Msd) : (s.setMsd n m).sec = s.sec := rfl
@[simp] theorem State.setMsd_life (s : State) (n : Nat) (m : Msd) : (s.setMsd n m).life = s.life := rfl
@[simp] theorem State.setMsd_panel (s : State) (n : Nat) (m : Msd) : (s.setMsd n m).panel = s.panel := rfl

/-! ### `State.setStack` -/

@[simp] theorem State.setStack_pending (s : State) (n : Nat) (k : Stack) : (s.setStack n k).pending = s.pending := rfl
@[simp] theorem State.setStack_free (s : State) (n : Nat) (k : Stack) : (s.setStack n k).free = s.free := rfl
@[simp] theorem State.setStack_mem (s : State) (n : Nat) (k : Stack) : (s.setStack n k).mem = s.mem := rfl
@[simp] theorem State.setStack_hostMem (s : State) (n : Nat) (k : Stack) : (s.setStack n k).hostMem = s.hostMem := rfl
@[simp] theorem State.setStack_cores (s : State) (n : Nat) (k : Stack) : (s.setStack n k).cores = s.cores := rfl
@[simp] theorem State.setStack_routers (s : State) (n : Nat) (k : Stack) : (s.setStack n k).routers = s.routers := rfl
@[simp] theorem State.setStack_dies (s : State) (n : Nat) (k : Stack) : (s.setStack n k).dies = s.dies := rfl
@[simp] theorem State.setStack_regions (s : State) (n : Nat) (k : Stack) : (s.setStack n k).regions = s.regions := rfl
@[simp] theorem State.setStack_edges (s : State) (n : Nat) (k : Stack) : (s.setStack n k).edges = s.edges := rfl
@[simp] theorem State.setStack_rows (s : State) (n : Nat) (k : Stack) : (s.setStack n k).rows = s.rows := rfl
@[simp] theorem State.setStack_culv (s : State) (n : Nat) (k : Stack) : (s.setStack n k).culv = s.culv := rfl
@[simp] theorem State.setStack_msds (s : State) (n : Nat) (k : Stack) : (s.setStack n k).msds = s.msds := rfl
@[simp] theorem State.setStack_hbm (s : State) (n : Nat) (k : Stack) : (s.setStack n k).hbm = tset {} s.hbm n k := rfl
@[simp] theorem State.setStack_tags (s : State) (n : Nat) (k : Stack) : (s.setStack n k).tags = s.tags := rfl
@[simp] theorem State.setStack_hbmErr (s : State) (n : Nat) (k : Stack) : (s.setStack n k).hbmErr = s.hbmErr := rfl
@[simp] theorem State.setStack_given (s : State) (n : Nat) (k : Stack) : (s.setStack n k).given = s.given := rfl
@[simp] theorem State.setStack_hardRows (s : State) (n : Nat) (k : Stack) : (s.setStack n k).hardRows = s.hardRows :=
  rfl
@[simp] theorem State.setStack_ports (s : State) (n : Nat) (k : Stack) : (s.setStack n k).ports = s.ports := rfl
@[simp] theorem State.setStack_ring (s : State) (n : Nat) (k : Stack) : (s.setStack n k).ring = s.ring := rfl
@[simp] theorem State.setStack_shadows (s : State) (n : Nat) (k : Stack) : (s.setStack n k).shadows = s.shadows := rfl
@[simp] theorem State.setStack_shadowShown (s : State) (n : Nat) (k : Stack) :
    (s.setStack n k).shadowShown = s.shadowShown := rfl
@[simp] theorem State.setStack_linkIn (s : State) (n : Nat) (k : Stack) : (s.setStack n k).linkIn = s.linkIn := rfl
@[simp] theorem State.setStack_linkCol (s : State) (n : Nat) (k : Stack) : (s.setStack n k).linkCol = s.linkCol := rfl
@[simp] theorem State.setStack_groups (s : State) (n : Nat) (k : Stack) : (s.setStack n k).groups = s.groups := rfl
@[simp] theorem State.setStack_parts (s : State) (n : Nat) (k : Stack) : (s.setStack n k).parts = s.parts := rfl
@[simp] theorem State.setStack_hosts (s : State) (n : Nat) (k : Stack) : (s.setStack n k).hosts = s.hosts := rfl
@[simp] theorem State.setStack_waiters (s : State) (n : Nat) (k : Stack) : (s.setStack n k).waiters = s.waiters := rfl
@[simp] theorem State.setStack_mgmtStarted (s : State) (n : Nat) (k : Stack) :
    (s.setStack n k).mgmtStarted = s.mgmtStarted := rfl
@[simp] theorem State.setStack_mgmtOut (s : State) (n : Nat) (k : Stack) : (s.setStack n k).mgmtOut = s.mgmtOut := rfl
@[simp] theorem State.setStack_fetched (s : State) (n : Nat) (k : Stack) : (s.setStack n k).fetched = s.fetched := rfl
@[simp] theorem State.setStack_resets (s : State) (n : Nat) (k : Stack) : (s.setStack n k).resets = s.resets := rfl
@[simp] theorem State.setStack_ctlOut (s : State) (n : Nat) (k : Stack) : (s.setStack n k).ctlOut = s.ctlOut := rfl
@[simp] theorem State.setStack_ctlReplies (s : State) (n : Nat) (k : Stack) :
    (s.setStack n k).ctlReplies = s.ctlReplies := rfl
@[simp] theorem State.setStack_acks (s : State) (n : Nat) (k : Stack) : (s.setStack n k).acks = s.acks := rfl
@[simp] theorem State.setStack_reports (s : State) (n : Nat) (k : Stack) : (s.setStack n k).reports = s.reports := rfl
@[simp] theorem State.setStack_faults (s : State) (n : Nat) (k : Stack) : (s.setStack n k).faults = s.faults := rfl
@[simp] theorem State.setStack_recorder (s : State) (n : Nat) (k : Stack) : (s.setStack n k).recorder = s.recorder :=
  rfl
@[simp] theorem State.setStack_flash (s : State) (n : Nat) (k : Stack) : (s.setStack n k).flash = s.flash := rfl
@[simp] theorem State.setStack_sec (s : State) (n : Nat) (k : Stack) : (s.setStack n k).sec = s.sec := rfl
@[simp] theorem State.setStack_life (s : State) (n : Nat) (k : Stack) : (s.setStack n k).life = s.life := rfl
@[simp] theorem State.setStack_panel (s : State) (n : Nat) (k : Stack) : (s.setStack n k).panel = s.panel := rfl

/-! ### `State.setPort` -/

@[simp] theorem State.setPort_pending (s : State) (n : Nat) (p : Port) : (s.setPort n p).pending = s.pending := rfl
@[simp] theorem State.setPort_free (s : State) (n : Nat) (p : Port) : (s.setPort n p).free = s.free := rfl
@[simp] theorem State.setPort_mem (s : State) (n : Nat) (p : Port) : (s.setPort n p).mem = s.mem := rfl
@[simp] theorem State.setPort_hostMem (s : State) (n : Nat) (p : Port) : (s.setPort n p).hostMem = s.hostMem := rfl
@[simp] theorem State.setPort_cores (s : State) (n : Nat) (p : Port) : (s.setPort n p).cores = s.cores := rfl
@[simp] theorem State.setPort_routers (s : State) (n : Nat) (p : Port) : (s.setPort n p).routers = s.routers := rfl
@[simp] theorem State.setPort_dies (s : State) (n : Nat) (p : Port) : (s.setPort n p).dies = s.dies := rfl
@[simp] theorem State.setPort_regions (s : State) (n : Nat) (p : Port) : (s.setPort n p).regions = s.regions := rfl
@[simp] theorem State.setPort_edges (s : State) (n : Nat) (p : Port) : (s.setPort n p).edges = s.edges := rfl
@[simp] theorem State.setPort_rows (s : State) (n : Nat) (p : Port) : (s.setPort n p).rows = s.rows := rfl
@[simp] theorem State.setPort_culv (s : State) (n : Nat) (p : Port) : (s.setPort n p).culv = s.culv := rfl
@[simp] theorem State.setPort_msds (s : State) (n : Nat) (p : Port) : (s.setPort n p).msds = s.msds := rfl
@[simp] theorem State.setPort_hbm (s : State) (n : Nat) (p : Port) : (s.setPort n p).hbm = s.hbm := rfl
@[simp] theorem State.setPort_tags (s : State) (n : Nat) (p : Port) : (s.setPort n p).tags = s.tags := rfl
@[simp] theorem State.setPort_hbmErr (s : State) (n : Nat) (p : Port) : (s.setPort n p).hbmErr = s.hbmErr := rfl
@[simp] theorem State.setPort_given (s : State) (n : Nat) (p : Port) : (s.setPort n p).given = s.given := rfl
@[simp] theorem State.setPort_hardRows (s : State) (n : Nat) (p : Port) : (s.setPort n p).hardRows = s.hardRows := rfl
@[simp] theorem State.setPort_ports (s : State) (n : Nat) (p : Port) : (s.setPort n p).ports = tset {} s.ports n p :=
  rfl
@[simp] theorem State.setPort_ring (s : State) (n : Nat) (p : Port) : (s.setPort n p).ring = s.ring := rfl
@[simp] theorem State.setPort_shadows (s : State) (n : Nat) (p : Port) : (s.setPort n p).shadows = s.shadows := rfl
@[simp] theorem State.setPort_shadowShown (s : State) (n : Nat) (p : Port) :
    (s.setPort n p).shadowShown = s.shadowShown := rfl
@[simp] theorem State.setPort_linkIn (s : State) (n : Nat) (p : Port) : (s.setPort n p).linkIn = s.linkIn := rfl
@[simp] theorem State.setPort_linkCol (s : State) (n : Nat) (p : Port) : (s.setPort n p).linkCol = s.linkCol := rfl
@[simp] theorem State.setPort_groups (s : State) (n : Nat) (p : Port) : (s.setPort n p).groups = s.groups := rfl
@[simp] theorem State.setPort_parts (s : State) (n : Nat) (p : Port) : (s.setPort n p).parts = s.parts := rfl
@[simp] theorem State.setPort_hosts (s : State) (n : Nat) (p : Port) : (s.setPort n p).hosts = s.hosts := rfl
@[simp] theorem State.setPort_waiters (s : State) (n : Nat) (p : Port) : (s.setPort n p).waiters = s.waiters := rfl
@[simp] theorem State.setPort_mgmtStarted (s : State) (n : Nat) (p : Port) :
    (s.setPort n p).mgmtStarted = s.mgmtStarted := rfl
@[simp] theorem State.setPort_mgmtOut (s : State) (n : Nat) (p : Port) : (s.setPort n p).mgmtOut = s.mgmtOut := rfl
@[simp] theorem State.setPort_fetched (s : State) (n : Nat) (p : Port) : (s.setPort n p).fetched = s.fetched := rfl
@[simp] theorem State.setPort_resets (s : State) (n : Nat) (p : Port) : (s.setPort n p).resets = s.resets := rfl
@[simp] theorem State.setPort_ctlOut (s : State) (n : Nat) (p : Port) : (s.setPort n p).ctlOut = s.ctlOut := rfl
@[simp] theorem State.setPort_ctlReplies (s : State) (n : Nat) (p : Port) : (s.setPort n p).ctlReplies = s.ctlReplies :=
  rfl
@[simp] theorem State.setPort_acks (s : State) (n : Nat) (p : Port) : (s.setPort n p).acks = s.acks := rfl
@[simp] theorem State.setPort_reports (s : State) (n : Nat) (p : Port) : (s.setPort n p).reports = s.reports := rfl
@[simp] theorem State.setPort_faults (s : State) (n : Nat) (p : Port) : (s.setPort n p).faults = s.faults := rfl
@[simp] theorem State.setPort_recorder (s : State) (n : Nat) (p : Port) : (s.setPort n p).recorder = s.recorder := rfl
@[simp] theorem State.setPort_flash (s : State) (n : Nat) (p : Port) : (s.setPort n p).flash = s.flash := rfl
@[simp] theorem State.setPort_sec (s : State) (n : Nat) (p : Port) : (s.setPort n p).sec = s.sec := rfl
@[simp] theorem State.setPort_life (s : State) (n : Nat) (p : Port) : (s.setPort n p).life = s.life := rfl
@[simp] theorem State.setPort_panel (s : State) (n : Nat) (p : Port) : (s.setPort n p).panel = s.panel := rfl

/-! ### `State.setGroup` -/

@[simp] theorem State.setGroup_pending (s : State) (n : Nat) (g : BGroup) : (s.setGroup n g).pending = s.pending := rfl
@[simp] theorem State.setGroup_free (s : State) (n : Nat) (g : BGroup) : (s.setGroup n g).free = s.free := rfl
@[simp] theorem State.setGroup_mem (s : State) (n : Nat) (g : BGroup) : (s.setGroup n g).mem = s.mem := rfl
@[simp] theorem State.setGroup_hostMem (s : State) (n : Nat) (g : BGroup) : (s.setGroup n g).hostMem = s.hostMem := rfl
@[simp] theorem State.setGroup_cores (s : State) (n : Nat) (g : BGroup) : (s.setGroup n g).cores = s.cores := rfl
@[simp] theorem State.setGroup_routers (s : State) (n : Nat) (g : BGroup) : (s.setGroup n g).routers = s.routers := rfl
@[simp] theorem State.setGroup_dies (s : State) (n : Nat) (g : BGroup) : (s.setGroup n g).dies = s.dies := rfl
@[simp] theorem State.setGroup_regions (s : State) (n : Nat) (g : BGroup) : (s.setGroup n g).regions = s.regions := rfl
@[simp] theorem State.setGroup_edges (s : State) (n : Nat) (g : BGroup) : (s.setGroup n g).edges = s.edges := rfl
@[simp] theorem State.setGroup_rows (s : State) (n : Nat) (g : BGroup) : (s.setGroup n g).rows = s.rows := rfl
@[simp] theorem State.setGroup_culv (s : State) (n : Nat) (g : BGroup) : (s.setGroup n g).culv = s.culv := rfl
@[simp] theorem State.setGroup_msds (s : State) (n : Nat) (g : BGroup) : (s.setGroup n g).msds = s.msds := rfl
@[simp] theorem State.setGroup_hbm (s : State) (n : Nat) (g : BGroup) : (s.setGroup n g).hbm = s.hbm := rfl
@[simp] theorem State.setGroup_tags (s : State) (n : Nat) (g : BGroup) : (s.setGroup n g).tags = s.tags := rfl
@[simp] theorem State.setGroup_hbmErr (s : State) (n : Nat) (g : BGroup) : (s.setGroup n g).hbmErr = s.hbmErr := rfl
@[simp] theorem State.setGroup_given (s : State) (n : Nat) (g : BGroup) : (s.setGroup n g).given = s.given := rfl
@[simp] theorem State.setGroup_hardRows (s : State) (n : Nat) (g : BGroup) : (s.setGroup n g).hardRows = s.hardRows :=
  rfl
@[simp] theorem State.setGroup_ports (s : State) (n : Nat) (g : BGroup) : (s.setGroup n g).ports = s.ports := rfl
@[simp] theorem State.setGroup_ring (s : State) (n : Nat) (g : BGroup) : (s.setGroup n g).ring = s.ring := rfl
@[simp] theorem State.setGroup_shadows (s : State) (n : Nat) (g : BGroup) : (s.setGroup n g).shadows = s.shadows := rfl
@[simp] theorem State.setGroup_shadowShown (s : State) (n : Nat) (g : BGroup) :
    (s.setGroup n g).shadowShown = s.shadowShown := rfl
@[simp] theorem State.setGroup_linkIn (s : State) (n : Nat) (g : BGroup) : (s.setGroup n g).linkIn = s.linkIn := rfl
@[simp] theorem State.setGroup_linkCol (s : State) (n : Nat) (g : BGroup) : (s.setGroup n g).linkCol = s.linkCol := rfl
@[simp] theorem State.setGroup_groups (s : State) (n : Nat) (g : BGroup) :
    (s.setGroup n g).groups = tset {} s.groups n g := rfl
@[simp] theorem State.setGroup_parts (s : State) (n : Nat) (g : BGroup) : (s.setGroup n g).parts = s.parts := rfl
@[simp] theorem State.setGroup_hosts (s : State) (n : Nat) (g : BGroup) : (s.setGroup n g).hosts = s.hosts := rfl
@[simp] theorem State.setGroup_waiters (s : State) (n : Nat) (g : BGroup) : (s.setGroup n g).waiters = s.waiters := rfl
@[simp] theorem State.setGroup_mgmtStarted (s : State) (n : Nat) (g : BGroup) :
    (s.setGroup n g).mgmtStarted = s.mgmtStarted := rfl
@[simp] theorem State.setGroup_mgmtOut (s : State) (n : Nat) (g : BGroup) : (s.setGroup n g).mgmtOut = s.mgmtOut := rfl
@[simp] theorem State.setGroup_fetched (s : State) (n : Nat) (g : BGroup) : (s.setGroup n g).fetched = s.fetched := rfl
@[simp] theorem State.setGroup_resets (s : State) (n : Nat) (g : BGroup) : (s.setGroup n g).resets = s.resets := rfl
@[simp] theorem State.setGroup_ctlOut (s : State) (n : Nat) (g : BGroup) : (s.setGroup n g).ctlOut = s.ctlOut := rfl
@[simp] theorem State.setGroup_ctlReplies (s : State) (n : Nat) (g : BGroup) :
    (s.setGroup n g).ctlReplies = s.ctlReplies := rfl
@[simp] theorem State.setGroup_acks (s : State) (n : Nat) (g : BGroup) : (s.setGroup n g).acks = s.acks := rfl
@[simp] theorem State.setGroup_reports (s : State) (n : Nat) (g : BGroup) : (s.setGroup n g).reports = s.reports := rfl
@[simp] theorem State.setGroup_faults (s : State) (n : Nat) (g : BGroup) : (s.setGroup n g).faults = s.faults := rfl
@[simp] theorem State.setGroup_recorder (s : State) (n : Nat) (g : BGroup) : (s.setGroup n g).recorder = s.recorder :=
  rfl
@[simp] theorem State.setGroup_flash (s : State) (n : Nat) (g : BGroup) : (s.setGroup n g).flash = s.flash := rfl
@[simp] theorem State.setGroup_sec (s : State) (n : Nat) (g : BGroup) : (s.setGroup n g).sec = s.sec := rfl
@[simp] theorem State.setGroup_life (s : State) (n : Nat) (g : BGroup) : (s.setGroup n g).life = s.life := rfl
@[simp] theorem State.setGroup_panel (s : State) (n : Nat) (g : BGroup) : (s.setGroup n g).panel = s.panel := rfl

/-! ### `State.setPart` -/

@[simp] theorem State.setPart_pending (s : State) (n : Nat) (p : Part) : (s.setPart n p).pending = s.pending := rfl
@[simp] theorem State.setPart_free (s : State) (n : Nat) (p : Part) : (s.setPart n p).free = s.free := rfl
@[simp] theorem State.setPart_mem (s : State) (n : Nat) (p : Part) : (s.setPart n p).mem = s.mem := rfl
@[simp] theorem State.setPart_hostMem (s : State) (n : Nat) (p : Part) : (s.setPart n p).hostMem = s.hostMem := rfl
@[simp] theorem State.setPart_cores (s : State) (n : Nat) (p : Part) : (s.setPart n p).cores = s.cores := rfl
@[simp] theorem State.setPart_routers (s : State) (n : Nat) (p : Part) : (s.setPart n p).routers = s.routers := rfl
@[simp] theorem State.setPart_dies (s : State) (n : Nat) (p : Part) : (s.setPart n p).dies = s.dies := rfl
@[simp] theorem State.setPart_regions (s : State) (n : Nat) (p : Part) : (s.setPart n p).regions = s.regions := rfl
@[simp] theorem State.setPart_edges (s : State) (n : Nat) (p : Part) : (s.setPart n p).edges = s.edges := rfl
@[simp] theorem State.setPart_rows (s : State) (n : Nat) (p : Part) : (s.setPart n p).rows = s.rows := rfl
@[simp] theorem State.setPart_culv (s : State) (n : Nat) (p : Part) : (s.setPart n p).culv = s.culv := rfl
@[simp] theorem State.setPart_msds (s : State) (n : Nat) (p : Part) : (s.setPart n p).msds = s.msds := rfl
@[simp] theorem State.setPart_hbm (s : State) (n : Nat) (p : Part) : (s.setPart n p).hbm = s.hbm := rfl
@[simp] theorem State.setPart_tags (s : State) (n : Nat) (p : Part) : (s.setPart n p).tags = s.tags := rfl
@[simp] theorem State.setPart_hbmErr (s : State) (n : Nat) (p : Part) : (s.setPart n p).hbmErr = s.hbmErr := rfl
@[simp] theorem State.setPart_given (s : State) (n : Nat) (p : Part) : (s.setPart n p).given = s.given := rfl
@[simp] theorem State.setPart_hardRows (s : State) (n : Nat) (p : Part) : (s.setPart n p).hardRows = s.hardRows := rfl
@[simp] theorem State.setPart_ports (s : State) (n : Nat) (p : Part) : (s.setPart n p).ports = s.ports := rfl
@[simp] theorem State.setPart_ring (s : State) (n : Nat) (p : Part) : (s.setPart n p).ring = s.ring := rfl
@[simp] theorem State.setPart_shadows (s : State) (n : Nat) (p : Part) : (s.setPart n p).shadows = s.shadows := rfl
@[simp] theorem State.setPart_shadowShown (s : State) (n : Nat) (p : Part) :
    (s.setPart n p).shadowShown = s.shadowShown := rfl
@[simp] theorem State.setPart_linkIn (s : State) (n : Nat) (p : Part) : (s.setPart n p).linkIn = s.linkIn := rfl
@[simp] theorem State.setPart_linkCol (s : State) (n : Nat) (p : Part) : (s.setPart n p).linkCol = s.linkCol := rfl
@[simp] theorem State.setPart_groups (s : State) (n : Nat) (p : Part) : (s.setPart n p).groups = s.groups := rfl
@[simp] theorem State.setPart_parts (s : State) (n : Nat) (p : Part) : (s.setPart n p).parts = tset {} s.parts n p :=
  rfl
@[simp] theorem State.setPart_hosts (s : State) (n : Nat) (p : Part) : (s.setPart n p).hosts = s.hosts := rfl
@[simp] theorem State.setPart_waiters (s : State) (n : Nat) (p : Part) : (s.setPart n p).waiters = s.waiters := rfl
@[simp] theorem State.setPart_mgmtStarted (s : State) (n : Nat) (p : Part) :
    (s.setPart n p).mgmtStarted = s.mgmtStarted := rfl
@[simp] theorem State.setPart_mgmtOut (s : State) (n : Nat) (p : Part) : (s.setPart n p).mgmtOut = s.mgmtOut := rfl
@[simp] theorem State.setPart_fetched (s : State) (n : Nat) (p : Part) : (s.setPart n p).fetched = s.fetched := rfl
@[simp] theorem State.setPart_resets (s : State) (n : Nat) (p : Part) : (s.setPart n p).resets = s.resets := rfl
@[simp] theorem State.setPart_ctlOut (s : State) (n : Nat) (p : Part) : (s.setPart n p).ctlOut = s.ctlOut := rfl
@[simp] theorem State.setPart_ctlReplies (s : State) (n : Nat) (p : Part) : (s.setPart n p).ctlReplies = s.ctlReplies :=
  rfl
@[simp] theorem State.setPart_acks (s : State) (n : Nat) (p : Part) : (s.setPart n p).acks = s.acks := rfl
@[simp] theorem State.setPart_reports (s : State) (n : Nat) (p : Part) : (s.setPart n p).reports = s.reports := rfl
@[simp] theorem State.setPart_faults (s : State) (n : Nat) (p : Part) : (s.setPart n p).faults = s.faults := rfl
@[simp] theorem State.setPart_recorder (s : State) (n : Nat) (p : Part) : (s.setPart n p).recorder = s.recorder := rfl
@[simp] theorem State.setPart_flash (s : State) (n : Nat) (p : Part) : (s.setPart n p).flash = s.flash := rfl
@[simp] theorem State.setPart_sec (s : State) (n : Nat) (p : Part) : (s.setPart n p).sec = s.sec := rfl
@[simp] theorem State.setPart_life (s : State) (n : Nat) (p : Part) : (s.setPart n p).life = s.life := rfl
@[simp] theorem State.setPart_panel (s : State) (n : Nat) (p : Part) : (s.setPart n p).panel = s.panel := rfl

/-! ### `State.setHost` -/

@[simp] theorem State.setHost_pending (s : State) (b : Bool) (h : HostIf) : (s.setHost b h).pending = s.pending := rfl
@[simp] theorem State.setHost_free (s : State) (b : Bool) (h : HostIf) : (s.setHost b h).free = s.free := rfl
@[simp] theorem State.setHost_mem (s : State) (b : Bool) (h : HostIf) : (s.setHost b h).mem = s.mem := rfl
@[simp] theorem State.setHost_hostMem (s : State) (b : Bool) (h : HostIf) : (s.setHost b h).hostMem = s.hostMem := rfl
@[simp] theorem State.setHost_cores (s : State) (b : Bool) (h : HostIf) : (s.setHost b h).cores = s.cores := rfl
@[simp] theorem State.setHost_routers (s : State) (b : Bool) (h : HostIf) : (s.setHost b h).routers = s.routers := rfl
@[simp] theorem State.setHost_dies (s : State) (b : Bool) (h : HostIf) : (s.setHost b h).dies = s.dies := rfl
@[simp] theorem State.setHost_regions (s : State) (b : Bool) (h : HostIf) : (s.setHost b h).regions = s.regions := rfl
@[simp] theorem State.setHost_edges (s : State) (b : Bool) (h : HostIf) : (s.setHost b h).edges = s.edges := rfl
@[simp] theorem State.setHost_rows (s : State) (b : Bool) (h : HostIf) : (s.setHost b h).rows = s.rows := rfl
@[simp] theorem State.setHost_culv (s : State) (b : Bool) (h : HostIf) : (s.setHost b h).culv = s.culv := rfl
@[simp] theorem State.setHost_msds (s : State) (b : Bool) (h : HostIf) : (s.setHost b h).msds = s.msds := rfl
@[simp] theorem State.setHost_hbm (s : State) (b : Bool) (h : HostIf) : (s.setHost b h).hbm = s.hbm := rfl
@[simp] theorem State.setHost_tags (s : State) (b : Bool) (h : HostIf) : (s.setHost b h).tags = s.tags := rfl
@[simp] theorem State.setHost_hbmErr (s : State) (b : Bool) (h : HostIf) : (s.setHost b h).hbmErr = s.hbmErr := rfl
@[simp] theorem State.setHost_given (s : State) (b : Bool) (h : HostIf) : (s.setHost b h).given = s.given := rfl
@[simp] theorem State.setHost_hardRows (s : State) (b : Bool) (h : HostIf) : (s.setHost b h).hardRows = s.hardRows :=
  rfl
@[simp] theorem State.setHost_ports (s : State) (b : Bool) (h : HostIf) : (s.setHost b h).ports = s.ports := rfl
@[simp] theorem State.setHost_ring (s : State) (b : Bool) (h : HostIf) : (s.setHost b h).ring = s.ring := rfl
@[simp] theorem State.setHost_shadows (s : State) (b : Bool) (h : HostIf) : (s.setHost b h).shadows = s.shadows := rfl
@[simp] theorem State.setHost_shadowShown (s : State) (b : Bool) (h : HostIf) :
    (s.setHost b h).shadowShown = s.shadowShown := rfl
@[simp] theorem State.setHost_linkIn (s : State) (b : Bool) (h : HostIf) : (s.setHost b h).linkIn = s.linkIn := rfl
@[simp] theorem State.setHost_linkCol (s : State) (b : Bool) (h : HostIf) : (s.setHost b h).linkCol = s.linkCol := rfl
@[simp] theorem State.setHost_groups (s : State) (b : Bool) (h : HostIf) : (s.setHost b h).groups = s.groups := rfl
@[simp] theorem State.setHost_parts (s : State) (b : Bool) (h : HostIf) : (s.setHost b h).parts = s.parts := rfl
@[simp] theorem State.setHost_hosts (s : State) (b : Bool) (h : HostIf) :
    (s.setHost b h).hosts = tset {} s.hosts (b2n b) h := rfl
@[simp] theorem State.setHost_waiters (s : State) (b : Bool) (h : HostIf) : (s.setHost b h).waiters = s.waiters := rfl
@[simp] theorem State.setHost_mgmtStarted (s : State) (b : Bool) (h : HostIf) :
    (s.setHost b h).mgmtStarted = s.mgmtStarted := rfl
@[simp] theorem State.setHost_mgmtOut (s : State) (b : Bool) (h : HostIf) : (s.setHost b h).mgmtOut = s.mgmtOut := rfl
@[simp] theorem State.setHost_fetched (s : State) (b : Bool) (h : HostIf) : (s.setHost b h).fetched = s.fetched := rfl
@[simp] theorem State.setHost_resets (s : State) (b : Bool) (h : HostIf) : (s.setHost b h).resets = s.resets := rfl
@[simp] theorem State.setHost_ctlOut (s : State) (b : Bool) (h : HostIf) : (s.setHost b h).ctlOut = s.ctlOut := rfl
@[simp] theorem State.setHost_ctlReplies (s : State) (b : Bool) (h : HostIf) :
    (s.setHost b h).ctlReplies = s.ctlReplies := rfl
@[simp] theorem State.setHost_acks (s : State) (b : Bool) (h : HostIf) : (s.setHost b h).acks = s.acks := rfl
@[simp] theorem State.setHost_reports (s : State) (b : Bool) (h : HostIf) : (s.setHost b h).reports = s.reports := rfl
@[simp] theorem State.setHost_faults (s : State) (b : Bool) (h : HostIf) : (s.setHost b h).faults = s.faults := rfl
@[simp] theorem State.setHost_recorder (s : State) (b : Bool) (h : HostIf) : (s.setHost b h).recorder = s.recorder :=
  rfl
@[simp] theorem State.setHost_flash (s : State) (b : Bool) (h : HostIf) : (s.setHost b h).flash = s.flash := rfl
@[simp] theorem State.setHost_sec (s : State) (b : Bool) (h : HostIf) : (s.setHost b h).sec = s.sec := rfl
@[simp] theorem State.setHost_life (s : State) (b : Bool) (h : HostIf) : (s.setHost b h).life = s.life := rfl
@[simp] theorem State.setHost_panel (s : State) (b : Bool) (h : HostIf) : (s.setHost b h).panel = s.panel := rfl

/-! ### `State.onCore` -/

@[simp] theorem State.onCore_pending (s : State) (c : CoreRef) (f : Core → Core) : (s.onCore c f).pending = s.pending :=
  rfl
@[simp] theorem State.onCore_free (s : State) (c : CoreRef) (f : Core → Core) : (s.onCore c f).free = s.free := rfl
@[simp] theorem State.onCore_mem (s : State) (c : CoreRef) (f : Core → Core) : (s.onCore c f).mem = s.mem := rfl
@[simp] theorem State.onCore_hostMem (s : State) (c : CoreRef) (f : Core → Core) : (s.onCore c f).hostMem = s.hostMem :=
  rfl
@[simp] theorem State.onCore_cores (s : State) (c : CoreRef) (f : Core → Core) :
    (s.onCore c f).cores = tset {} s.cores (coreKey c) (f (s.core c)) := rfl
@[simp] theorem State.onCore_routers (s : State) (c : CoreRef) (f : Core → Core) : (s.onCore c f).routers = s.routers :=
  rfl
@[simp] theorem State.onCore_dies (s : State) (c : CoreRef) (f : Core → Core) : (s.onCore c f).dies = s.dies := rfl
@[simp] theorem State.onCore_regions (s : State) (c : CoreRef) (f : Core → Core) : (s.onCore c f).regions = s.regions :=
  rfl
@[simp] theorem State.onCore_edges (s : State) (c : CoreRef) (f : Core → Core) : (s.onCore c f).edges = s.edges := rfl
@[simp] theorem State.onCore_rows (s : State) (c : CoreRef) (f : Core → Core) : (s.onCore c f).rows = s.rows := rfl
@[simp] theorem State.onCore_culv (s : State) (c : CoreRef) (f : Core → Core) : (s.onCore c f).culv = s.culv := rfl
@[simp] theorem State.onCore_msds (s : State) (c : CoreRef) (f : Core → Core) : (s.onCore c f).msds = s.msds := rfl
@[simp] theorem State.onCore_hbm (s : State) (c : CoreRef) (f : Core → Core) : (s.onCore c f).hbm = s.hbm := rfl
@[simp] theorem State.onCore_tags (s : State) (c : CoreRef) (f : Core → Core) : (s.onCore c f).tags = s.tags := rfl
@[simp] theorem State.onCore_hbmErr (s : State) (c : CoreRef) (f : Core → Core) : (s.onCore c f).hbmErr = s.hbmErr :=
  rfl
@[simp] theorem State.onCore_given (s : State) (c : CoreRef) (f : Core → Core) : (s.onCore c f).given = s.given := rfl
@[simp] theorem State.onCore_hardRows (s : State) (c : CoreRef) (f : Core → Core) :
    (s.onCore c f).hardRows = s.hardRows := rfl
@[simp] theorem State.onCore_ports (s : State) (c : CoreRef) (f : Core → Core) : (s.onCore c f).ports = s.ports := rfl
@[simp] theorem State.onCore_ring (s : State) (c : CoreRef) (f : Core → Core) : (s.onCore c f).ring = s.ring := rfl
@[simp] theorem State.onCore_shadows (s : State) (c : CoreRef) (f : Core → Core) : (s.onCore c f).shadows = s.shadows :=
  rfl
@[simp] theorem State.onCore_shadowShown (s : State) (c : CoreRef) (f : Core → Core) :
    (s.onCore c f).shadowShown = s.shadowShown := rfl
@[simp] theorem State.onCore_linkIn (s : State) (c : CoreRef) (f : Core → Core) : (s.onCore c f).linkIn = s.linkIn :=
  rfl
@[simp] theorem State.onCore_linkCol (s : State) (c : CoreRef) (f : Core → Core) : (s.onCore c f).linkCol = s.linkCol :=
  rfl
@[simp] theorem State.onCore_groups (s : State) (c : CoreRef) (f : Core → Core) : (s.onCore c f).groups = s.groups :=
  rfl
@[simp] theorem State.onCore_parts (s : State) (c : CoreRef) (f : Core → Core) : (s.onCore c f).parts = s.parts := rfl
@[simp] theorem State.onCore_hosts (s : State) (c : CoreRef) (f : Core → Core) : (s.onCore c f).hosts = s.hosts := rfl
@[simp] theorem State.onCore_waiters (s : State) (c : CoreRef) (f : Core → Core) : (s.onCore c f).waiters = s.waiters :=
  rfl
@[simp] theorem State.onCore_mgmtStarted (s : State) (c : CoreRef) (f : Core → Core) :
    (s.onCore c f).mgmtStarted = s.mgmtStarted := rfl
@[simp] theorem State.onCore_mgmtOut (s : State) (c : CoreRef) (f : Core → Core) : (s.onCore c f).mgmtOut = s.mgmtOut :=
  rfl
@[simp] theorem State.onCore_fetched (s : State) (c : CoreRef) (f : Core → Core) : (s.onCore c f).fetched = s.fetched :=
  rfl
@[simp] theorem State.onCore_resets (s : State) (c : CoreRef) (f : Core → Core) : (s.onCore c f).resets = s.resets :=
  rfl
@[simp] theorem State.onCore_ctlOut (s : State) (c : CoreRef) (f : Core → Core) : (s.onCore c f).ctlOut = s.ctlOut :=
  rfl
@[simp] theorem State.onCore_ctlReplies (s : State) (c : CoreRef) (f : Core → Core) :
    (s.onCore c f).ctlReplies = s.ctlReplies := rfl
@[simp] theorem State.onCore_acks (s : State) (c : CoreRef) (f : Core → Core) : (s.onCore c f).acks = s.acks := rfl
@[simp] theorem State.onCore_reports (s : State) (c : CoreRef) (f : Core → Core) : (s.onCore c f).reports = s.reports :=
  rfl
@[simp] theorem State.onCore_faults (s : State) (c : CoreRef) (f : Core → Core) : (s.onCore c f).faults = s.faults :=
  rfl
@[simp] theorem State.onCore_recorder (s : State) (c : CoreRef) (f : Core → Core) :
    (s.onCore c f).recorder = s.recorder := rfl
@[simp] theorem State.onCore_flash (s : State) (c : CoreRef) (f : Core → Core) : (s.onCore c f).flash = s.flash := rfl
@[simp] theorem State.onCore_sec (s : State) (c : CoreRef) (f : Core → Core) : (s.onCore c f).sec = s.sec := rfl
@[simp] theorem State.onCore_life (s : State) (c : CoreRef) (f : Core → Core) : (s.onCore c f).life = s.life := rfl
@[simp] theorem State.onCore_panel (s : State) (c : CoreRef) (f : Core → Core) : (s.onCore c f).panel = s.panel := rfl

/-! ### `State.onDie` -/

@[simp] theorem State.onDie_pending (s : State) (n : Nat) (f : Die → Die) : (s.onDie n f).pending = s.pending := rfl
@[simp] theorem State.onDie_free (s : State) (n : Nat) (f : Die → Die) : (s.onDie n f).free = s.free := rfl
@[simp] theorem State.onDie_mem (s : State) (n : Nat) (f : Die → Die) : (s.onDie n f).mem = s.mem := rfl
@[simp] theorem State.onDie_hostMem (s : State) (n : Nat) (f : Die → Die) : (s.onDie n f).hostMem = s.hostMem := rfl
@[simp] theorem State.onDie_cores (s : State) (n : Nat) (f : Die → Die) : (s.onDie n f).cores = s.cores := rfl
@[simp] theorem State.onDie_routers (s : State) (n : Nat) (f : Die → Die) : (s.onDie n f).routers = s.routers := rfl
@[simp] theorem State.onDie_dies (s : State) (n : Nat) (f : Die → Die) :
    (s.onDie n f).dies = tset {} s.dies n (f (s.die n)) := rfl
@[simp] theorem State.onDie_regions (s : State) (n : Nat) (f : Die → Die) : (s.onDie n f).regions = s.regions := rfl
@[simp] theorem State.onDie_edges (s : State) (n : Nat) (f : Die → Die) : (s.onDie n f).edges = s.edges := rfl
@[simp] theorem State.onDie_rows (s : State) (n : Nat) (f : Die → Die) : (s.onDie n f).rows = s.rows := rfl
@[simp] theorem State.onDie_culv (s : State) (n : Nat) (f : Die → Die) : (s.onDie n f).culv = s.culv := rfl
@[simp] theorem State.onDie_msds (s : State) (n : Nat) (f : Die → Die) : (s.onDie n f).msds = s.msds := rfl
@[simp] theorem State.onDie_hbm (s : State) (n : Nat) (f : Die → Die) : (s.onDie n f).hbm = s.hbm := rfl
@[simp] theorem State.onDie_tags (s : State) (n : Nat) (f : Die → Die) : (s.onDie n f).tags = s.tags := rfl
@[simp] theorem State.onDie_hbmErr (s : State) (n : Nat) (f : Die → Die) : (s.onDie n f).hbmErr = s.hbmErr := rfl
@[simp] theorem State.onDie_given (s : State) (n : Nat) (f : Die → Die) : (s.onDie n f).given = s.given := rfl
@[simp] theorem State.onDie_hardRows (s : State) (n : Nat) (f : Die → Die) : (s.onDie n f).hardRows = s.hardRows := rfl
@[simp] theorem State.onDie_ports (s : State) (n : Nat) (f : Die → Die) : (s.onDie n f).ports = s.ports := rfl
@[simp] theorem State.onDie_ring (s : State) (n : Nat) (f : Die → Die) : (s.onDie n f).ring = s.ring := rfl
@[simp] theorem State.onDie_shadows (s : State) (n : Nat) (f : Die → Die) : (s.onDie n f).shadows = s.shadows := rfl
@[simp] theorem State.onDie_shadowShown (s : State) (n : Nat) (f : Die → Die) :
    (s.onDie n f).shadowShown = s.shadowShown := rfl
@[simp] theorem State.onDie_linkIn (s : State) (n : Nat) (f : Die → Die) : (s.onDie n f).linkIn = s.linkIn := rfl
@[simp] theorem State.onDie_linkCol (s : State) (n : Nat) (f : Die → Die) : (s.onDie n f).linkCol = s.linkCol := rfl
@[simp] theorem State.onDie_groups (s : State) (n : Nat) (f : Die → Die) : (s.onDie n f).groups = s.groups := rfl
@[simp] theorem State.onDie_parts (s : State) (n : Nat) (f : Die → Die) : (s.onDie n f).parts = s.parts := rfl
@[simp] theorem State.onDie_hosts (s : State) (n : Nat) (f : Die → Die) : (s.onDie n f).hosts = s.hosts := rfl
@[simp] theorem State.onDie_waiters (s : State) (n : Nat) (f : Die → Die) : (s.onDie n f).waiters = s.waiters := rfl
@[simp] theorem State.onDie_mgmtStarted (s : State) (n : Nat) (f : Die → Die) :
    (s.onDie n f).mgmtStarted = s.mgmtStarted := rfl
@[simp] theorem State.onDie_mgmtOut (s : State) (n : Nat) (f : Die → Die) : (s.onDie n f).mgmtOut = s.mgmtOut := rfl
@[simp] theorem State.onDie_fetched (s : State) (n : Nat) (f : Die → Die) : (s.onDie n f).fetched = s.fetched := rfl
@[simp] theorem State.onDie_resets (s : State) (n : Nat) (f : Die → Die) : (s.onDie n f).resets = s.resets := rfl
@[simp] theorem State.onDie_ctlOut (s : State) (n : Nat) (f : Die → Die) : (s.onDie n f).ctlOut = s.ctlOut := rfl
@[simp] theorem State.onDie_ctlReplies (s : State) (n : Nat) (f : Die → Die) : (s.onDie n f).ctlReplies = s.ctlReplies :=
  rfl
@[simp] theorem State.onDie_acks (s : State) (n : Nat) (f : Die → Die) : (s.onDie n f).acks = s.acks := rfl
@[simp] theorem State.onDie_reports (s : State) (n : Nat) (f : Die → Die) : (s.onDie n f).reports = s.reports := rfl
@[simp] theorem State.onDie_faults (s : State) (n : Nat) (f : Die → Die) : (s.onDie n f).faults = s.faults := rfl
@[simp] theorem State.onDie_recorder (s : State) (n : Nat) (f : Die → Die) : (s.onDie n f).recorder = s.recorder := rfl
@[simp] theorem State.onDie_flash (s : State) (n : Nat) (f : Die → Die) : (s.onDie n f).flash = s.flash := rfl
@[simp] theorem State.onDie_sec (s : State) (n : Nat) (f : Die → Die) : (s.onDie n f).sec = s.sec := rfl
@[simp] theorem State.onDie_life (s : State) (n : Nat) (f : Die → Die) : (s.onDie n f).life = s.life := rfl
@[simp] theorem State.onDie_panel (s : State) (n : Nat) (f : Die → Die) : (s.onDie n f).panel = s.panel := rfl

/-! ### `State.onPart` -/

@[simp] theorem State.onPart_pending (s : State) (n : Nat) (f : Part → Part) : (s.onPart n f).pending = s.pending := rfl
@[simp] theorem State.onPart_free (s : State) (n : Nat) (f : Part → Part) : (s.onPart n f).free = s.free := rfl
@[simp] theorem State.onPart_mem (s : State) (n : Nat) (f : Part → Part) : (s.onPart n f).mem = s.mem := rfl
@[simp] theorem State.onPart_hostMem (s : State) (n : Nat) (f : Part → Part) : (s.onPart n f).hostMem = s.hostMem := rfl
@[simp] theorem State.onPart_cores (s : State) (n : Nat) (f : Part → Part) : (s.onPart n f).cores = s.cores := rfl
@[simp] theorem State.onPart_routers (s : State) (n : Nat) (f : Part → Part) : (s.onPart n f).routers = s.routers := rfl
@[simp] theorem State.onPart_dies (s : State) (n : Nat) (f : Part → Part) : (s.onPart n f).dies = s.dies := rfl
@[simp] theorem State.onPart_regions (s : State) (n : Nat) (f : Part → Part) : (s.onPart n f).regions = s.regions := rfl
@[simp] theorem State.onPart_edges (s : State) (n : Nat) (f : Part → Part) : (s.onPart n f).edges = s.edges := rfl
@[simp] theorem State.onPart_rows (s : State) (n : Nat) (f : Part → Part) : (s.onPart n f).rows = s.rows := rfl
@[simp] theorem State.onPart_culv (s : State) (n : Nat) (f : Part → Part) : (s.onPart n f).culv = s.culv := rfl
@[simp] theorem State.onPart_msds (s : State) (n : Nat) (f : Part → Part) : (s.onPart n f).msds = s.msds := rfl
@[simp] theorem State.onPart_hbm (s : State) (n : Nat) (f : Part → Part) : (s.onPart n f).hbm = s.hbm := rfl
@[simp] theorem State.onPart_tags (s : State) (n : Nat) (f : Part → Part) : (s.onPart n f).tags = s.tags := rfl
@[simp] theorem State.onPart_hbmErr (s : State) (n : Nat) (f : Part → Part) : (s.onPart n f).hbmErr = s.hbmErr := rfl
@[simp] theorem State.onPart_given (s : State) (n : Nat) (f : Part → Part) : (s.onPart n f).given = s.given := rfl
@[simp] theorem State.onPart_hardRows (s : State) (n : Nat) (f : Part → Part) : (s.onPart n f).hardRows = s.hardRows :=
  rfl
@[simp] theorem State.onPart_ports (s : State) (n : Nat) (f : Part → Part) : (s.onPart n f).ports = s.ports := rfl
@[simp] theorem State.onPart_ring (s : State) (n : Nat) (f : Part → Part) : (s.onPart n f).ring = s.ring := rfl
@[simp] theorem State.onPart_shadows (s : State) (n : Nat) (f : Part → Part) : (s.onPart n f).shadows = s.shadows := rfl
@[simp] theorem State.onPart_shadowShown (s : State) (n : Nat) (f : Part → Part) :
    (s.onPart n f).shadowShown = s.shadowShown := rfl
@[simp] theorem State.onPart_linkIn (s : State) (n : Nat) (f : Part → Part) : (s.onPart n f).linkIn = s.linkIn := rfl
@[simp] theorem State.onPart_linkCol (s : State) (n : Nat) (f : Part → Part) : (s.onPart n f).linkCol = s.linkCol := rfl
@[simp] theorem State.onPart_groups (s : State) (n : Nat) (f : Part → Part) : (s.onPart n f).groups = s.groups := rfl
@[simp] theorem State.onPart_parts (s : State) (n : Nat) (f : Part → Part) :
    (s.onPart n f).parts = tset {} s.parts n (f (s.part n)) := rfl
@[simp] theorem State.onPart_hosts (s : State) (n : Nat) (f : Part → Part) : (s.onPart n f).hosts = s.hosts := rfl
@[simp] theorem State.onPart_waiters (s : State) (n : Nat) (f : Part → Part) : (s.onPart n f).waiters = s.waiters := rfl
@[simp] theorem State.onPart_mgmtStarted (s : State) (n : Nat) (f : Part → Part) :
    (s.onPart n f).mgmtStarted = s.mgmtStarted := rfl
@[simp] theorem State.onPart_mgmtOut (s : State) (n : Nat) (f : Part → Part) : (s.onPart n f).mgmtOut = s.mgmtOut := rfl
@[simp] theorem State.onPart_fetched (s : State) (n : Nat) (f : Part → Part) : (s.onPart n f).fetched = s.fetched := rfl
@[simp] theorem State.onPart_resets (s : State) (n : Nat) (f : Part → Part) : (s.onPart n f).resets = s.resets := rfl
@[simp] theorem State.onPart_ctlOut (s : State) (n : Nat) (f : Part → Part) : (s.onPart n f).ctlOut = s.ctlOut := rfl
@[simp] theorem State.onPart_ctlReplies (s : State) (n : Nat) (f : Part → Part) :
    (s.onPart n f).ctlReplies = s.ctlReplies := rfl
@[simp] theorem State.onPart_acks (s : State) (n : Nat) (f : Part → Part) : (s.onPart n f).acks = s.acks := rfl
@[simp] theorem State.onPart_reports (s : State) (n : Nat) (f : Part → Part) : (s.onPart n f).reports = s.reports := rfl
@[simp] theorem State.onPart_faults (s : State) (n : Nat) (f : Part → Part) : (s.onPart n f).faults = s.faults := rfl
@[simp] theorem State.onPart_recorder (s : State) (n : Nat) (f : Part → Part) : (s.onPart n f).recorder = s.recorder :=
  rfl
@[simp] theorem State.onPart_flash (s : State) (n : Nat) (f : Part → Part) : (s.onPart n f).flash = s.flash := rfl
@[simp] theorem State.onPart_sec (s : State) (n : Nat) (f : Part → Part) : (s.onPart n f).sec = s.sec := rfl
@[simp] theorem State.onPart_life (s : State) (n : Nat) (f : Part → Part) : (s.onPart n f).life = s.life := rfl
@[simp] theorem State.onPart_panel (s : State) (n : Nat) (f : Part → Part) : (s.onPart n f).panel = s.panel := rfl

/-! ### `State.onPanel` -/

@[simp] theorem State.onPanel_pending (s : State) (f : Panel → Panel) : (s.onPanel f).pending = s.pending := rfl
@[simp] theorem State.onPanel_free (s : State) (f : Panel → Panel) : (s.onPanel f).free = s.free := rfl
@[simp] theorem State.onPanel_mem (s : State) (f : Panel → Panel) : (s.onPanel f).mem = s.mem := rfl
@[simp] theorem State.onPanel_hostMem (s : State) (f : Panel → Panel) : (s.onPanel f).hostMem = s.hostMem := rfl
@[simp] theorem State.onPanel_cores (s : State) (f : Panel → Panel) : (s.onPanel f).cores = s.cores := rfl
@[simp] theorem State.onPanel_routers (s : State) (f : Panel → Panel) : (s.onPanel f).routers = s.routers := rfl
@[simp] theorem State.onPanel_dies (s : State) (f : Panel → Panel) : (s.onPanel f).dies = s.dies := rfl
@[simp] theorem State.onPanel_regions (s : State) (f : Panel → Panel) : (s.onPanel f).regions = s.regions := rfl
@[simp] theorem State.onPanel_edges (s : State) (f : Panel → Panel) : (s.onPanel f).edges = s.edges := rfl
@[simp] theorem State.onPanel_rows (s : State) (f : Panel → Panel) : (s.onPanel f).rows = s.rows := rfl
@[simp] theorem State.onPanel_culv (s : State) (f : Panel → Panel) : (s.onPanel f).culv = s.culv := rfl
@[simp] theorem State.onPanel_msds (s : State) (f : Panel → Panel) : (s.onPanel f).msds = s.msds := rfl
@[simp] theorem State.onPanel_hbm (s : State) (f : Panel → Panel) : (s.onPanel f).hbm = s.hbm := rfl
@[simp] theorem State.onPanel_tags (s : State) (f : Panel → Panel) : (s.onPanel f).tags = s.tags := rfl
@[simp] theorem State.onPanel_hbmErr (s : State) (f : Panel → Panel) : (s.onPanel f).hbmErr = s.hbmErr := rfl
@[simp] theorem State.onPanel_given (s : State) (f : Panel → Panel) : (s.onPanel f).given = s.given := rfl
@[simp] theorem State.onPanel_hardRows (s : State) (f : Panel → Panel) : (s.onPanel f).hardRows = s.hardRows := rfl
@[simp] theorem State.onPanel_ports (s : State) (f : Panel → Panel) : (s.onPanel f).ports = s.ports := rfl
@[simp] theorem State.onPanel_ring (s : State) (f : Panel → Panel) : (s.onPanel f).ring = s.ring := rfl
@[simp] theorem State.onPanel_shadows (s : State) (f : Panel → Panel) : (s.onPanel f).shadows = s.shadows := rfl
@[simp] theorem State.onPanel_shadowShown (s : State) (f : Panel → Panel) : (s.onPanel f).shadowShown = s.shadowShown :=
  rfl
@[simp] theorem State.onPanel_linkIn (s : State) (f : Panel → Panel) : (s.onPanel f).linkIn = s.linkIn := rfl
@[simp] theorem State.onPanel_linkCol (s : State) (f : Panel → Panel) : (s.onPanel f).linkCol = s.linkCol := rfl
@[simp] theorem State.onPanel_groups (s : State) (f : Panel → Panel) : (s.onPanel f).groups = s.groups := rfl
@[simp] theorem State.onPanel_parts (s : State) (f : Panel → Panel) : (s.onPanel f).parts = s.parts := rfl
@[simp] theorem State.onPanel_hosts (s : State) (f : Panel → Panel) : (s.onPanel f).hosts = s.hosts := rfl
@[simp] theorem State.onPanel_waiters (s : State) (f : Panel → Panel) : (s.onPanel f).waiters = s.waiters := rfl
@[simp] theorem State.onPanel_mgmtStarted (s : State) (f : Panel → Panel) : (s.onPanel f).mgmtStarted = s.mgmtStarted :=
  rfl
@[simp] theorem State.onPanel_mgmtOut (s : State) (f : Panel → Panel) : (s.onPanel f).mgmtOut = s.mgmtOut := rfl
@[simp] theorem State.onPanel_fetched (s : State) (f : Panel → Panel) : (s.onPanel f).fetched = s.fetched := rfl
@[simp] theorem State.onPanel_resets (s : State) (f : Panel → Panel) : (s.onPanel f).resets = s.resets := rfl
@[simp] theorem State.onPanel_ctlOut (s : State) (f : Panel → Panel) : (s.onPanel f).ctlOut = s.ctlOut := rfl
@[simp] theorem State.onPanel_ctlReplies (s : State) (f : Panel → Panel) : (s.onPanel f).ctlReplies = s.ctlReplies :=
  rfl
@[simp] theorem State.onPanel_acks (s : State) (f : Panel → Panel) : (s.onPanel f).acks = s.acks := rfl
@[simp] theorem State.onPanel_reports (s : State) (f : Panel → Panel) : (s.onPanel f).reports = s.reports := rfl
@[simp] theorem State.onPanel_faults (s : State) (f : Panel → Panel) : (s.onPanel f).faults = s.faults := rfl
@[simp] theorem State.onPanel_recorder (s : State) (f : Panel → Panel) : (s.onPanel f).recorder = s.recorder := rfl
@[simp] theorem State.onPanel_flash (s : State) (f : Panel → Panel) : (s.onPanel f).flash = s.flash := rfl
@[simp] theorem State.onPanel_sec (s : State) (f : Panel → Panel) : (s.onPanel f).sec = s.sec := rfl
@[simp] theorem State.onPanel_life (s : State) (f : Panel → Panel) : (s.onPanel f).life = s.life := rfl
@[simp] theorem State.onPanel_panel (s : State) (f : Panel → Panel) : (s.onPanel f).panel = f s.panel := rfl

/-! ### `State.tick` -/

@[simp] theorem State.tick_pending (s : State) : (s.tick).pending = s.pending := rfl
@[simp] theorem State.tick_free (s : State) : (s.tick).free = s.free + 1 := rfl
@[simp] theorem State.tick_mem (s : State) : (s.tick).mem = s.mem := rfl
@[simp] theorem State.tick_hostMem (s : State) : (s.tick).hostMem = s.hostMem := rfl
@[simp] theorem State.tick_cores (s : State) : (s.tick).cores = s.cores := rfl
@[simp] theorem State.tick_routers (s : State) : (s.tick).routers = s.routers := rfl
@[simp] theorem State.tick_dies (s : State) : (s.tick).dies = s.dies := rfl
@[simp] theorem State.tick_regions (s : State) : (s.tick).regions = s.regions := rfl
@[simp] theorem State.tick_edges (s : State) : (s.tick).edges = s.edges := rfl
@[simp] theorem State.tick_rows (s : State) : (s.tick).rows = s.rows := rfl
@[simp] theorem State.tick_culv (s : State) : (s.tick).culv = s.culv := rfl
@[simp] theorem State.tick_msds (s : State) : (s.tick).msds = s.msds := rfl
@[simp] theorem State.tick_hbm (s : State) : (s.tick).hbm = s.hbm := rfl
@[simp] theorem State.tick_tags (s : State) : (s.tick).tags = s.tags := rfl
@[simp] theorem State.tick_hbmErr (s : State) : (s.tick).hbmErr = s.hbmErr := rfl
@[simp] theorem State.tick_given (s : State) : (s.tick).given = s.given := rfl
@[simp] theorem State.tick_hardRows (s : State) : (s.tick).hardRows = s.hardRows := rfl
@[simp] theorem State.tick_ports (s : State) : (s.tick).ports = s.ports := rfl
@[simp] theorem State.tick_ring (s : State) : (s.tick).ring = s.ring := rfl
@[simp] theorem State.tick_shadows (s : State) : (s.tick).shadows = s.shadows := rfl
@[simp] theorem State.tick_shadowShown (s : State) : (s.tick).shadowShown = s.shadowShown := rfl
@[simp] theorem State.tick_linkIn (s : State) : (s.tick).linkIn = s.linkIn := rfl
@[simp] theorem State.tick_linkCol (s : State) : (s.tick).linkCol = s.linkCol := rfl
@[simp] theorem State.tick_groups (s : State) : (s.tick).groups = s.groups := rfl
@[simp] theorem State.tick_parts (s : State) : (s.tick).parts = s.parts := rfl
@[simp] theorem State.tick_hosts (s : State) : (s.tick).hosts = s.hosts := rfl
@[simp] theorem State.tick_waiters (s : State) : (s.tick).waiters = s.waiters := rfl
@[simp] theorem State.tick_mgmtStarted (s : State) : (s.tick).mgmtStarted = s.mgmtStarted := rfl
@[simp] theorem State.tick_mgmtOut (s : State) : (s.tick).mgmtOut = s.mgmtOut := rfl
@[simp] theorem State.tick_fetched (s : State) : (s.tick).fetched = s.fetched := rfl
@[simp] theorem State.tick_resets (s : State) : (s.tick).resets = s.resets := rfl
@[simp] theorem State.tick_ctlOut (s : State) : (s.tick).ctlOut = s.ctlOut := rfl
@[simp] theorem State.tick_ctlReplies (s : State) : (s.tick).ctlReplies = s.ctlReplies := rfl
@[simp] theorem State.tick_acks (s : State) : (s.tick).acks = s.acks := rfl
@[simp] theorem State.tick_reports (s : State) : (s.tick).reports = s.reports := rfl
@[simp] theorem State.tick_faults (s : State) : (s.tick).faults = s.faults := rfl
@[simp] theorem State.tick_recorder (s : State) : (s.tick).recorder = s.recorder := rfl
@[simp] theorem State.tick_flash (s : State) : (s.tick).flash = s.flash := rfl
@[simp] theorem State.tick_sec (s : State) : (s.tick).sec = s.sec := rfl
@[simp] theorem State.tick_life (s : State) : (s.tick).life = s.life := rfl
@[simp] theorem State.tick_panel (s : State) : (s.tick).panel = s.panel := rfl

/-! ### `State.store` -/

@[simp] theorem State.store_pending (s : State) (a : Nat) (bs : List Byte) : (s.store a bs).pending = s.pending := rfl
@[simp] theorem State.store_free (s : State) (a : Nat) (bs : List Byte) : (s.store a bs).free = s.free := rfl
@[simp] theorem State.store_mem (s : State) (a : Nat) (bs : List Byte) : (s.store a bs).mem = memWrite s.mem a bs := rfl
@[simp] theorem State.store_hostMem (s : State) (a : Nat) (bs : List Byte) : (s.store a bs).hostMem = s.hostMem := rfl
@[simp] theorem State.store_cores (s : State) (a : Nat) (bs : List Byte) : (s.store a bs).cores = s.cores := rfl
@[simp] theorem State.store_routers (s : State) (a : Nat) (bs : List Byte) : (s.store a bs).routers = s.routers := rfl
@[simp] theorem State.store_dies (s : State) (a : Nat) (bs : List Byte) : (s.store a bs).dies = s.dies := rfl
@[simp] theorem State.store_regions (s : State) (a : Nat) (bs : List Byte) : (s.store a bs).regions = s.regions := rfl
@[simp] theorem State.store_edges (s : State) (a : Nat) (bs : List Byte) : (s.store a bs).edges = s.edges := rfl
@[simp] theorem State.store_rows (s : State) (a : Nat) (bs : List Byte) : (s.store a bs).rows = s.rows := rfl
@[simp] theorem State.store_culv (s : State) (a : Nat) (bs : List Byte) : (s.store a bs).culv = s.culv := rfl
@[simp] theorem State.store_msds (s : State) (a : Nat) (bs : List Byte) : (s.store a bs).msds = s.msds := rfl
@[simp] theorem State.store_hbm (s : State) (a : Nat) (bs : List Byte) : (s.store a bs).hbm = s.hbm := rfl
@[simp] theorem State.store_tags (s : State) (a : Nat) (bs : List Byte) : (s.store a bs).tags = s.tags := rfl
@[simp] theorem State.store_hbmErr (s : State) (a : Nat) (bs : List Byte) : (s.store a bs).hbmErr = s.hbmErr := rfl
@[simp] theorem State.store_given (s : State) (a : Nat) (bs : List Byte) : (s.store a bs).given = s.given := rfl
@[simp] theorem State.store_hardRows (s : State) (a : Nat) (bs : List Byte) : (s.store a bs).hardRows = s.hardRows :=
  rfl
@[simp] theorem State.store_ports (s : State) (a : Nat) (bs : List Byte) : (s.store a bs).ports = s.ports := rfl
@[simp] theorem State.store_ring (s : State) (a : Nat) (bs : List Byte) : (s.store a bs).ring = s.ring := rfl
@[simp] theorem State.store_shadows (s : State) (a : Nat) (bs : List Byte) : (s.store a bs).shadows = s.shadows := rfl
@[simp] theorem State.store_shadowShown (s : State) (a : Nat) (bs : List Byte) :
    (s.store a bs).shadowShown = s.shadowShown := rfl
@[simp] theorem State.store_linkIn (s : State) (a : Nat) (bs : List Byte) : (s.store a bs).linkIn = s.linkIn := rfl
@[simp] theorem State.store_linkCol (s : State) (a : Nat) (bs : List Byte) : (s.store a bs).linkCol = s.linkCol := rfl
@[simp] theorem State.store_groups (s : State) (a : Nat) (bs : List Byte) : (s.store a bs).groups = s.groups := rfl
@[simp] theorem State.store_parts (s : State) (a : Nat) (bs : List Byte) : (s.store a bs).parts = s.parts := rfl
@[simp] theorem State.store_hosts (s : State) (a : Nat) (bs : List Byte) : (s.store a bs).hosts = s.hosts := rfl
@[simp] theorem State.store_waiters (s : State) (a : Nat) (bs : List Byte) : (s.store a bs).waiters = s.waiters := rfl
@[simp] theorem State.store_mgmtStarted (s : State) (a : Nat) (bs : List Byte) :
    (s.store a bs).mgmtStarted = s.mgmtStarted := rfl
@[simp] theorem State.store_mgmtOut (s : State) (a : Nat) (bs : List Byte) : (s.store a bs).mgmtOut = s.mgmtOut := rfl
@[simp] theorem State.store_fetched (s : State) (a : Nat) (bs : List Byte) : (s.store a bs).fetched = s.fetched := rfl
@[simp] theorem State.store_resets (s : State) (a : Nat) (bs : List Byte) : (s.store a bs).resets = s.resets := rfl
@[simp] theorem State.store_ctlOut (s : State) (a : Nat) (bs : List Byte) : (s.store a bs).ctlOut = s.ctlOut := rfl
@[simp] theorem State.store_ctlReplies (s : State) (a : Nat) (bs : List Byte) :
    (s.store a bs).ctlReplies = s.ctlReplies := rfl
@[simp] theorem State.store_acks (s : State) (a : Nat) (bs : List Byte) : (s.store a bs).acks = s.acks := rfl
@[simp] theorem State.store_reports (s : State) (a : Nat) (bs : List Byte) : (s.store a bs).reports = s.reports := rfl
@[simp] theorem State.store_faults (s : State) (a : Nat) (bs : List Byte) : (s.store a bs).faults = s.faults := rfl
@[simp] theorem State.store_recorder (s : State) (a : Nat) (bs : List Byte) : (s.store a bs).recorder = s.recorder :=
  rfl
@[simp] theorem State.store_flash (s : State) (a : Nat) (bs : List Byte) : (s.store a bs).flash = s.flash := rfl
@[simp] theorem State.store_sec (s : State) (a : Nat) (bs : List Byte) : (s.store a bs).sec = s.sec := rfl
@[simp] theorem State.store_life (s : State) (a : Nat) (bs : List Byte) : (s.store a bs).life = s.life := rfl
@[simp] theorem State.store_panel (s : State) (a : Nat) (bs : List Byte) : (s.store a bs).panel = s.panel := rfl

/-! ### `State.hostStore` -/

@[simp] theorem State.hostStore_pending (s : State) (b : Bool) (a : Nat) (bs : List Byte) :
    (s.hostStore b a bs).pending = s.pending := rfl
@[simp] theorem State.hostStore_free (s : State) (b : Bool) (a : Nat) (bs : List Byte) :
    (s.hostStore b a bs).free = s.free := rfl
@[simp] theorem State.hostStore_mem (s : State) (b : Bool) (a : Nat) (bs : List Byte) :
    (s.hostStore b a bs).mem = s.mem := rfl
@[simp] theorem State.hostStore_hostMem (s : State) (b : Bool) (a : Nat) (bs : List Byte) :
    (s.hostStore b a bs).hostMem = memWrite s.hostMem (hostKey b a) bs := rfl
@[simp] theorem State.hostStore_cores (s : State) (b : Bool) (a : Nat) (bs : List Byte) :
    (s.hostStore b a bs).cores = s.cores := rfl
@[simp] theorem State.hostStore_routers (s : State) (b : Bool) (a : Nat) (bs : List Byte) :
    (s.hostStore b a bs).routers = s.routers := rfl
@[simp] theorem State.hostStore_dies (s : State) (b : Bool) (a : Nat) (bs : List Byte) :
    (s.hostStore b a bs).dies = s.dies := rfl
@[simp] theorem State.hostStore_regions (s : State) (b : Bool) (a : Nat) (bs : List Byte) :
    (s.hostStore b a bs).regions = s.regions := rfl
@[simp] theorem State.hostStore_edges (s : State) (b : Bool) (a : Nat) (bs : List Byte) :
    (s.hostStore b a bs).edges = s.edges := rfl
@[simp] theorem State.hostStore_rows (s : State) (b : Bool) (a : Nat) (bs : List Byte) :
    (s.hostStore b a bs).rows = s.rows := rfl
@[simp] theorem State.hostStore_culv (s : State) (b : Bool) (a : Nat) (bs : List Byte) :
    (s.hostStore b a bs).culv = s.culv := rfl
@[simp] theorem State.hostStore_msds (s : State) (b : Bool) (a : Nat) (bs : List Byte) :
    (s.hostStore b a bs).msds = s.msds := rfl
@[simp] theorem State.hostStore_hbm (s : State) (b : Bool) (a : Nat) (bs : List Byte) :
    (s.hostStore b a bs).hbm = s.hbm := rfl
@[simp] theorem State.hostStore_tags (s : State) (b : Bool) (a : Nat) (bs : List Byte) :
    (s.hostStore b a bs).tags = s.tags := rfl
@[simp] theorem State.hostStore_hbmErr (s : State) (b : Bool) (a : Nat) (bs : List Byte) :
    (s.hostStore b a bs).hbmErr = s.hbmErr := rfl
@[simp] theorem State.hostStore_given (s : State) (b : Bool) (a : Nat) (bs : List Byte) :
    (s.hostStore b a bs).given = s.given := rfl
@[simp] theorem State.hostStore_hardRows (s : State) (b : Bool) (a : Nat) (bs : List Byte) :
    (s.hostStore b a bs).hardRows = s.hardRows := rfl
@[simp] theorem State.hostStore_ports (s : State) (b : Bool) (a : Nat) (bs : List Byte) :
    (s.hostStore b a bs).ports = s.ports := rfl
@[simp] theorem State.hostStore_ring (s : State) (b : Bool) (a : Nat) (bs : List Byte) :
    (s.hostStore b a bs).ring = s.ring := rfl
@[simp] theorem State.hostStore_shadows (s : State) (b : Bool) (a : Nat) (bs : List Byte) :
    (s.hostStore b a bs).shadows = s.shadows := rfl
@[simp] theorem State.hostStore_shadowShown (s : State) (b : Bool) (a : Nat) (bs : List Byte) :
    (s.hostStore b a bs).shadowShown = s.shadowShown := rfl
@[simp] theorem State.hostStore_linkIn (s : State) (b : Bool) (a : Nat) (bs : List Byte) :
    (s.hostStore b a bs).linkIn = s.linkIn := rfl
@[simp] theorem State.hostStore_linkCol (s : State) (b : Bool) (a : Nat) (bs : List Byte) :
    (s.hostStore b a bs).linkCol = s.linkCol := rfl
@[simp] theorem State.hostStore_groups (s : State) (b : Bool) (a : Nat) (bs : List Byte) :
    (s.hostStore b a bs).groups = s.groups := rfl
@[simp] theorem State.hostStore_parts (s : State) (b : Bool) (a : Nat) (bs : List Byte) :
    (s.hostStore b a bs).parts = s.parts := rfl
@[simp] theorem State.hostStore_hosts (s : State) (b : Bool) (a : Nat) (bs : List Byte) :
    (s.hostStore b a bs).hosts = s.hosts := rfl
@[simp] theorem State.hostStore_waiters (s : State) (b : Bool) (a : Nat) (bs : List Byte) :
    (s.hostStore b a bs).waiters = s.waiters := rfl
@[simp] theorem State.hostStore_mgmtStarted (s : State) (b : Bool) (a : Nat) (bs : List Byte) :
    (s.hostStore b a bs).mgmtStarted = s.mgmtStarted := rfl
@[simp] theorem State.hostStore_mgmtOut (s : State) (b : Bool) (a : Nat) (bs : List Byte) :
    (s.hostStore b a bs).mgmtOut = s.mgmtOut := rfl
@[simp] theorem State.hostStore_fetched (s : State) (b : Bool) (a : Nat) (bs : List Byte) :
    (s.hostStore b a bs).fetched = s.fetched := rfl
@[simp] theorem State.hostStore_resets (s : State) (b : Bool) (a : Nat) (bs : List Byte) :
    (s.hostStore b a bs).resets = s.resets := rfl
@[simp] theorem State.hostStore_ctlOut (s : State) (b : Bool) (a : Nat) (bs : List Byte) :
    (s.hostStore b a bs).ctlOut = s.ctlOut := rfl
@[simp] theorem State.hostStore_ctlReplies (s : State) (b : Bool) (a : Nat) (bs : List Byte) :
    (s.hostStore b a bs).ctlReplies = s.ctlReplies := rfl
@[simp] theorem State.hostStore_acks (s : State) (b : Bool) (a : Nat) (bs : List Byte) :
    (s.hostStore b a bs).acks = s.acks := rfl
@[simp] theorem State.hostStore_reports (s : State) (b : Bool) (a : Nat) (bs : List Byte) :
    (s.hostStore b a bs).reports = s.reports := rfl
@[simp] theorem State.hostStore_faults (s : State) (b : Bool) (a : Nat) (bs : List Byte) :
    (s.hostStore b a bs).faults = s.faults := rfl
@[simp] theorem State.hostStore_recorder (s : State) (b : Bool) (a : Nat) (bs : List Byte) :
    (s.hostStore b a bs).recorder = s.recorder := rfl
@[simp] theorem State.hostStore_flash (s : State) (b : Bool) (a : Nat) (bs : List Byte) :
    (s.hostStore b a bs).flash = s.flash := rfl
@[simp] theorem State.hostStore_sec (s : State) (b : Bool) (a : Nat) (bs : List Byte) :
    (s.hostStore b a bs).sec = s.sec := rfl
@[simp] theorem State.hostStore_life (s : State) (b : Bool) (a : Nat) (bs : List Byte) :
    (s.hostStore b a bs).life = s.life := rfl
@[simp] theorem State.hostStore_panel (s : State) (b : Bool) (a : Nat) (bs : List Byte) :
    (s.hostStore b a bs).panel = s.panel := rfl

/-! ### `State.report` -/

@[simp] theorem State.report_pending (s : State) (r : Report) : (s.report r).pending = s.pending := rfl
@[simp] theorem State.report_free (s : State) (r : Report) : (s.report r).free = s.free + 1 := rfl
@[simp] theorem State.report_mem (s : State) (r : Report) : (s.report r).mem = s.mem := rfl
@[simp] theorem State.report_hostMem (s : State) (r : Report) : (s.report r).hostMem = s.hostMem := rfl
@[simp] theorem State.report_cores (s : State) (r : Report) : (s.report r).cores = s.cores := rfl
@[simp] theorem State.report_routers (s : State) (r : Report) : (s.report r).routers = s.routers := rfl
@[simp] theorem State.report_dies (s : State) (r : Report) : (s.report r).dies = s.dies := rfl
@[simp] theorem State.report_regions (s : State) (r : Report) : (s.report r).regions = s.regions := rfl
@[simp] theorem State.report_edges (s : State) (r : Report) : (s.report r).edges = s.edges := rfl
@[simp] theorem State.report_rows (s : State) (r : Report) : (s.report r).rows = s.rows := rfl
@[simp] theorem State.report_culv (s : State) (r : Report) : (s.report r).culv = s.culv := rfl
@[simp] theorem State.report_msds (s : State) (r : Report) : (s.report r).msds = s.msds := rfl
@[simp] theorem State.report_hbm (s : State) (r : Report) : (s.report r).hbm = s.hbm := rfl
@[simp] theorem State.report_tags (s : State) (r : Report) : (s.report r).tags = s.tags := rfl
@[simp] theorem State.report_hbmErr (s : State) (r : Report) : (s.report r).hbmErr = s.hbmErr := rfl
@[simp] theorem State.report_given (s : State) (r : Report) : (s.report r).given = s.given := rfl
@[simp] theorem State.report_hardRows (s : State) (r : Report) : (s.report r).hardRows = s.hardRows := rfl
@[simp] theorem State.report_ports (s : State) (r : Report) : (s.report r).ports = s.ports := rfl
@[simp] theorem State.report_ring (s : State) (r : Report) : (s.report r).ring = s.ring := rfl
@[simp] theorem State.report_shadows (s : State) (r : Report) : (s.report r).shadows = s.shadows := rfl
@[simp] theorem State.report_shadowShown (s : State) (r : Report) : (s.report r).shadowShown = s.shadowShown := rfl
@[simp] theorem State.report_linkIn (s : State) (r : Report) : (s.report r).linkIn = s.linkIn := rfl
@[simp] theorem State.report_linkCol (s : State) (r : Report) : (s.report r).linkCol = s.linkCol := rfl
@[simp] theorem State.report_groups (s : State) (r : Report) : (s.report r).groups = s.groups := rfl
@[simp] theorem State.report_parts (s : State) (r : Report) : (s.report r).parts = s.parts := rfl
@[simp] theorem State.report_hosts (s : State) (r : Report) : (s.report r).hosts = s.hosts := rfl
@[simp] theorem State.report_waiters (s : State) (r : Report) : (s.report r).waiters = s.waiters := rfl
@[simp] theorem State.report_mgmtStarted (s : State) (r : Report) : (s.report r).mgmtStarted = s.mgmtStarted := rfl
@[simp] theorem State.report_mgmtOut (s : State) (r : Report) : (s.report r).mgmtOut = s.mgmtOut := rfl
@[simp] theorem State.report_fetched (s : State) (r : Report) : (s.report r).fetched = s.fetched := rfl
@[simp] theorem State.report_resets (s : State) (r : Report) : (s.report r).resets = s.resets := rfl
@[simp] theorem State.report_ctlOut (s : State) (r : Report) : (s.report r).ctlOut = s.ctlOut := rfl
@[simp] theorem State.report_ctlReplies (s : State) (r : Report) : (s.report r).ctlReplies = s.ctlReplies := rfl
@[simp] theorem State.report_acks (s : State) (r : Report) : (s.report r).acks = s.acks := rfl
@[simp] theorem State.report_reports (s : State) (r : Report) :
    (s.report r).reports = s.reports ++ [{ r with localCount := Config.localCount s.free }] := rfl
@[simp] theorem State.report_faults (s : State) (r : Report) : (s.report r).faults = s.faults := rfl
@[simp] theorem State.report_recorder (s : State) (r : Report) : (s.report r).recorder = s.recorder := rfl
@[simp] theorem State.report_flash (s : State) (r : Report) : (s.report r).flash = s.flash := rfl
@[simp] theorem State.report_sec (s : State) (r : Report) : (s.report r).sec = s.sec := rfl
@[simp] theorem State.report_life (s : State) (r : Report) : (s.report r).life = s.life := rfl
@[simp] theorem State.report_panel (s : State) (r : Report) : (s.report r).panel = s.panel := rfl

/-! ### `State.after` -/

@[simp] theorem State.after_pending (s : State) (c : CoreRef) (k : Core) (pc : BitVec 19) :
    (s.after c k pc).pending = s.pending := rfl
@[simp] theorem State.after_free (s : State) (c : CoreRef) (k : Core) (pc : BitVec 19) :
    (s.after c k pc).free = s.free := rfl
@[simp] theorem State.after_mem (s : State) (c : CoreRef) (k : Core) (pc : BitVec 19) : (s.after c k pc).mem = s.mem :=
  rfl
@[simp] theorem State.after_hostMem (s : State) (c : CoreRef) (k : Core) (pc : BitVec 19) :
    (s.after c k pc).hostMem = s.hostMem := rfl
@[simp] theorem State.after_cores (s : State) (c : CoreRef) (k : Core) (pc : BitVec 19) :
    (s.after c k pc).cores = tset {} s.cores (coreKey c) { k.issued with pc := pc } := rfl
@[simp] theorem State.after_routers (s : State) (c : CoreRef) (k : Core) (pc : BitVec 19) :
    (s.after c k pc).routers = s.routers := rfl
@[simp] theorem State.after_dies (s : State) (c : CoreRef) (k : Core) (pc : BitVec 19) :
    (s.after c k pc).dies = s.dies := rfl
@[simp] theorem State.after_regions (s : State) (c : CoreRef) (k : Core) (pc : BitVec 19) :
    (s.after c k pc).regions = s.regions := rfl
@[simp] theorem State.after_edges (s : State) (c : CoreRef) (k : Core) (pc : BitVec 19) :
    (s.after c k pc).edges = s.edges := rfl
@[simp] theorem State.after_rows (s : State) (c : CoreRef) (k : Core) (pc : BitVec 19) :
    (s.after c k pc).rows = s.rows := rfl
@[simp] theorem State.after_culv (s : State) (c : CoreRef) (k : Core) (pc : BitVec 19) :
    (s.after c k pc).culv = s.culv := rfl
@[simp] theorem State.after_msds (s : State) (c : CoreRef) (k : Core) (pc : BitVec 19) :
    (s.after c k pc).msds = s.msds := rfl
@[simp] theorem State.after_hbm (s : State) (c : CoreRef) (k : Core) (pc : BitVec 19) : (s.after c k pc).hbm = s.hbm :=
  rfl
@[simp] theorem State.after_tags (s : State) (c : CoreRef) (k : Core) (pc : BitVec 19) :
    (s.after c k pc).tags = s.tags := rfl
@[simp] theorem State.after_hbmErr (s : State) (c : CoreRef) (k : Core) (pc : BitVec 19) :
    (s.after c k pc).hbmErr = s.hbmErr := rfl
@[simp] theorem State.after_given (s : State) (c : CoreRef) (k : Core) (pc : BitVec 19) :
    (s.after c k pc).given = s.given := rfl
@[simp] theorem State.after_hardRows (s : State) (c : CoreRef) (k : Core) (pc : BitVec 19) :
    (s.after c k pc).hardRows = s.hardRows := rfl
@[simp] theorem State.after_ports (s : State) (c : CoreRef) (k : Core) (pc : BitVec 19) :
    (s.after c k pc).ports = s.ports := rfl
@[simp] theorem State.after_ring (s : State) (c : CoreRef) (k : Core) (pc : BitVec 19) :
    (s.after c k pc).ring = s.ring := rfl
@[simp] theorem State.after_shadows (s : State) (c : CoreRef) (k : Core) (pc : BitVec 19) :
    (s.after c k pc).shadows = s.shadows := rfl
@[simp] theorem State.after_shadowShown (s : State) (c : CoreRef) (k : Core) (pc : BitVec 19) :
    (s.after c k pc).shadowShown = s.shadowShown := rfl
@[simp] theorem State.after_linkIn (s : State) (c : CoreRef) (k : Core) (pc : BitVec 19) :
    (s.after c k pc).linkIn = s.linkIn := rfl
@[simp] theorem State.after_linkCol (s : State) (c : CoreRef) (k : Core) (pc : BitVec 19) :
    (s.after c k pc).linkCol = s.linkCol := rfl
@[simp] theorem State.after_groups (s : State) (c : CoreRef) (k : Core) (pc : BitVec 19) :
    (s.after c k pc).groups = s.groups := rfl
@[simp] theorem State.after_parts (s : State) (c : CoreRef) (k : Core) (pc : BitVec 19) :
    (s.after c k pc).parts = s.parts := rfl
@[simp] theorem State.after_hosts (s : State) (c : CoreRef) (k : Core) (pc : BitVec 19) :
    (s.after c k pc).hosts = s.hosts := rfl
@[simp] theorem State.after_waiters (s : State) (c : CoreRef) (k : Core) (pc : BitVec 19) :
    (s.after c k pc).waiters = s.waiters := rfl
@[simp] theorem State.after_mgmtStarted (s : State) (c : CoreRef) (k : Core) (pc : BitVec 19) :
    (s.after c k pc).mgmtStarted = s.mgmtStarted := rfl
@[simp] theorem State.after_mgmtOut (s : State) (c : CoreRef) (k : Core) (pc : BitVec 19) :
    (s.after c k pc).mgmtOut = s.mgmtOut := rfl
@[simp] theorem State.after_fetched (s : State) (c : CoreRef) (k : Core) (pc : BitVec 19) :
    (s.after c k pc).fetched = s.fetched := rfl
@[simp] theorem State.after_resets (s : State) (c : CoreRef) (k : Core) (pc : BitVec 19) :
    (s.after c k pc).resets = s.resets := rfl
@[simp] theorem State.after_ctlOut (s : State) (c : CoreRef) (k : Core) (pc : BitVec 19) :
    (s.after c k pc).ctlOut = s.ctlOut := rfl
@[simp] theorem State.after_ctlReplies (s : State) (c : CoreRef) (k : Core) (pc : BitVec 19) :
    (s.after c k pc).ctlReplies = s.ctlReplies := rfl
@[simp] theorem State.after_acks (s : State) (c : CoreRef) (k : Core) (pc : BitVec 19) :
    (s.after c k pc).acks = s.acks := rfl
@[simp] theorem State.after_reports (s : State) (c : CoreRef) (k : Core) (pc : BitVec 19) :
    (s.after c k pc).reports = s.reports := rfl
@[simp] theorem State.after_faults (s : State) (c : CoreRef) (k : Core) (pc : BitVec 19) :
    (s.after c k pc).faults = s.faults := rfl
@[simp] theorem State.after_recorder (s : State) (c : CoreRef) (k : Core) (pc : BitVec 19) :
    (s.after c k pc).recorder = s.recorder := rfl
@[simp] theorem State.after_flash (s : State) (c : CoreRef) (k : Core) (pc : BitVec 19) :
    (s.after c k pc).flash = s.flash := rfl
@[simp] theorem State.after_sec (s : State) (c : CoreRef) (k : Core) (pc : BitVec 19) : (s.after c k pc).sec = s.sec :=
  rfl
@[simp] theorem State.after_life (s : State) (c : CoreRef) (k : Core) (pc : BitVec 19) :
    (s.after c k pc).life = s.life := rfl
@[simp] theorem State.after_panel (s : State) (c : CoreRef) (k : Core) (pc : BitVec 19) :
    (s.after c k pc).panel = s.panel := rfl

/-! ### Units read back -/

theorem coreKey_inj {a b : CoreRef} (h : coreKey a = coreKey b) : a = b := by
  cases a with | mk ax ay => cases b with | mk bx by_ =>
  have h1 := ax.isLt
  have h2 := bx.isLt
  simp only [coreKey] at h
  have e1 : ax.toNat = bx.toNat := by omega
  have e2 : ay.toNat = by_.toNat := by omega
  rw [BitVec.eq_of_toNat_eq e1, BitVec.eq_of_toNat_eq e2]

@[simp] theorem State.core_setCore (s : State) (c : CoreRef) (k : Core) : (s.setCore c k).core c = k :=
  tget_tset_same _ _ _ _

/-- Another core is as it was. -/
theorem State.core_setCore_other (s : State) {c e : CoreRef} (k : Core) (h : e ≠ c) : (s.setCore c k).core e = s.core e :=
  tget_tset_other _ _ _ _ _ fun g => h (coreKey_inj g)

@[simp] theorem State.core_after (s : State) (c : CoreRef) (k : Core) (pc : BitVec 19) :
    (s.after c k pc).core c = { k.issued with pc := pc } := tget_tset_same _ _ _ _

/-- Another core is as it was. -/
theorem State.core_after_other (s : State) {c e : CoreRef} (k : Core) (pc : BitVec 19) (h : e ≠ c) :
    (s.after c k pc).core e = s.core e := State.core_setCore_other s _ h

@[simp] theorem State.die_setDie (s : State) (n : Nat) (x : Die) : (s.setDie n x).die n = x :=
  tget_tset_same _ _ _ _

@[simp] theorem State.msd_setMsd (s : State) (n : Nat) (x : Msd) : (s.setMsd n x).msd n = x :=
  tget_tset_same _ _ _ _

@[simp] theorem State.stack_setStack (s : State) (n : Nat) (x : Stack) : (s.setStack n x).stack n = x :=
  tget_tset_same _ _ _ _

@[simp] theorem State.port_setPort (s : State) (n : Nat) (x : Port) : (s.setPort n x).port n = x :=
  tget_tset_same _ _ _ _

@[simp] theorem State.group_setGroup (s : State) (n : Nat) (x : BGroup) : (s.setGroup n x).group n = x :=
  tget_tset_same _ _ _ _

@[simp] theorem State.part_setPart (s : State) (n : Nat) (x : Part) : (s.setPart n x).part n = x :=
  tget_tset_same _ _ _ _

@[simp] theorem State.row_setRow (s : State) (n : Nat) (x : SiteMap) : (s.setRow n x).row n = x :=
  tget_tset_same _ _ _ _

@[simp] theorem State.router_setRouter (s : State) (n : CoreRef) (x : Router) : (s.setRouter n x).router n = x :=
  tget_tset_same _ _ _ _

@[simp] theorem State.host_setHost (s : State) (n : Bool) (x : HostIf) : (s.setHost n x).host n = x :=
  tget_tset_same _ _ _ _

@[simp] theorem State.region_setRegion (s : State) (d n : Nat) (x : Region) : (s.setRegion d n x).region d n = x :=
  tget_tset_same _ _ _ _

@[simp] theorem State.edge_setEdge (s : State) (d n : Nat) (x : Edge) : (s.setEdge d n x).edge d n = x :=
  tget_tset_same _ _ _ _

@[simp] theorem State.culvert_setCulvert (s : State) (d n : Nat) (x : Culv) : (s.setCulvert d n x).culvert d n = x :=
  tget_tset_same _ _ _ _

end Sys2Proof.Machine
end

