-- ==== Sys2Proof/Laws/Core.lean ====
section
/-!
SUPPORT. Every field of a core after every update of one register, and the registers read back.
-/

namespace Sys2Proof.Machine

/-! ### `Core.setG` -/

@[simp] theorem Core.setG_v (k : Core) (r : BitVec 5) (w : Word) : (k.setG r w).v = k.v := by
  unfold Core.setG; split <;> rfl
@[simp] theorem Core.setG_d (k : Core) (r : BitVec 5) (w : Word) : (k.setG r w).d = k.d := by
  unfold Core.setG; split <;> rfl
@[simp] theorem Core.setG_acc (k : Core) (r : BitVec 5) (w : Word) : (k.setG r w).acc = k.acc := by
  unfold Core.setG; split <;> rfl
@[simp] theorem Core.setG_kind (k : Core) (r : BitVec 5) (w : Word) : (k.setG r w).kind = k.kind := by
  unfold Core.setG; split <;> rfl
@[simp] theorem Core.setG_pc (k : Core) (r : BitVec 5) (w : Word) : (k.setG r w).pc = k.pc := by
  unfold Core.setG; split <;> rfl
@[simp] theorem Core.setG_ccnt (k : Core) (r : BitVec 5) (w : Word) : (k.setG r w).ccnt = k.ccnt := by
  unfold Core.setG; split <;> rfl
@[simp] theorem Core.setG_sync (k : Core) (r : BitVec 5) (w : Word) : (k.setG r w).sync = k.sync := by
  unfold Core.setG; split <;> rfl
@[simp] theorem Core.setG_mode (k : Core) (r : BitVec 5) (w : Word) : (k.setG r w).mode = k.mode := by
  unfold Core.setG; split <;> rfl
@[simp] theorem Core.setG_wait (k : Core) (r : BitVec 5) (w : Word) : (k.setG r w).wait = k.wait := by
  unfold Core.setG; split <;> rfl
@[simp] theorem Core.setG_halting (k : Core) (r : BitVec 5) (w : Word) : (k.setG r w).halting = k.halting := by
  unfold Core.setG; split <;> rfl
@[simp] theorem Core.setG_exitCode (k : Core) (r : BitVec 5) (w : Word) : (k.setG r w).exitCode = k.exitCode := by
  unfold Core.setG; split <;> rfl
@[simp] theorem Core.setG_exitValid (k : Core) (r : BitVec 5) (w : Word) : (k.setG r w).exitValid = k.exitValid := by
  unfold Core.setG; split <;> rfl
@[simp] theorem Core.setG_cycle (k : Core) (r : BitVec 5) (w : Word) : (k.setG r w).cycle = k.cycle := by
  unfold Core.setG; split <;> rfl
@[simp] theorem Core.setG_subn (k : Core) (r : BitVec 5) (w : Word) : (k.setG r w).subn = k.subn := by
  unfold Core.setG; split <;> rfl
@[simp] theorem Core.setG_sat (k : Core) (r : BitVec 5) (w : Word) : (k.setG r w).sat = k.sat := by
  unfold Core.setG; split <;> rfl
@[simp] theorem Core.setG_fpflags (k : Core) (r : BitVec 5) (w : Word) : (k.setG r w).fpflags = k.fpflags := by
  unfold Core.setG; split <;> rfl
@[simp] theorem Core.setG_partReg (k : Core) (r : BitVec 5) (w : Word) : (k.setG r w).partReg = k.partReg := by
  unfold Core.setG; split <;> rfl
@[simp] theorem Core.setG_sealed (k : Core) (r : BitVec 5) (w : Word) : (k.setG r w).sealed = k.sealed := by
  unfold Core.setG; split <;> rfl
@[simp] theorem Core.setG_detreq (k : Core) (r : BitVec 5) (w : Word) : (k.setG r w).detreq = k.detreq := by
  unfold Core.setG; split <;> rfl
@[simp] theorem Core.setG_trapCause (k : Core) (r : BitVec 5) (w : Word) : (k.setG r w).trapCause = k.trapCause := by
  unfold Core.setG; split <;> rfl
@[simp] theorem Core.setG_trapPc (k : Core) (r : BitVec 5) (w : Word) : (k.setG r w).trapPc = k.trapPc := by
  unfold Core.setG; split <;> rfl
@[simp] theorem Core.setG_trapVal (k : Core) (r : BitVec 5) (w : Word) : (k.setG r w).trapVal = k.trapVal := by
  unfold Core.setG; split <;> rfl
@[simp] theorem Core.setG_rtScratch (k : Core) (r : BitVec 5) (w : Word) : (k.setG r w).rtScratch = k.rtScratch := by
  unfold Core.setG; split <;> rfl
@[simp] theorem Core.setG_rtPc (k : Core) (r : BitVec 5) (w : Word) : (k.setG r w).rtPc = k.rtPc := by
  unfold Core.setG; split <;> rfl
@[simp] theorem Core.setG_service (k : Core) (r : BitVec 5) (w : Word) : (k.setG r w).service = k.service := by
  unfold Core.setG; split <;> rfl
@[simp] theorem Core.setG_debugStop (k : Core) (r : BitVec 5) (w : Word) : (k.setG r w).debugStop = k.debugStop := by
  unfold Core.setG; split <;> rfl
@[simp] theorem Core.setG_tq (k : Core) (r : BitVec 5) (w : Word) : (k.setG r w).tq = k.tq := by
  unfold Core.setG; split <;> rfl
@[simp] theorem Core.setG_nq (k : Core) (r : BitVec 5) (w : Word) : (k.setG r w).nq = k.nq := by
  unfold Core.setG; split <;> rfl
@[simp] theorem Core.setG_cq (k : Core) (r : BitVec 5) (w : Word) : (k.setG r w).cq = k.cq := by
  unfold Core.setG; split <;> rfl
@[simp] theorem Core.setG_slots (k : Core) (r : BitVec 5) (w : Word) : (k.setG r w).slots = k.slots := by
  unfold Core.setG; split <;> rfl
@[simp] theorem Core.setG_flowCount (k : Core) (r : BitVec 5) (w : Word) : (k.setG r w).flowCount = k.flowCount := by
  unfold Core.setG; split <;> rfl
@[simp] theorem Core.setG_reads (k : Core) (r : BitVec 5) (w : Word) : (k.setG r w).reads = k.reads := by
  unfold Core.setG; split <;> rfl
@[simp] theorem Core.setG_copies (k : Core) (r : BitVec 5) (w : Word) : (k.setG r w).copies = k.copies := by
  unfold Core.setG; split <;> rfl
@[simp] theorem Core.setG_ibuf (k : Core) (r : BitVec 5) (w : Word) : (k.setG r w).ibuf = k.ibuf := by
  unfold Core.setG; split <;> rfl
@[simp] theorem Core.setG_stores (k : Core) (r : BitVec 5) (w : Word) : (k.setG r w).stores = k.stores := by
  unfold Core.setG; split <;> rfl
@[simp] theorem Core.setG_landing (k : Core) (r : BitVec 5) (w : Word) : (k.setG r w).landing = k.landing := by
  unfold Core.setG; split <;> rfl
@[simp] theorem Core.setG_notice (k : Core) (r : BitVec 5) (w : Word) : (k.setG r w).notice = k.notice := by
  unfold Core.setG; split <;> rfl
@[simp] theorem Core.setG_powered (k : Core) (r : BitVec 5) (w : Word) : (k.setG r w).powered = k.powered := by
  unfold Core.setG; split <;> rfl
@[simp] theorem Core.setG_zeroising (k : Core) (r : BitVec 5) (w : Word) : (k.setG r w).zeroising = k.zeroising := by
  unfold Core.setG; split <;> rfl
@[simp] theorem Core.setG_zeroWait (k : Core) (r : BitVec 5) (w : Word) : (k.setG r w).zeroWait = k.zeroWait := by
  unfold Core.setG; split <;> rfl
@[simp] theorem Core.setG_ceCount (k : Core) (r : BitVec 5) (w : Word) : (k.setG r w).ceCount = k.ceCount := by
  unfold Core.setG; split <;> rfl
@[simp] theorem Core.setG_ue (k : Core) (r : BitVec 5) (w : Word) : (k.setG r w).ue = k.ue := by
  unfold Core.setG; split <;> rfl
@[simp] theorem Core.setG_banks (k : Core) (r : BitVec 5) (w : Word) : (k.setG r w).banks = k.banks := by
  unfold Core.setG; split <;> rfl
@[simp] theorem Core.setG_ecc (k : Core) (r : BitVec 5) (w : Word) : (k.setG r w).ecc = k.ecc := by
  unfold Core.setG; split <;> rfl
@[simp] theorem Core.setG_inject (k : Core) (r : BitVec 5) (w : Word) : (k.setG r w).inject = k.inject := by
  unfold Core.setG; split <;> rfl
@[simp] theorem Core.setG_requests (k : Core) (r : BitVec 5) (w : Word) : (k.setG r w).requests = k.requests := by
  unfold Core.setG; split <;> rfl
@[simp] theorem Core.setG_arrived (k : Core) (r : BitVec 5) (w : Word) : (k.setG r w).arrived = k.arrived := by
  unfold Core.setG; split <;> rfl
@[simp] theorem Core.setG_ep (k : Core) (r : BitVec 5) (w : Word) : (k.setG r w).ep = k.ep := by
  unfold Core.setG; split <;> rfl
@[simp] theorem Core.setG_linkEps (k : Core) (r : BitVec 5) (w : Word) : (k.setG r w).linkEps = k.linkEps := by
  unfold Core.setG; split <;> rfl
@[simp] theorem Core.setG_flumeIn (k : Core) (r : BitVec 5) (w : Word) : (k.setG r w).flumeIn = k.flumeIn := by
  unfold Core.setG; split <;> rfl
@[simp] theorem Core.setG_contrib (k : Core) (r : BitVec 5) (w : Word) : (k.setG r w).contrib = k.contrib := by
  unfold Core.setG; split <;> rfl
@[simp] theorem Core.setG_rowIn (k : Core) (r : BitVec 5) (w : Word) : (k.setG r w).rowIn = k.rowIn := by
  unfold Core.setG; split <;> rfl
@[simp] theorem Core.setG_colIn (k : Core) (r : BitVec 5) (w : Word) : (k.setG r w).colIn = k.colIn := by
  unfold Core.setG; split <;> rfl
@[simp] theorem Core.setG_flumeOut (k : Core) (r : BitVec 5) (w : Word) : (k.setG r w).flumeOut = k.flumeOut := by
  unfold Core.setG; split <;> rfl
@[simp] theorem Core.setG_flumeSink (k : Core) (r : BitVec 5) (w : Word) : (k.setG r w).flumeSink = k.flumeSink := by
  unfold Core.setG; split <;> rfl
@[simp] theorem Core.setG_progress (k : Core) (r : BitVec 5) (w : Word) : (k.setG r w).progress = k.progress := by
  unfold Core.setG; split <;> rfl
@[simp] theorem Core.setG_still (k : Core) (r : BitVec 5) (w : Word) : (k.setG r w).still = k.still := by
  unfold Core.setG; split <;> rfl
@[simp] theorem Core.setG_lastProgress (k : Core) (r : BitVec 5) (w : Word) : (k.setG r w).lastProgress = k.lastProgress := by
  unfold Core.setG; split <;> rfl
@[simp] theorem Core.setG_placed (k : Core) (r : BitVec 5) (w : Word) : (k.setG r w).placed = k.placed := by
  unfold Core.setG; split <;> rfl
@[simp] theorem Core.setG_testing (k : Core) (r : BitVec 5) (w : Word) : (k.setG r w).testing = k.testing := by
  unfold Core.setG; split <;> rfl

/-! ### `Core.setV` -/

@[simp] theorem Core.setV_g (k : Core) (r l : Nat) (w : Word) : (k.setV r l w).g = k.g := rfl
@[simp] theorem Core.setV_d (k : Core) (r l : Nat) (w : Word) : (k.setV r l w).d = k.d := rfl
@[simp] theorem Core.setV_acc (k : Core) (r l : Nat) (w : Word) : (k.setV r l w).acc = k.acc := rfl
@[simp] theorem Core.setV_kind (k : Core) (r l : Nat) (w : Word) : (k.setV r l w).kind = k.kind := rfl
@[simp] theorem Core.setV_pc (k : Core) (r l : Nat) (w : Word) : (k.setV r l w).pc = k.pc := rfl
@[simp] theorem Core.setV_ccnt (k : Core) (r l : Nat) (w : Word) : (k.setV r l w).ccnt = k.ccnt := rfl
@[simp] theorem Core.setV_sync (k : Core) (r l : Nat) (w : Word) : (k.setV r l w).sync = k.sync := rfl
@[simp] theorem Core.setV_mode (k : Core) (r l : Nat) (w : Word) : (k.setV r l w).mode = k.mode := rfl
@[simp] theorem Core.setV_wait (k : Core) (r l : Nat) (w : Word) : (k.setV r l w).wait = k.wait := rfl
@[simp] theorem Core.setV_halting (k : Core) (r l : Nat) (w : Word) : (k.setV r l w).halting = k.halting := rfl
@[simp] theorem Core.setV_exitCode (k : Core) (r l : Nat) (w : Word) : (k.setV r l w).exitCode = k.exitCode := rfl
@[simp] theorem Core.setV_exitValid (k : Core) (r l : Nat) (w : Word) : (k.setV r l w).exitValid = k.exitValid := rfl
@[simp] theorem Core.setV_cycle (k : Core) (r l : Nat) (w : Word) : (k.setV r l w).cycle = k.cycle := rfl
@[simp] theorem Core.setV_subn (k : Core) (r l : Nat) (w : Word) : (k.setV r l w).subn = k.subn := rfl
@[simp] theorem Core.setV_sat (k : Core) (r l : Nat) (w : Word) : (k.setV r l w).sat = k.sat := rfl
@[simp] theorem Core.setV_fpflags (k : Core) (r l : Nat) (w : Word) : (k.setV r l w).fpflags = k.fpflags := rfl
@[simp] theorem Core.setV_partReg (k : Core) (r l : Nat) (w : Word) : (k.setV r l w).partReg = k.partReg := rfl
@[simp] theorem Core.setV_sealed (k : Core) (r l : Nat) (w : Word) : (k.setV r l w).sealed = k.sealed := rfl
@[simp] theorem Core.setV_detreq (k : Core) (r l : Nat) (w : Word) : (k.setV r l w).detreq = k.detreq := rfl
@[simp] theorem Core.setV_trapCause (k : Core) (r l : Nat) (w : Word) : (k.setV r l w).trapCause = k.trapCause := rfl
@[simp] theorem Core.setV_trapPc (k : Core) (r l : Nat) (w : Word) : (k.setV r l w).trapPc = k.trapPc := rfl
@[simp] theorem Core.setV_trapVal (k : Core) (r l : Nat) (w : Word) : (k.setV r l w).trapVal = k.trapVal := rfl
@[simp] theorem Core.setV_rtScratch (k : Core) (r l : Nat) (w : Word) : (k.setV r l w).rtScratch = k.rtScratch := rfl
@[simp] theorem Core.setV_rtPc (k : Core) (r l : Nat) (w : Word) : (k.setV r l w).rtPc = k.rtPc := rfl
@[simp] theorem Core.setV_service (k : Core) (r l : Nat) (w : Word) : (k.setV r l w).service = k.service := rfl
@[simp] theorem Core.setV_debugStop (k : Core) (r l : Nat) (w : Word) : (k.setV r l w).debugStop = k.debugStop := rfl
@[simp] theorem Core.setV_tq (k : Core) (r l : Nat) (w : Word) : (k.setV r l w).tq = k.tq := rfl
@[simp] theorem Core.setV_nq (k : Core) (r l : Nat) (w : Word) : (k.setV r l w).nq = k.nq := rfl
@[simp] theorem Core.setV_cq (k : Core) (r l : Nat) (w : Word) : (k.setV r l w).cq = k.cq := rfl
@[simp] theorem Core.setV_slots (k : Core) (r l : Nat) (w : Word) : (k.setV r l w).slots = k.slots := rfl
@[simp] theorem Core.setV_flowCount (k : Core) (r l : Nat) (w : Word) : (k.setV r l w).flowCount = k.flowCount := rfl
@[simp] theorem Core.setV_reads (k : Core) (r l : Nat) (w : Word) : (k.setV r l w).reads = k.reads := rfl
@[simp] theorem Core.setV_copies (k : Core) (r l : Nat) (w : Word) : (k.setV r l w).copies = k.copies := rfl
@[simp] theorem Core.setV_ibuf (k : Core) (r l : Nat) (w : Word) : (k.setV r l w).ibuf = k.ibuf := rfl
@[simp] theorem Core.setV_stores (k : Core) (r l : Nat) (w : Word) : (k.setV r l w).stores = k.stores := rfl
@[simp] theorem Core.setV_landing (k : Core) (r l : Nat) (w : Word) : (k.setV r l w).landing = k.landing := rfl
@[simp] theorem Core.setV_notice (k : Core) (r l : Nat) (w : Word) : (k.setV r l w).notice = k.notice := rfl
@[simp] theorem Core.setV_powered (k : Core) (r l : Nat) (w : Word) : (k.setV r l w).powered = k.powered := rfl
@[simp] theorem Core.setV_zeroising (k : Core) (r l : Nat) (w : Word) : (k.setV r l w).zeroising = k.zeroising := rfl
@[simp] theorem Core.setV_zeroWait (k : Core) (r l : Nat) (w : Word) : (k.setV r l w).zeroWait = k.zeroWait := rfl
@[simp] theorem Core.setV_ceCount (k : Core) (r l : Nat) (w : Word) : (k.setV r l w).ceCount = k.ceCount := rfl
@[simp] theorem Core.setV_ue (k : Core) (r l : Nat) (w : Word) : (k.setV r l w).ue = k.ue := rfl
@[simp] theorem Core.setV_banks (k : Core) (r l : Nat) (w : Word) : (k.setV r l w).banks = k.banks := rfl
@[simp] theorem Core.setV_ecc (k : Core) (r l : Nat) (w : Word) : (k.setV r l w).ecc = k.ecc := rfl
@[simp] theorem Core.setV_inject (k : Core) (r l : Nat) (w : Word) : (k.setV r l w).inject = k.inject := rfl
@[simp] theorem Core.setV_requests (k : Core) (r l : Nat) (w : Word) : (k.setV r l w).requests = k.requests := rfl
@[simp] theorem Core.setV_arrived (k : Core) (r l : Nat) (w : Word) : (k.setV r l w).arrived = k.arrived := rfl
@[simp] theorem Core.setV_ep (k : Core) (r l : Nat) (w : Word) : (k.setV r l w).ep = k.ep := rfl
@[simp] theorem Core.setV_linkEps (k : Core) (r l : Nat) (w : Word) : (k.setV r l w).linkEps = k.linkEps := rfl
@[simp] theorem Core.setV_flumeIn (k : Core) (r l : Nat) (w : Word) : (k.setV r l w).flumeIn = k.flumeIn := rfl
@[simp] theorem Core.setV_contrib (k : Core) (r l : Nat) (w : Word) : (k.setV r l w).contrib = k.contrib := rfl
@[simp] theorem Core.setV_rowIn (k : Core) (r l : Nat) (w : Word) : (k.setV r l w).rowIn = k.rowIn := rfl
@[simp] theorem Core.setV_colIn (k : Core) (r l : Nat) (w : Word) : (k.setV r l w).colIn = k.colIn := rfl
@[simp] theorem Core.setV_flumeOut (k : Core) (r l : Nat) (w : Word) : (k.setV r l w).flumeOut = k.flumeOut := rfl
@[simp] theorem Core.setV_flumeSink (k : Core) (r l : Nat) (w : Word) : (k.setV r l w).flumeSink = k.flumeSink := rfl
@[simp] theorem Core.setV_progress (k : Core) (r l : Nat) (w : Word) : (k.setV r l w).progress = k.progress := rfl
@[simp] theorem Core.setV_still (k : Core) (r l : Nat) (w : Word) : (k.setV r l w).still = k.still := rfl
@[simp] theorem Core.setV_lastProgress (k : Core) (r l : Nat) (w : Word) : (k.setV r l w).lastProgress = k.lastProgress := rfl
@[simp] theorem Core.setV_placed (k : Core) (r l : Nat) (w : Word) : (k.setV r l w).placed = k.placed := rfl
@[simp] theorem Core.setV_testing (k : Core) (r l : Nat) (w : Word) : (k.setV r l w).testing = k.testing := rfl

/-! ### `Core.setD` -/

@[simp] theorem Core.setD_g (k : Core) (r : Nat) (w : BitVec 128) : (k.setD r w).g = k.g := rfl
@[simp] theorem Core.setD_v (k : Core) (r : Nat) (w : BitVec 128) : (k.setD r w).v = k.v := rfl
@[simp] theorem Core.setD_acc (k : Core) (r : Nat) (w : BitVec 128) : (k.setD r w).acc = k.acc := rfl
@[simp] theorem Core.setD_kind (k : Core) (r : Nat) (w : BitVec 128) : (k.setD r w).kind = k.kind := rfl
@[simp] theorem Core.setD_pc (k : Core) (r : Nat) (w : BitVec 128) : (k.setD r w).pc = k.pc := rfl
@[simp] theorem Core.setD_ccnt (k : Core) (r : Nat) (w : BitVec 128) : (k.setD r w).ccnt = k.ccnt := rfl
@[simp] theorem Core.setD_sync (k : Core) (r : Nat) (w : BitVec 128) : (k.setD r w).sync = k.sync := rfl
@[simp] theorem Core.setD_mode (k : Core) (r : Nat) (w : BitVec 128) : (k.setD r w).mode = k.mode := rfl
@[simp] theorem Core.setD_wait (k : Core) (r : Nat) (w : BitVec 128) : (k.setD r w).wait = k.wait := rfl
@[simp] theorem Core.setD_halting (k : Core) (r : Nat) (w : BitVec 128) : (k.setD r w).halting = k.halting := rfl
@[simp] theorem Core.setD_exitCode (k : Core) (r : Nat) (w : BitVec 128) : (k.setD r w).exitCode = k.exitCode := rfl
@[simp] theorem Core.setD_exitValid (k : Core) (r : Nat) (w : BitVec 128) : (k.setD r w).exitValid = k.exitValid := rfl
@[simp] theorem Core.setD_cycle (k : Core) (r : Nat) (w : BitVec 128) : (k.setD r w).cycle = k.cycle := rfl
@[simp] theorem Core.setD_subn (k : Core) (r : Nat) (w : BitVec 128) : (k.setD r w).subn = k.subn := rfl
@[simp] theorem Core.setD_sat (k : Core) (r : Nat) (w : BitVec 128) : (k.setD r w).sat = k.sat := rfl
@[simp] theorem Core.setD_fpflags (k : Core) (r : Nat) (w : BitVec 128) : (k.setD r w).fpflags = k.fpflags := rfl
@[simp] theorem Core.setD_partReg (k : Core) (r : Nat) (w : BitVec 128) : (k.setD r w).partReg = k.partReg := rfl
@[simp] theorem Core.setD_sealed (k : Core) (r : Nat) (w : BitVec 128) : (k.setD r w).sealed = k.sealed := rfl
@[simp] theorem Core.setD_detreq (k : Core) (r : Nat) (w : BitVec 128) : (k.setD r w).detreq = k.detreq := rfl
@[simp] theorem Core.setD_trapCause (k : Core) (r : Nat) (w : BitVec 128) : (k.setD r w).trapCause = k.trapCause := rfl
@[simp] theorem Core.setD_trapPc (k : Core) (r : Nat) (w : BitVec 128) : (k.setD r w).trapPc = k.trapPc := rfl
@[simp] theorem Core.setD_trapVal (k : Core) (r : Nat) (w : BitVec 128) : (k.setD r w).trapVal = k.trapVal := rfl
@[simp] theorem Core.setD_rtScratch (k : Core) (r : Nat) (w : BitVec 128) : (k.setD r w).rtScratch = k.rtScratch := rfl
@[simp] theorem Core.setD_rtPc (k : Core) (r : Nat) (w : BitVec 128) : (k.setD r w).rtPc = k.rtPc := rfl
@[simp] theorem Core.setD_service (k : Core) (r : Nat) (w : BitVec 128) : (k.setD r w).service = k.service := rfl
@[simp] theorem Core.setD_debugStop (k : Core) (r : Nat) (w : BitVec 128) : (k.setD r w).debugStop = k.debugStop := rfl
@[simp] theorem Core.setD_tq (k : Core) (r : Nat) (w : BitVec 128) : (k.setD r w).tq = k.tq := rfl
@[simp] theorem Core.setD_nq (k : Core) (r : Nat) (w : BitVec 128) : (k.setD r w).nq = k.nq := rfl
@[simp] theorem Core.setD_cq (k : Core) (r : Nat) (w : BitVec 128) : (k.setD r w).cq = k.cq := rfl
@[simp] theorem Core.setD_slots (k : Core) (r : Nat) (w : BitVec 128) : (k.setD r w).slots = k.slots := rfl
@[simp] theorem Core.setD_flowCount (k : Core) (r : Nat) (w : BitVec 128) : (k.setD r w).flowCount = k.flowCount := rfl
@[simp] theorem Core.setD_reads (k : Core) (r : Nat) (w : BitVec 128) : (k.setD r w).reads = k.reads := rfl
@[simp] theorem Core.setD_copies (k : Core) (r : Nat) (w : BitVec 128) : (k.setD r w).copies = k.copies := rfl
@[simp] theorem Core.setD_ibuf (k : Core) (r : Nat) (w : BitVec 128) : (k.setD r w).ibuf = k.ibuf := rfl
@[simp] theorem Core.setD_stores (k : Core) (r : Nat) (w : BitVec 128) : (k.setD r w).stores = k.stores := rfl
@[simp] theorem Core.setD_landing (k : Core) (r : Nat) (w : BitVec 128) : (k.setD r w).landing = k.landing := rfl
@[simp] theorem Core.setD_notice (k : Core) (r : Nat) (w : BitVec 128) : (k.setD r w).notice = k.notice := rfl
@[simp] theorem Core.setD_powered (k : Core) (r : Nat) (w : BitVec 128) : (k.setD r w).powered = k.powered := rfl
@[simp] theorem Core.setD_zeroising (k : Core) (r : Nat) (w : BitVec 128) : (k.setD r w).zeroising = k.zeroising := rfl
@[simp] theorem Core.setD_zeroWait (k : Core) (r : Nat) (w : BitVec 128) : (k.setD r w).zeroWait = k.zeroWait := rfl
@[simp] theorem Core.setD_ceCount (k : Core) (r : Nat) (w : BitVec 128) : (k.setD r w).ceCount = k.ceCount := rfl
@[simp] theorem Core.setD_ue (k : Core) (r : Nat) (w : BitVec 128) : (k.setD r w).ue = k.ue := rfl
@[simp] theorem Core.setD_banks (k : Core) (r : Nat) (w : BitVec 128) : (k.setD r w).banks = k.banks := rfl
@[simp] theorem Core.setD_ecc (k : Core) (r : Nat) (w : BitVec 128) : (k.setD r w).ecc = k.ecc := rfl
@[simp] theorem Core.setD_inject (k : Core) (r : Nat) (w : BitVec 128) : (k.setD r w).inject = k.inject := rfl
@[simp] theorem Core.setD_requests (k : Core) (r : Nat) (w : BitVec 128) : (k.setD r w).requests = k.requests := rfl
@[simp] theorem Core.setD_arrived (k : Core) (r : Nat) (w : BitVec 128) : (k.setD r w).arrived = k.arrived := rfl
@[simp] theorem Core.setD_ep (k : Core) (r : Nat) (w : BitVec 128) : (k.setD r w).ep = k.ep := rfl
@[simp] theorem Core.setD_linkEps (k : Core) (r : Nat) (w : BitVec 128) : (k.setD r w).linkEps = k.linkEps := rfl
@[simp] theorem Core.setD_flumeIn (k : Core) (r : Nat) (w : BitVec 128) : (k.setD r w).flumeIn = k.flumeIn := rfl
@[simp] theorem Core.setD_contrib (k : Core) (r : Nat) (w : BitVec 128) : (k.setD r w).contrib = k.contrib := rfl
@[simp] theorem Core.setD_rowIn (k : Core) (r : Nat) (w : BitVec 128) : (k.setD r w).rowIn = k.rowIn := rfl
@[simp] theorem Core.setD_colIn (k : Core) (r : Nat) (w : BitVec 128) : (k.setD r w).colIn = k.colIn := rfl
@[simp] theorem Core.setD_flumeOut (k : Core) (r : Nat) (w : BitVec 128) : (k.setD r w).flumeOut = k.flumeOut := rfl
@[simp] theorem Core.setD_flumeSink (k : Core) (r : Nat) (w : BitVec 128) : (k.setD r w).flumeSink = k.flumeSink := rfl
@[simp] theorem Core.setD_progress (k : Core) (r : Nat) (w : BitVec 128) : (k.setD r w).progress = k.progress := rfl
@[simp] theorem Core.setD_still (k : Core) (r : Nat) (w : BitVec 128) : (k.setD r w).still = k.still := rfl
@[simp] theorem Core.setD_lastProgress (k : Core) (r : Nat) (w : BitVec 128) : (k.setD r w).lastProgress = k.lastProgress := rfl
@[simp] theorem Core.setD_placed (k : Core) (r : Nat) (w : BitVec 128) : (k.setD r w).placed = k.placed := rfl
@[simp] theorem Core.setD_testing (k : Core) (r : Nat) (w : BitVec 128) : (k.setD r w).testing = k.testing := rfl

/-! ### `Core.setCounter` -/

@[simp] theorem Core.setCounter_g (k : Core) (n : BitVec 6) (t : Counter) : (k.setCounter n t).g = k.g := rfl
@[simp] theorem Core.setCounter_v (k : Core) (n : BitVec 6) (t : Counter) : (k.setCounter n t).v = k.v := rfl
@[simp] theorem Core.setCounter_d (k : Core) (n : BitVec 6) (t : Counter) : (k.setCounter n t).d = k.d := rfl
@[simp] theorem Core.setCounter_acc (k : Core) (n : BitVec 6) (t : Counter) : (k.setCounter n t).acc = k.acc := rfl
@[simp] theorem Core.setCounter_kind (k : Core) (n : BitVec 6) (t : Counter) : (k.setCounter n t).kind = k.kind := rfl
@[simp] theorem Core.setCounter_pc (k : Core) (n : BitVec 6) (t : Counter) : (k.setCounter n t).pc = k.pc := rfl
@[simp] theorem Core.setCounter_sync (k : Core) (n : BitVec 6) (t : Counter) : (k.setCounter n t).sync = k.sync := rfl
@[simp] theorem Core.setCounter_mode (k : Core) (n : BitVec 6) (t : Counter) : (k.setCounter n t).mode = k.mode := rfl
@[simp] theorem Core.setCounter_wait (k : Core) (n : BitVec 6) (t : Counter) : (k.setCounter n t).wait = k.wait := rfl
@[simp] theorem Core.setCounter_halting (k : Core) (n : BitVec 6) (t : Counter) : (k.setCounter n t).halting = k.halting := rfl
@[simp] theorem Core.setCounter_exitCode (k : Core) (n : BitVec 6) (t : Counter) : (k.setCounter n t).exitCode = k.exitCode := rfl
@[simp] theorem Core.setCounter_exitValid (k : Core) (n : BitVec 6) (t : Counter) : (k.setCounter n t).exitValid = k.exitValid := rfl
@[simp] theorem Core.setCounter_cycle (k : Core) (n : BitVec 6) (t : Counter) : (k.setCounter n t).cycle = k.cycle := rfl
@[simp] theorem Core.setCounter_subn (k : Core) (n : BitVec 6) (t : Counter) : (k.setCounter n t).subn = k.subn := rfl
@[simp] theorem Core.setCounter_sat (k : Core) (n : BitVec 6) (t : Counter) : (k.setCounter n t).sat = k.sat := rfl
@[simp] theorem Core.setCounter_fpflags (k : Core) (n : BitVec 6) (t : Counter) : (k.setCounter n t).fpflags = k.fpflags := rfl
@[simp] theorem Core.setCounter_partReg (k : Core) (n : BitVec 6) (t : Counter) : (k.setCounter n t).partReg = k.partReg := rfl
@[simp] theorem Core.setCounter_sealed (k : Core) (n : BitVec 6) (t : Counter) : (k.setCounter n t).sealed = k.sealed := rfl
@[simp] theorem Core.setCounter_detreq (k : Core) (n : BitVec 6) (t : Counter) : (k.setCounter n t).detreq = k.detreq := rfl
@[simp] theorem Core.setCounter_trapCause (k : Core) (n : BitVec 6) (t : Counter) : (k.setCounter n t).trapCause = k.trapCause := rfl
@[simp] theorem Core.setCounter_trapPc (k : Core) (n : BitVec 6) (t : Counter) : (k.setCounter n t).trapPc = k.trapPc := rfl
@[simp] theorem Core.setCounter_trapVal (k : Core) (n : BitVec 6) (t : Counter) : (k.setCounter n t).trapVal = k.trapVal := rfl
@[simp] theorem Core.setCounter_rtScratch (k : Core) (n : BitVec 6) (t : Counter) : (k.setCounter n t).rtScratch = k.rtScratch := rfl
@[simp] theorem Core.setCounter_rtPc (k : Core) (n : BitVec 6) (t : Counter) : (k.setCounter n t).rtPc = k.rtPc := rfl
@[simp] theorem Core.setCounter_service (k : Core) (n : BitVec 6) (t : Counter) : (k.setCounter n t).service = k.service := rfl
@[simp] theorem Core.setCounter_debugStop (k : Core) (n : BitVec 6) (t : Counter) : (k.setCounter n t).debugStop = k.debugStop := rfl
@[simp] theorem Core.setCounter_tq (k : Core) (n : BitVec 6) (t : Counter) : (k.setCounter n t).tq = k.tq := rfl
@[simp] theorem Core.setCounter_nq (k : Core) (n : BitVec 6) (t : Counter) : (k.setCounter n t).nq = k.nq := rfl
@[simp] theorem Core.setCounter_cq (k : Core) (n : BitVec 6) (t : Counter) : (k.setCounter n t).cq = k.cq := rfl
@[simp] theorem Core.setCounter_slots (k : Core) (n : BitVec 6) (t : Counter) : (k.setCounter n t).slots = k.slots := rfl
@[simp] theorem Core.setCounter_flowCount (k : Core) (n : BitVec 6) (t : Counter) : (k.setCounter n t).flowCount = k.flowCount := rfl
@[simp] theorem Core.setCounter_reads (k : Core) (n : BitVec 6) (t : Counter) : (k.setCounter n t).reads = k.reads := rfl
@[simp] theorem Core.setCounter_copies (k : Core) (n : BitVec 6) (t : Counter) : (k.setCounter n t).copies = k.copies := rfl
@[simp] theorem Core.setCounter_ibuf (k : Core) (n : BitVec 6) (t : Counter) : (k.setCounter n t).ibuf = k.ibuf := rfl
@[simp] theorem Core.setCounter_stores (k : Core) (n : BitVec 6) (t : Counter) : (k.setCounter n t).stores = k.stores := rfl
@[simp] theorem Core.setCounter_landing (k : Core) (n : BitVec 6) (t : Counter) : (k.setCounter n t).landing = k.landing := rfl
@[simp] theorem Core.setCounter_notice (k : Core) (n : BitVec 6) (t : Counter) : (k.setCounter n t).notice = k.notice := rfl
@[simp] theorem Core.setCounter_powered (k : Core) (n : BitVec 6) (t : Counter) : (k.setCounter n t).powered = k.powered := rfl
@[simp] theorem Core.setCounter_zeroising (k : Core) (n : BitVec 6) (t : Counter) : (k.setCounter n t).zeroising = k.zeroising := rfl
@[simp] theorem Core.setCounter_zeroWait (k : Core) (n : BitVec 6) (t : Counter) : (k.setCounter n t).zeroWait = k.zeroWait := rfl
@[simp] theorem Core.setCounter_ceCount (k : Core) (n : BitVec 6) (t : Counter) : (k.setCounter n t).ceCount = k.ceCount := rfl
@[simp] theorem Core.setCounter_ue (k : Core) (n : BitVec 6) (t : Counter) : (k.setCounter n t).ue = k.ue := rfl
@[simp] theorem Core.setCounter_banks (k : Core) (n : BitVec 6) (t : Counter) : (k.setCounter n t).banks = k.banks := rfl
@[simp] theorem Core.setCounter_ecc (k : Core) (n : BitVec 6) (t : Counter) : (k.setCounter n t).ecc = k.ecc := rfl
@[simp] theorem Core.setCounter_inject (k : Core) (n : BitVec 6) (t : Counter) : (k.setCounter n t).inject = k.inject := rfl
@[simp] theorem Core.setCounter_requests (k : Core) (n : BitVec 6) (t : Counter) : (k.setCounter n t).requests = k.requests := rfl
@[simp] theorem Core.setCounter_arrived (k : Core) (n : BitVec 6) (t : Counter) : (k.setCounter n t).arrived = k.arrived := rfl
@[simp] theorem Core.setCounter_ep (k : Core) (n : BitVec 6) (t : Counter) : (k.setCounter n t).ep = k.ep := rfl
@[simp] theorem Core.setCounter_linkEps (k : Core) (n : BitVec 6) (t : Counter) : (k.setCounter n t).linkEps = k.linkEps := rfl
@[simp] theorem Core.setCounter_flumeIn (k : Core) (n : BitVec 6) (t : Counter) : (k.setCounter n t).flumeIn = k.flumeIn := rfl
@[simp] theorem Core.setCounter_contrib (k : Core) (n : BitVec 6) (t : Counter) : (k.setCounter n t).contrib = k.contrib := rfl
@[simp] theorem Core.setCounter_rowIn (k : Core) (n : BitVec 6) (t : Counter) : (k.setCounter n t).rowIn = k.rowIn := rfl
@[simp] theorem Core.setCounter_colIn (k : Core) (n : BitVec 6) (t : Counter) : (k.setCounter n t).colIn = k.colIn := rfl
@[simp] theorem Core.setCounter_flumeOut (k : Core) (n : BitVec 6) (t : Counter) : (k.setCounter n t).flumeOut = k.flumeOut := rfl
@[simp] theorem Core.setCounter_flumeSink (k : Core) (n : BitVec 6) (t : Counter) : (k.setCounter n t).flumeSink = k.flumeSink := rfl
@[simp] theorem Core.setCounter_progress (k : Core) (n : BitVec 6) (t : Counter) : (k.setCounter n t).progress = k.progress := rfl
@[simp] theorem Core.setCounter_still (k : Core) (n : BitVec 6) (t : Counter) : (k.setCounter n t).still = k.still := rfl
@[simp] theorem Core.setCounter_lastProgress (k : Core) (n : BitVec 6) (t : Counter) : (k.setCounter n t).lastProgress = k.lastProgress := rfl
@[simp] theorem Core.setCounter_placed (k : Core) (n : BitVec 6) (t : Counter) : (k.setCounter n t).placed = k.placed := rfl
@[simp] theorem Core.setCounter_testing (k : Core) (n : BitVec 6) (t : Counter) : (k.setCounter n t).testing = k.testing := rfl

/-! ### `Core.setChan` -/

@[simp] theorem Core.setChan_g (k : Core) (n : BitVec 4) (t : SyncChan) : (k.setChan n t).g = k.g := rfl
@[simp] theorem Core.setChan_v (k : Core) (n : BitVec 4) (t : SyncChan) : (k.setChan n t).v = k.v := rfl
@[simp] theorem Core.setChan_d (k : Core) (n : BitVec 4) (t : SyncChan) : (k.setChan n t).d = k.d := rfl
@[simp] theorem Core.setChan_acc (k : Core) (n : BitVec 4) (t : SyncChan) : (k.setChan n t).acc = k.acc := rfl
@[simp] theorem Core.setChan_kind (k : Core) (n : BitVec 4) (t : SyncChan) : (k.setChan n t).kind = k.kind := rfl
@[simp] theorem Core.setChan_pc (k : Core) (n : BitVec 4) (t : SyncChan) : (k.setChan n t).pc = k.pc := rfl
@[simp] theorem Core.setChan_ccnt (k : Core) (n : BitVec 4) (t : SyncChan) : (k.setChan n t).ccnt = k.ccnt := rfl
@[simp] theorem Core.setChan_mode (k : Core) (n : BitVec 4) (t : SyncChan) : (k.setChan n t).mode = k.mode := rfl
@[simp] theorem Core.setChan_wait (k : Core) (n : BitVec 4) (t : SyncChan) : (k.setChan n t).wait = k.wait := rfl
@[simp] theorem Core.setChan_halting (k : Core) (n : BitVec 4) (t : SyncChan) : (k.setChan n t).halting = k.halting := rfl
@[simp] theorem Core.setChan_exitCode (k : Core) (n : BitVec 4) (t : SyncChan) : (k.setChan n t).exitCode = k.exitCode := rfl
@[simp] theorem Core.setChan_exitValid (k : Core) (n : BitVec 4) (t : SyncChan) : (k.setChan n t).exitValid = k.exitValid := rfl
@[simp] theorem Core.setChan_cycle (k : Core) (n : BitVec 4) (t : SyncChan) : (k.setChan n t).cycle = k.cycle := rfl
@[simp] theorem Core.setChan_subn (k : Core) (n : BitVec 4) (t : SyncChan) : (k.setChan n t).subn = k.subn := rfl
@[simp] theorem Core.setChan_sat (k : Core) (n : BitVec 4) (t : SyncChan) : (k.setChan n t).sat = k.sat := rfl
@[simp] theorem Core.setChan_fpflags (k : Core) (n : BitVec 4) (t : SyncChan) : (k.setChan n t).fpflags = k.fpflags := rfl
@[simp] theorem Core.setChan_partReg (k : Core) (n : BitVec 4) (t : SyncChan) : (k.setChan n t).partReg = k.partReg := rfl
@[simp] theorem Core.setChan_sealed (k : Core) (n : BitVec 4) (t : SyncChan) : (k.setChan n t).sealed = k.sealed := rfl
@[simp] theorem Core.setChan_detreq (k : Core) (n : BitVec 4) (t : SyncChan) : (k.setChan n t).detreq = k.detreq := rfl
@[simp] theorem Core.setChan_trapCause (k : Core) (n : BitVec 4) (t : SyncChan) : (k.setChan n t).trapCause = k.trapCause := rfl
@[simp] theorem Core.setChan_trapPc (k : Core) (n : BitVec 4) (t : SyncChan) : (k.setChan n t).trapPc = k.trapPc := rfl
@[simp] theorem Core.setChan_trapVal (k : Core) (n : BitVec 4) (t : SyncChan) : (k.setChan n t).trapVal = k.trapVal := rfl
@[simp] theorem Core.setChan_rtScratch (k : Core) (n : BitVec 4) (t : SyncChan) : (k.setChan n t).rtScratch = k.rtScratch := rfl
@[simp] theorem Core.setChan_rtPc (k : Core) (n : BitVec 4) (t : SyncChan) : (k.setChan n t).rtPc = k.rtPc := rfl
@[simp] theorem Core.setChan_service (k : Core) (n : BitVec 4) (t : SyncChan) : (k.setChan n t).service = k.service := rfl
@[simp] theorem Core.setChan_debugStop (k : Core) (n : BitVec 4) (t : SyncChan) : (k.setChan n t).debugStop = k.debugStop := rfl
@[simp] theorem Core.setChan_tq (k : Core) (n : BitVec 4) (t : SyncChan) : (k.setChan n t).tq = k.tq := rfl
@[simp] theorem Core.setChan_nq (k : Core) (n : BitVec 4) (t : SyncChan) : (k.setChan n t).nq = k.nq := rfl
@[simp] theorem Core.setChan_cq (k : Core) (n : BitVec 4) (t : SyncChan) : (k.setChan n t).cq = k.cq := rfl
@[simp] theorem Core.setChan_slots (k : Core) (n : BitVec 4) (t : SyncChan) : (k.setChan n t).slots = k.slots := rfl
@[simp] theorem Core.setChan_flowCount (k : Core) (n : BitVec 4) (t : SyncChan) : (k.setChan n t).flowCount = k.flowCount := rfl
@[simp] theorem Core.setChan_reads (k : Core) (n : BitVec 4) (t : SyncChan) : (k.setChan n t).reads = k.reads := rfl
@[simp] theorem Core.setChan_copies (k : Core) (n : BitVec 4) (t : SyncChan) : (k.setChan n t).copies = k.copies := rfl
@[simp] theorem Core.setChan_ibuf (k : Core) (n : BitVec 4) (t : SyncChan) : (k.setChan n t).ibuf = k.ibuf := rfl
@[simp] theorem Core.setChan_stores (k : Core) (n : BitVec 4) (t : SyncChan) : (k.setChan n t).stores = k.stores := rfl
@[simp] theorem Core.setChan_landing (k : Core) (n : BitVec 4) (t : SyncChan) : (k.setChan n t).landing = k.landing := rfl
@[simp] theorem Core.setChan_notice (k : Core) (n : BitVec 4) (t : SyncChan) : (k.setChan n t).notice = k.notice := rfl
@[simp] theorem Core.setChan_powered (k : Core) (n : BitVec 4) (t : SyncChan) : (k.setChan n t).powered = k.powered := rfl
@[simp] theorem Core.setChan_zeroising (k : Core) (n : BitVec 4) (t : SyncChan) : (k.setChan n t).zeroising = k.zeroising := rfl
@[simp] theorem Core.setChan_zeroWait (k : Core) (n : BitVec 4) (t : SyncChan) : (k.setChan n t).zeroWait = k.zeroWait := rfl
@[simp] theorem Core.setChan_ceCount (k : Core) (n : BitVec 4) (t : SyncChan) : (k.setChan n t).ceCount = k.ceCount := rfl
@[simp] theorem Core.setChan_ue (k : Core) (n : BitVec 4) (t : SyncChan) : (k.setChan n t).ue = k.ue := rfl
@[simp] theorem Core.setChan_banks (k : Core) (n : BitVec 4) (t : SyncChan) : (k.setChan n t).banks = k.banks := rfl
@[simp] theorem Core.setChan_ecc (k : Core) (n : BitVec 4) (t : SyncChan) : (k.setChan n t).ecc = k.ecc := rfl
@[simp] theorem Core.setChan_inject (k : Core) (n : BitVec 4) (t : SyncChan) : (k.setChan n t).inject = k.inject := rfl
@[simp] theorem Core.setChan_requests (k : Core) (n : BitVec 4) (t : SyncChan) : (k.setChan n t).requests = k.requests := rfl
@[simp] theorem Core.setChan_arrived (k : Core) (n : BitVec 4) (t : SyncChan) : (k.setChan n t).arrived = k.arrived := rfl
@[simp] theorem Core.setChan_ep (k : Core) (n : BitVec 4) (t : SyncChan) : (k.setChan n t).ep = k.ep := rfl
@[simp] theorem Core.setChan_linkEps (k : Core) (n : BitVec 4) (t : SyncChan) : (k.setChan n t).linkEps = k.linkEps := rfl
@[simp] theorem Core.setChan_flumeIn (k : Core) (n : BitVec 4) (t : SyncChan) : (k.setChan n t).flumeIn = k.flumeIn := rfl
@[simp] theorem Core.setChan_contrib (k : Core) (n : BitVec 4) (t : SyncChan) : (k.setChan n t).contrib = k.contrib := rfl
@[simp] theorem Core.setChan_rowIn (k : Core) (n : BitVec 4) (t : SyncChan) : (k.setChan n t).rowIn = k.rowIn := rfl
@[simp] theorem Core.setChan_colIn (k : Core) (n : BitVec 4) (t : SyncChan) : (k.setChan n t).colIn = k.colIn := rfl
@[simp] theorem Core.setChan_flumeOut (k : Core) (n : BitVec 4) (t : SyncChan) : (k.setChan n t).flumeOut = k.flumeOut := rfl
@[simp] theorem Core.setChan_flumeSink (k : Core) (n : BitVec 4) (t : SyncChan) : (k.setChan n t).flumeSink = k.flumeSink := rfl
@[simp] theorem Core.setChan_progress (k : Core) (n : BitVec 4) (t : SyncChan) : (k.setChan n t).progress = k.progress := rfl
@[simp] theorem Core.setChan_still (k : Core) (n : BitVec 4) (t : SyncChan) : (k.setChan n t).still = k.still := rfl
@[simp] theorem Core.setChan_lastProgress (k : Core) (n : BitVec 4) (t : SyncChan) : (k.setChan n t).lastProgress = k.lastProgress := rfl
@[simp] theorem Core.setChan_placed (k : Core) (n : BitVec 4) (t : SyncChan) : (k.setChan n t).placed = k.placed := rfl
@[simp] theorem Core.setChan_testing (k : Core) (n : BitVec 4) (t : SyncChan) : (k.setChan n t).testing = k.testing := rfl

/-! ### `Core.setBank` -/

@[simp] theorem Core.setBank_g (k : Core) (n : Nat) (t : Bank) : (k.setBank n t).g = k.g := rfl
@[simp] theorem Core.setBank_v (k : Core) (n : Nat) (t : Bank) : (k.setBank n t).v = k.v := rfl
@[simp] theorem Core.setBank_d (k : Core) (n : Nat) (t : Bank) : (k.setBank n t).d = k.d := rfl
@[simp] theorem Core.setBank_acc (k : Core) (n : Nat) (t : Bank) : (k.setBank n t).acc = k.acc := rfl
@[simp] theorem Core.setBank_kind (k : Core) (n : Nat) (t : Bank) : (k.setBank n t).kind = k.kind := rfl
@[simp] theorem Core.setBank_pc (k : Core) (n : Nat) (t : Bank) : (k.setBank n t).pc = k.pc := rfl
@[simp] theorem Core.setBank_ccnt (k : Core) (n : Nat) (t : Bank) : (k.setBank n t).ccnt = k.ccnt := rfl
@[simp] theorem Core.setBank_sync (k : Core) (n : Nat) (t : Bank) : (k.setBank n t).sync = k.sync := rfl
@[simp] theorem Core.setBank_mode (k : Core) (n : Nat) (t : Bank) : (k.setBank n t).mode = k.mode := rfl
@[simp] theorem Core.setBank_wait (k : Core) (n : Nat) (t : Bank) : (k.setBank n t).wait = k.wait := rfl
@[simp] theorem Core.setBank_halting (k : Core) (n : Nat) (t : Bank) : (k.setBank n t).halting = k.halting := rfl
@[simp] theorem Core.setBank_exitCode (k : Core) (n : Nat) (t : Bank) : (k.setBank n t).exitCode = k.exitCode := rfl
@[simp] theorem Core.setBank_exitValid (k : Core) (n : Nat) (t : Bank) : (k.setBank n t).exitValid = k.exitValid := rfl
@[simp] theorem Core.setBank_cycle (k : Core) (n : Nat) (t : Bank) : (k.setBank n t).cycle = k.cycle := rfl
@[simp] theorem Core.setBank_subn (k : Core) (n : Nat) (t : Bank) : (k.setBank n t).subn = k.subn := rfl
@[simp] theorem Core.setBank_sat (k : Core) (n : Nat) (t : Bank) : (k.setBank n t).sat = k.sat := rfl
@[simp] theorem Core.setBank_fpflags (k : Core) (n : Nat) (t : Bank) : (k.setBank n t).fpflags = k.fpflags := rfl
@[simp] theorem Core.setBank_partReg (k : Core) (n : Nat) (t : Bank) : (k.setBank n t).partReg = k.partReg := rfl
@[simp] theorem Core.setBank_sealed (k : Core) (n : Nat) (t : Bank) : (k.setBank n t).sealed = k.sealed := rfl
@[simp] theorem Core.setBank_detreq (k : Core) (n : Nat) (t : Bank) : (k.setBank n t).detreq = k.detreq := rfl
@[simp] theorem Core.setBank_trapCause (k : Core) (n : Nat) (t : Bank) : (k.setBank n t).trapCause = k.trapCause := rfl
@[simp] theorem Core.setBank_trapPc (k : Core) (n : Nat) (t : Bank) : (k.setBank n t).trapPc = k.trapPc := rfl
@[simp] theorem Core.setBank_trapVal (k : Core) (n : Nat) (t : Bank) : (k.setBank n t).trapVal = k.trapVal := rfl
@[simp] theorem Core.setBank_rtScratch (k : Core) (n : Nat) (t : Bank) : (k.setBank n t).rtScratch = k.rtScratch := rfl
@[simp] theorem Core.setBank_rtPc (k : Core) (n : Nat) (t : Bank) : (k.setBank n t).rtPc = k.rtPc := rfl
@[simp] theorem Core.setBank_service (k : Core) (n : Nat) (t : Bank) : (k.setBank n t).service = k.service := rfl
@[simp] theorem Core.setBank_debugStop (k : Core) (n : Nat) (t : Bank) : (k.setBank n t).debugStop = k.debugStop := rfl
@[simp] theorem Core.setBank_tq (k : Core) (n : Nat) (t : Bank) : (k.setBank n t).tq = k.tq := rfl
@[simp] theorem Core.setBank_nq (k : Core) (n : Nat) (t : Bank) : (k.setBank n t).nq = k.nq := rfl
@[simp] theorem Core.setBank_cq (k : Core) (n : Nat) (t : Bank) : (k.setBank n t).cq = k.cq := rfl
@[simp] theorem Core.setBank_slots (k : Core) (n : Nat) (t : Bank) : (k.setBank n t).slots = k.slots := rfl
@[simp] theorem Core.setBank_flowCount (k : Core) (n : Nat) (t : Bank) : (k.setBank n t).flowCount = k.flowCount := rfl
@[simp] theorem Core.setBank_reads (k : Core) (n : Nat) (t : Bank) : (k.setBank n t).reads = k.reads := rfl
@[simp] theorem Core.setBank_copies (k : Core) (n : Nat) (t : Bank) : (k.setBank n t).copies = k.copies := rfl
@[simp] theorem Core.setBank_ibuf (k : Core) (n : Nat) (t : Bank) : (k.setBank n t).ibuf = k.ibuf := rfl
@[simp] theorem Core.setBank_stores (k : Core) (n : Nat) (t : Bank) : (k.setBank n t).stores = k.stores := rfl
@[simp] theorem Core.setBank_landing (k : Core) (n : Nat) (t : Bank) : (k.setBank n t).landing = k.landing := rfl
@[simp] theorem Core.setBank_notice (k : Core) (n : Nat) (t : Bank) : (k.setBank n t).notice = k.notice := rfl
@[simp] theorem Core.setBank_powered (k : Core) (n : Nat) (t : Bank) : (k.setBank n t).powered = k.powered := rfl
@[simp] theorem Core.setBank_zeroising (k : Core) (n : Nat) (t : Bank) : (k.setBank n t).zeroising = k.zeroising := rfl
@[simp] theorem Core.setBank_zeroWait (k : Core) (n : Nat) (t : Bank) : (k.setBank n t).zeroWait = k.zeroWait := rfl
@[simp] theorem Core.setBank_ceCount (k : Core) (n : Nat) (t : Bank) : (k.setBank n t).ceCount = k.ceCount := rfl
@[simp] theorem Core.setBank_ue (k : Core) (n : Nat) (t : Bank) : (k.setBank n t).ue = k.ue := rfl
@[simp] theorem Core.setBank_ecc (k : Core) (n : Nat) (t : Bank) : (k.setBank n t).ecc = k.ecc := rfl
@[simp] theorem Core.setBank_inject (k : Core) (n : Nat) (t : Bank) : (k.setBank n t).inject = k.inject := rfl
@[simp] theorem Core.setBank_requests (k : Core) (n : Nat) (t : Bank) : (k.setBank n t).requests = k.requests := rfl
@[simp] theorem Core.setBank_arrived (k : Core) (n : Nat) (t : Bank) : (k.setBank n t).arrived = k.arrived := rfl
@[simp] theorem Core.setBank_ep (k : Core) (n : Nat) (t : Bank) : (k.setBank n t).ep = k.ep := rfl
@[simp] theorem Core.setBank_linkEps (k : Core) (n : Nat) (t : Bank) : (k.setBank n t).linkEps = k.linkEps := rfl
@[simp] theorem Core.setBank_flumeIn (k : Core) (n : Nat) (t : Bank) : (k.setBank n t).flumeIn = k.flumeIn := rfl
@[simp] theorem Core.setBank_contrib (k : Core) (n : Nat) (t : Bank) : (k.setBank n t).contrib = k.contrib := rfl
@[simp] theorem Core.setBank_rowIn (k : Core) (n : Nat) (t : Bank) : (k.setBank n t).rowIn = k.rowIn := rfl
@[simp] theorem Core.setBank_colIn (k : Core) (n : Nat) (t : Bank) : (k.setBank n t).colIn = k.colIn := rfl
@[simp] theorem Core.setBank_flumeOut (k : Core) (n : Nat) (t : Bank) : (k.setBank n t).flumeOut = k.flumeOut := rfl
@[simp] theorem Core.setBank_flumeSink (k : Core) (n : Nat) (t : Bank) : (k.setBank n t).flumeSink = k.flumeSink := rfl
@[simp] theorem Core.setBank_progress (k : Core) (n : Nat) (t : Bank) : (k.setBank n t).progress = k.progress := rfl
@[simp] theorem Core.setBank_still (k : Core) (n : Nat) (t : Bank) : (k.setBank n t).still = k.still := rfl
@[simp] theorem Core.setBank_lastProgress (k : Core) (n : Nat) (t : Bank) : (k.setBank n t).lastProgress = k.lastProgress := rfl
@[simp] theorem Core.setBank_placed (k : Core) (n : Nat) (t : Bank) : (k.setBank n t).placed = k.placed := rfl
@[simp] theorem Core.setBank_testing (k : Core) (n : Nat) (t : Bank) : (k.setBank n t).testing = k.testing := rfl

/-! ### `Core.setSlot` -/

@[simp] theorem Core.setSlot_g (k : Core) (n : BitVec 4) (t : AckSlot) : (k.setSlot n t).g = k.g := rfl
@[simp] theorem Core.setSlot_v (k : Core) (n : BitVec 4) (t : AckSlot) : (k.setSlot n t).v = k.v := rfl
@[simp] theorem Core.setSlot_d (k : Core) (n : BitVec 4) (t : AckSlot) : (k.setSlot n t).d = k.d := rfl
@[simp] theorem Core.setSlot_acc (k : Core) (n : BitVec 4) (t : AckSlot) : (k.setSlot n t).acc = k.acc := rfl
@[simp] theorem Core.setSlot_kind (k : Core) (n : BitVec 4) (t : AckSlot) : (k.setSlot n t).kind = k.kind := rfl
@[simp] theorem Core.setSlot_pc (k : Core) (n : BitVec 4) (t : AckSlot) : (k.setSlot n t).pc = k.pc := rfl
@[simp] theorem Core.setSlot_ccnt (k : Core) (n : BitVec 4) (t : AckSlot) : (k.setSlot n t).ccnt = k.ccnt := rfl
@[simp] theorem Core.setSlot_sync (k : Core) (n : BitVec 4) (t : AckSlot) : (k.setSlot n t).sync = k.sync := rfl
@[simp] theorem Core.setSlot_mode (k : Core) (n : BitVec 4) (t : AckSlot) : (k.setSlot n t).mode = k.mode := rfl
@[simp] theorem Core.setSlot_wait (k : Core) (n : BitVec 4) (t : AckSlot) : (k.setSlot n t).wait = k.wait := rfl
@[simp] theorem Core.setSlot_halting (k : Core) (n : BitVec 4) (t : AckSlot) : (k.setSlot n t).halting = k.halting := rfl
@[simp] theorem Core.setSlot_exitCode (k : Core) (n : BitVec 4) (t : AckSlot) : (k.setSlot n t).exitCode = k.exitCode := rfl
@[simp] theorem Core.setSlot_exitValid (k : Core) (n : BitVec 4) (t : AckSlot) : (k.setSlot n t).exitValid = k.exitValid := rfl
@[simp] theorem Core.setSlot_cycle (k : Core) (n : BitVec 4) (t : AckSlot) : (k.setSlot n t).cycle = k.cycle := rfl
@[simp] theorem Core.setSlot_subn (k : Core) (n : BitVec 4) (t : AckSlot) : (k.setSlot n t).subn = k.subn := rfl
@[simp] theorem Core.setSlot_sat (k : Core) (n : BitVec 4) (t : AckSlot) : (k.setSlot n t).sat = k.sat := rfl
@[simp] theorem Core.setSlot_fpflags (k : Core) (n : BitVec 4) (t : AckSlot) : (k.setSlot n t).fpflags = k.fpflags := rfl
@[simp] theorem Core.setSlot_partReg (k : Core) (n : BitVec 4) (t : AckSlot) : (k.setSlot n t).partReg = k.partReg := rfl
@[simp] theorem Core.setSlot_sealed (k : Core) (n : BitVec 4) (t : AckSlot) : (k.setSlot n t).sealed = k.sealed := rfl
@[simp] theorem Core.setSlot_detreq (k : Core) (n : BitVec 4) (t : AckSlot) : (k.setSlot n t).detreq = k.detreq := rfl
@[simp] theorem Core.setSlot_trapCause (k : Core) (n : BitVec 4) (t : AckSlot) : (k.setSlot n t).trapCause = k.trapCause := rfl
@[simp] theorem Core.setSlot_trapPc (k : Core) (n : BitVec 4) (t : AckSlot) : (k.setSlot n t).trapPc = k.trapPc := rfl
@[simp] theorem Core.setSlot_trapVal (k : Core) (n : BitVec 4) (t : AckSlot) : (k.setSlot n t).trapVal = k.trapVal := rfl
@[simp] theorem Core.setSlot_rtScratch (k : Core) (n : BitVec 4) (t : AckSlot) : (k.setSlot n t).rtScratch = k.rtScratch := rfl
@[simp] theorem Core.setSlot_rtPc (k : Core) (n : BitVec 4) (t : AckSlot) : (k.setSlot n t).rtPc = k.rtPc := rfl
@[simp] theorem Core.setSlot_service (k : Core) (n : BitVec 4) (t : AckSlot) : (k.setSlot n t).service = k.service := rfl
@[simp] theorem Core.setSlot_debugStop (k : Core) (n : BitVec 4) (t : AckSlot) : (k.setSlot n t).debugStop = k.debugStop := rfl
@[simp] theorem Core.setSlot_tq (k : Core) (n : BitVec 4) (t : AckSlot) : (k.setSlot n t).tq = k.tq := rfl
@[simp] theorem Core.setSlot_nq (k : Core) (n : BitVec 4) (t : AckSlot) : (k.setSlot n t).nq = k.nq := rfl
@[simp] theorem Core.setSlot_cq (k : Core) (n : BitVec 4) (t : AckSlot) : (k.setSlot n t).cq = k.cq := rfl
@[simp] theorem Core.setSlot_flowCount (k : Core) (n : BitVec 4) (t : AckSlot) : (k.setSlot n t).flowCount = k.flowCount := rfl
@[simp] theorem Core.setSlot_reads (k : Core) (n : BitVec 4) (t : AckSlot) : (k.setSlot n t).reads = k.reads := rfl
@[simp] theorem Core.setSlot_copies (k : Core) (n : BitVec 4) (t : AckSlot) : (k.setSlot n t).copies = k.copies := rfl
@[simp] theorem Core.setSlot_ibuf (k : Core) (n : BitVec 4) (t : AckSlot) : (k.setSlot n t).ibuf = k.ibuf := rfl
@[simp] theorem Core.setSlot_stores (k : Core) (n : BitVec 4) (t : AckSlot) : (k.setSlot n t).stores = k.stores := rfl
@[simp] theorem Core.setSlot_landing (k : Core) (n : BitVec 4) (t : AckSlot) : (k.setSlot n t).landing = k.landing := rfl
@[simp] theorem Core.setSlot_notice (k : Core) (n : BitVec 4) (t : AckSlot) : (k.setSlot n t).notice = k.notice := rfl
@[simp] theorem Core.setSlot_powered (k : Core) (n : BitVec 4) (t : AckSlot) : (k.setSlot n t).powered = k.powered := rfl
@[simp] theorem Core.setSlot_zeroising (k : Core) (n : BitVec 4) (t : AckSlot) : (k.setSlot n t).zeroising = k.zeroising := rfl
@[simp] theorem Core.setSlot_zeroWait (k : Core) (n : BitVec 4) (t : AckSlot) : (k.setSlot n t).zeroWait = k.zeroWait := rfl
@[simp] theorem Core.setSlot_ceCount (k : Core) (n : BitVec 4) (t : AckSlot) : (k.setSlot n t).ceCount = k.ceCount := rfl
@[simp] theorem Core.setSlot_ue (k : Core) (n : BitVec 4) (t : AckSlot) : (k.setSlot n t).ue = k.ue := rfl
@[simp] theorem Core.setSlot_banks (k : Core) (n : BitVec 4) (t : AckSlot) : (k.setSlot n t).banks = k.banks := rfl
@[simp] theorem Core.setSlot_ecc (k : Core) (n : BitVec 4) (t : AckSlot) : (k.setSlot n t).ecc = k.ecc := rfl
@[simp] theorem Core.setSlot_inject (k : Core) (n : BitVec 4) (t : AckSlot) : (k.setSlot n t).inject = k.inject := rfl
@[simp] theorem Core.setSlot_requests (k : Core) (n : BitVec 4) (t : AckSlot) : (k.setSlot n t).requests = k.requests := rfl
@[simp] theorem Core.setSlot_arrived (k : Core) (n : BitVec 4) (t : AckSlot) : (k.setSlot n t).arrived = k.arrived := rfl
@[simp] theorem Core.setSlot_ep (k : Core) (n : BitVec 4) (t : AckSlot) : (k.setSlot n t).ep = k.ep := rfl
@[simp] theorem Core.setSlot_linkEps (k : Core) (n : BitVec 4) (t : AckSlot) : (k.setSlot n t).linkEps = k.linkEps := rfl
@[simp] theorem Core.setSlot_flumeIn (k : Core) (n : BitVec 4) (t : AckSlot) : (k.setSlot n t).flumeIn = k.flumeIn := rfl
@[simp] theorem Core.setSlot_contrib (k : Core) (n : BitVec 4) (t : AckSlot) : (k.setSlot n t).contrib = k.contrib := rfl
@[simp] theorem Core.setSlot_rowIn (k : Core) (n : BitVec 4) (t : AckSlot) : (k.setSlot n t).rowIn = k.rowIn := rfl
@[simp] theorem Core.setSlot_colIn (k : Core) (n : BitVec 4) (t : AckSlot) : (k.setSlot n t).colIn = k.colIn := rfl
@[simp] theorem Core.setSlot_flumeOut (k : Core) (n : BitVec 4) (t : AckSlot) : (k.setSlot n t).flumeOut = k.flumeOut := rfl
@[simp] theorem Core.setSlot_flumeSink (k : Core) (n : BitVec 4) (t : AckSlot) : (k.setSlot n t).flumeSink = k.flumeSink := rfl
@[simp] theorem Core.setSlot_progress (k : Core) (n : BitVec 4) (t : AckSlot) : (k.setSlot n t).progress = k.progress := rfl
@[simp] theorem Core.setSlot_still (k : Core) (n : BitVec 4) (t : AckSlot) : (k.setSlot n t).still = k.still := rfl
@[simp] theorem Core.setSlot_lastProgress (k : Core) (n : BitVec 4) (t : AckSlot) : (k.setSlot n t).lastProgress = k.lastProgress := rfl
@[simp] theorem Core.setSlot_placed (k : Core) (n : BitVec 4) (t : AckSlot) : (k.setSlot n t).placed = k.placed := rfl
@[simp] theorem Core.setSlot_testing (k : Core) (n : BitVec 4) (t : AckSlot) : (k.setSlot n t).testing = k.testing := rfl

/-! ### `Core.setEndpoint` -/

@[simp] theorem Core.setEndpoint_g (k : Core) (n : BitVec 3) (t : FlumeEp) : (k.setEndpoint n t).g = k.g := rfl
@[simp] theorem Core.setEndpoint_v (k : Core) (n : BitVec 3) (t : FlumeEp) : (k.setEndpoint n t).v = k.v := rfl
@[simp] theorem Core.setEndpoint_d (k : Core) (n : BitVec 3) (t : FlumeEp) : (k.setEndpoint n t).d = k.d := rfl
@[simp] theorem Core.setEndpoint_acc (k : Core) (n : BitVec 3) (t : FlumeEp) : (k.setEndpoint n t).acc = k.acc := rfl
@[simp] theorem Core.setEndpoint_kind (k : Core) (n : BitVec 3) (t : FlumeEp) : (k.setEndpoint n t).kind = k.kind := rfl
@[simp] theorem Core.setEndpoint_pc (k : Core) (n : BitVec 3) (t : FlumeEp) : (k.setEndpoint n t).pc = k.pc := rfl
@[simp] theorem Core.setEndpoint_ccnt (k : Core) (n : BitVec 3) (t : FlumeEp) : (k.setEndpoint n t).ccnt = k.ccnt := rfl
@[simp] theorem Core.setEndpoint_sync (k : Core) (n : BitVec 3) (t : FlumeEp) : (k.setEndpoint n t).sync = k.sync := rfl
@[simp] theorem Core.setEndpoint_mode (k : Core) (n : BitVec 3) (t : FlumeEp) : (k.setEndpoint n t).mode = k.mode := rfl
@[simp] theorem Core.setEndpoint_wait (k : Core) (n : BitVec 3) (t : FlumeEp) : (k.setEndpoint n t).wait = k.wait := rfl
@[simp] theorem Core.setEndpoint_halting (k : Core) (n : BitVec 3) (t : FlumeEp) : (k.setEndpoint n t).halting = k.halting := rfl
@[simp] theorem Core.setEndpoint_exitCode (k : Core) (n : BitVec 3) (t : FlumeEp) : (k.setEndpoint n t).exitCode = k.exitCode := rfl
@[simp] theorem Core.setEndpoint_exitValid (k : Core) (n : BitVec 3) (t : FlumeEp) : (k.setEndpoint n t).exitValid = k.exitValid := rfl
@[simp] theorem Core.setEndpoint_cycle (k : Core) (n : BitVec 3) (t : FlumeEp) : (k.setEndpoint n t).cycle = k.cycle := rfl
@[simp] theorem Core.setEndpoint_subn (k : Core) (n : BitVec 3) (t : FlumeEp) : (k.setEndpoint n t).subn = k.subn := rfl
@[simp] theorem Core.setEndpoint_sat (k : Core) (n : BitVec 3) (t : FlumeEp) : (k.setEndpoint n t).sat = k.sat := rfl
@[simp] theorem Core.setEndpoint_fpflags (k : Core) (n : BitVec 3) (t : FlumeEp) : (k.setEndpoint n t).fpflags = k.fpflags := rfl
@[simp] theorem Core.setEndpoint_partReg (k : Core) (n : BitVec 3) (t : FlumeEp) : (k.setEndpoint n t).partReg = k.partReg := rfl
@[simp] theorem Core.setEndpoint_sealed (k : Core) (n : BitVec 3) (t : FlumeEp) : (k.setEndpoint n t).sealed = k.sealed := rfl
@[simp] theorem Core.setEndpoint_detreq (k : Core) (n : BitVec 3) (t : FlumeEp) : (k.setEndpoint n t).detreq = k.detreq := rfl
@[simp] theorem Core.setEndpoint_trapCause (k : Core) (n : BitVec 3) (t : FlumeEp) : (k.setEndpoint n t).trapCause = k.trapCause := rfl
@[simp] theorem Core.setEndpoint_trapPc (k : Core) (n : BitVec 3) (t : FlumeEp) : (k.setEndpoint n t).trapPc = k.trapPc := rfl
@[simp] theorem Core.setEndpoint_trapVal (k : Core) (n : BitVec 3) (t : FlumeEp) : (k.setEndpoint n t).trapVal = k.trapVal := rfl
@[simp] theorem Core.setEndpoint_rtScratch (k : Core) (n : BitVec 3) (t : FlumeEp) : (k.setEndpoint n t).rtScratch = k.rtScratch := rfl
@[simp] theorem Core.setEndpoint_rtPc (k : Core) (n : BitVec 3) (t : FlumeEp) : (k.setEndpoint n t).rtPc = k.rtPc := rfl
@[simp] theorem Core.setEndpoint_service (k : Core) (n : BitVec 3) (t : FlumeEp) : (k.setEndpoint n t).service = k.service := rfl
@[simp] theorem Core.setEndpoint_debugStop (k : Core) (n : BitVec 3) (t : FlumeEp) : (k.setEndpoint n t).debugStop = k.debugStop := rfl
@[simp] theorem Core.setEndpoint_tq (k : Core) (n : BitVec 3) (t : FlumeEp) : (k.setEndpoint n t).tq = k.tq := rfl
@[simp] theorem Core.setEndpoint_nq (k : Core) (n : BitVec 3) (t : FlumeEp) : (k.setEndpoint n t).nq = k.nq := rfl
@[simp] theorem Core.setEndpoint_cq (k : Core) (n : BitVec 3) (t : FlumeEp) : (k.setEndpoint n t).cq = k.cq := rfl
@[simp] theorem Core.setEndpoint_slots (k : Core) (n : BitVec 3) (t : FlumeEp) : (k.setEndpoint n t).slots = k.slots := rfl
@[simp] theorem Core.setEndpoint_flowCount (k : Core) (n : BitVec 3) (t : FlumeEp) : (k.setEndpoint n t).flowCount = k.flowCount := rfl
@[simp] theorem Core.setEndpoint_reads (k : Core) (n : BitVec 3) (t : FlumeEp) : (k.setEndpoint n t).reads = k.reads := rfl
@[simp] theorem Core.setEndpoint_copies (k : Core) (n : BitVec 3) (t : FlumeEp) : (k.setEndpoint n t).copies = k.copies := rfl
@[simp] theorem Core.setEndpoint_ibuf (k : Core) (n : BitVec 3) (t : FlumeEp) : (k.setEndpoint n t).ibuf = k.ibuf := rfl
@[simp] theorem Core.setEndpoint_stores (k : Core) (n : BitVec 3) (t : FlumeEp) : (k.setEndpoint n t).stores = k.stores := rfl
@[simp] theorem Core.setEndpoint_landing (k : Core) (n : BitVec 3) (t : FlumeEp) : (k.setEndpoint n t).landing = k.landing := rfl
@[simp] theorem Core.setEndpoint_notice (k : Core) (n : BitVec 3) (t : FlumeEp) : (k.setEndpoint n t).notice = k.notice := rfl
@[simp] theorem Core.setEndpoint_powered (k : Core) (n : BitVec 3) (t : FlumeEp) : (k.setEndpoint n t).powered = k.powered := rfl
@[simp] theorem Core.setEndpoint_zeroising (k : Core) (n : BitVec 3) (t : FlumeEp) : (k.setEndpoint n t).zeroising = k.zeroising := rfl
@[simp] theorem Core.setEndpoint_zeroWait (k : Core) (n : BitVec 3) (t : FlumeEp) : (k.setEndpoint n t).zeroWait = k.zeroWait := rfl
@[simp] theorem Core.setEndpoint_ceCount (k : Core) (n : BitVec 3) (t : FlumeEp) : (k.setEndpoint n t).ceCount = k.ceCount := rfl
@[simp] theorem Core.setEndpoint_ue (k : Core) (n : BitVec 3) (t : FlumeEp) : (k.setEndpoint n t).ue = k.ue := rfl
@[simp] theorem Core.setEndpoint_banks (k : Core) (n : BitVec 3) (t : FlumeEp) : (k.setEndpoint n t).banks = k.banks := rfl
@[simp] theorem Core.setEndpoint_ecc (k : Core) (n : BitVec 3) (t : FlumeEp) : (k.setEndpoint n t).ecc = k.ecc := rfl
@[simp] theorem Core.setEndpoint_inject (k : Core) (n : BitVec 3) (t : FlumeEp) : (k.setEndpoint n t).inject = k.inject := rfl
@[simp] theorem Core.setEndpoint_requests (k : Core) (n : BitVec 3) (t : FlumeEp) : (k.setEndpoint n t).requests = k.requests := rfl
@[simp] theorem Core.setEndpoint_arrived (k : Core) (n : BitVec 3) (t : FlumeEp) : (k.setEndpoint n t).arrived = k.arrived := rfl
@[simp] theorem Core.setEndpoint_linkEps (k : Core) (n : BitVec 3) (t : FlumeEp) : (k.setEndpoint n t).linkEps = k.linkEps := rfl
@[simp] theorem Core.setEndpoint_flumeIn (k : Core) (n : BitVec 3) (t : FlumeEp) : (k.setEndpoint n t).flumeIn = k.flumeIn := rfl
@[simp] theorem Core.setEndpoint_contrib (k : Core) (n : BitVec 3) (t : FlumeEp) : (k.setEndpoint n t).contrib = k.contrib := rfl
@[simp] theorem Core.setEndpoint_rowIn (k : Core) (n : BitVec 3) (t : FlumeEp) : (k.setEndpoint n t).rowIn = k.rowIn := rfl
@[simp] theorem Core.setEndpoint_colIn (k : Core) (n : BitVec 3) (t : FlumeEp) : (k.setEndpoint n t).colIn = k.colIn := rfl
@[simp] theorem Core.setEndpoint_flumeOut (k : Core) (n : BitVec 3) (t : FlumeEp) : (k.setEndpoint n t).flumeOut = k.flumeOut := rfl
@[simp] theorem Core.setEndpoint_flumeSink (k : Core) (n : BitVec 3) (t : FlumeEp) : (k.setEndpoint n t).flumeSink = k.flumeSink := rfl
@[simp] theorem Core.setEndpoint_progress (k : Core) (n : BitVec 3) (t : FlumeEp) : (k.setEndpoint n t).progress = k.progress := rfl
@[simp] theorem Core.setEndpoint_still (k : Core) (n : BitVec 3) (t : FlumeEp) : (k.setEndpoint n t).still = k.still := rfl
@[simp] theorem Core.setEndpoint_lastProgress (k : Core) (n : BitVec 3) (t : FlumeEp) : (k.setEndpoint n t).lastProgress = k.lastProgress := rfl
@[simp] theorem Core.setEndpoint_placed (k : Core) (n : BitVec 3) (t : FlumeEp) : (k.setEndpoint n t).placed = k.placed := rfl
@[simp] theorem Core.setEndpoint_testing (k : Core) (n : BitVec 3) (t : FlumeEp) : (k.setEndpoint n t).testing = k.testing := rfl

/-! ### `Core.progressed` -/

@[simp] theorem Core.progressed_g (k : Core) : (k.progressed).g = k.g := rfl
@[simp] theorem Core.progressed_v (k : Core) : (k.progressed).v = k.v := rfl
@[simp] theorem Core.progressed_d (k : Core) : (k.progressed).d = k.d := rfl
@[simp] theorem Core.progressed_acc (k : Core) : (k.progressed).acc = k.acc := rfl
@[simp] theorem Core.progressed_kind (k : Core) : (k.progressed).kind = k.kind := rfl
@[simp] theorem Core.progressed_pc (k : Core) : (k.progressed).pc = k.pc := rfl
@[simp] theorem Core.progressed_ccnt (k : Core) : (k.progressed).ccnt = k.ccnt := rfl
@[simp] theorem Core.progressed_sync (k : Core) : (k.progressed).sync = k.sync := rfl
@[simp] theorem Core.progressed_mode (k : Core) : (k.progressed).mode = k.mode := rfl
@[simp] theorem Core.progressed_wait (k : Core) : (k.progressed).wait = k.wait := rfl
@[simp] theorem Core.progressed_halting (k : Core) : (k.progressed).halting = k.halting := rfl
@[simp] theorem Core.progressed_exitCode (k : Core) : (k.progressed).exitCode = k.exitCode := rfl
@[simp] theorem Core.progressed_exitValid (k : Core) : (k.progressed).exitValid = k.exitValid := rfl
@[simp] theorem Core.progressed_cycle (k : Core) : (k.progressed).cycle = k.cycle := rfl
@[simp] theorem Core.progressed_subn (k : Core) : (k.progressed).subn = k.subn := rfl
@[simp] theorem Core.progressed_sat (k : Core) : (k.progressed).sat = k.sat := rfl
@[simp] theorem Core.progressed_fpflags (k : Core) : (k.progressed).fpflags = k.fpflags := rfl
@[simp] theorem Core.progressed_partReg (k : Core) : (k.progressed).partReg = k.partReg := rfl
@[simp] theorem Core.progressed_sealed (k : Core) : (k.progressed).sealed = k.sealed := rfl
@[simp] theorem Core.progressed_detreq (k : Core) : (k.progressed).detreq = k.detreq := rfl
@[simp] theorem Core.progressed_trapCause (k : Core) : (k.progressed).trapCause = k.trapCause := rfl
@[simp] theorem Core.progressed_trapPc (k : Core) : (k.progressed).trapPc = k.trapPc := rfl
@[simp] theorem Core.progressed_trapVal (k : Core) : (k.progressed).trapVal = k.trapVal := rfl
@[simp] theorem Core.progressed_rtScratch (k : Core) : (k.progressed).rtScratch = k.rtScratch := rfl
@[simp] theorem Core.progressed_rtPc (k : Core) : (k.progressed).rtPc = k.rtPc := rfl
@[simp] theorem Core.progressed_service (k : Core) : (k.progressed).service = k.service := rfl
@[simp] theorem Core.progressed_debugStop (k : Core) : (k.progressed).debugStop = k.debugStop := rfl
@[simp] theorem Core.progressed_tq (k : Core) : (k.progressed).tq = k.tq := rfl
@[simp] theorem Core.progressed_nq (k : Core) : (k.progressed).nq = k.nq := rfl
@[simp] theorem Core.progressed_cq (k : Core) : (k.progressed).cq = k.cq := rfl
@[simp] theorem Core.progressed_slots (k : Core) : (k.progressed).slots = k.slots := rfl
@[simp] theorem Core.progressed_flowCount (k : Core) : (k.progressed).flowCount = k.flowCount := rfl
@[simp] theorem Core.progressed_reads (k : Core) : (k.progressed).reads = k.reads := rfl
@[simp] theorem Core.progressed_copies (k : Core) : (k.progressed).copies = k.copies := rfl
@[simp] theorem Core.progressed_ibuf (k : Core) : (k.progressed).ibuf = k.ibuf := rfl
@[simp] theorem Core.progressed_stores (k : Core) : (k.progressed).stores = k.stores := rfl
@[simp] theorem Core.progressed_landing (k : Core) : (k.progressed).landing = k.landing := rfl
@[simp] theorem Core.progressed_notice (k : Core) : (k.progressed).notice = k.notice := rfl
@[simp] theorem Core.progressed_powered (k : Core) : (k.progressed).powered = k.powered := rfl
@[simp] theorem Core.progressed_zeroising (k : Core) : (k.progressed).zeroising = k.zeroising := rfl
@[simp] theorem Core.progressed_zeroWait (k : Core) : (k.progressed).zeroWait = k.zeroWait := rfl
@[simp] theorem Core.progressed_ceCount (k : Core) : (k.progressed).ceCount = k.ceCount := rfl
@[simp] theorem Core.progressed_ue (k : Core) : (k.progressed).ue = k.ue := rfl
@[simp] theorem Core.progressed_banks (k : Core) : (k.progressed).banks = k.banks := rfl
@[simp] theorem Core.progressed_ecc (k : Core) : (k.progressed).ecc = k.ecc := rfl
@[simp] theorem Core.progressed_inject (k : Core) : (k.progressed).inject = k.inject := rfl
@[simp] theorem Core.progressed_requests (k : Core) : (k.progressed).requests = k.requests := rfl
@[simp] theorem Core.progressed_arrived (k : Core) : (k.progressed).arrived = k.arrived := rfl
@[simp] theorem Core.progressed_ep (k : Core) : (k.progressed).ep = k.ep := rfl
@[simp] theorem Core.progressed_linkEps (k : Core) : (k.progressed).linkEps = k.linkEps := rfl
@[simp] theorem Core.progressed_flumeIn (k : Core) : (k.progressed).flumeIn = k.flumeIn := rfl
@[simp] theorem Core.progressed_contrib (k : Core) : (k.progressed).contrib = k.contrib := rfl
@[simp] theorem Core.progressed_rowIn (k : Core) : (k.progressed).rowIn = k.rowIn := rfl
@[simp] theorem Core.progressed_colIn (k : Core) : (k.progressed).colIn = k.colIn := rfl
@[simp] theorem Core.progressed_flumeOut (k : Core) : (k.progressed).flumeOut = k.flumeOut := rfl
@[simp] theorem Core.progressed_flumeSink (k : Core) : (k.progressed).flumeSink = k.flumeSink := rfl
@[simp] theorem Core.progressed_still (k : Core) : (k.progressed).still = k.still := rfl
@[simp] theorem Core.progressed_lastProgress (k : Core) : (k.progressed).lastProgress = k.lastProgress := rfl
@[simp] theorem Core.progressed_placed (k : Core) : (k.progressed).placed = k.placed := rfl
@[simp] theorem Core.progressed_testing (k : Core) : (k.progressed).testing = k.testing := rfl

/-! ### `Core.raise` -/

@[simp] theorem Core.raise_g (k : Core) (f : FpFlags) : (k.raise f).g = k.g := rfl
@[simp] theorem Core.raise_v (k : Core) (f : FpFlags) : (k.raise f).v = k.v := rfl
@[simp] theorem Core.raise_d (k : Core) (f : FpFlags) : (k.raise f).d = k.d := rfl
@[simp] theorem Core.raise_acc (k : Core) (f : FpFlags) : (k.raise f).acc = k.acc := rfl
@[simp] theorem Core.raise_kind (k : Core) (f : FpFlags) : (k.raise f).kind = k.kind := rfl
@[simp] theorem Core.raise_pc (k : Core) (f : FpFlags) : (k.raise f).pc = k.pc := rfl
@[simp] theorem Core.raise_ccnt (k : Core) (f : FpFlags) : (k.raise f).ccnt = k.ccnt := rfl
@[simp] theorem Core.raise_sync (k : Core) (f : FpFlags) : (k.raise f).sync = k.sync := rfl
@[simp] theorem Core.raise_mode (k : Core) (f : FpFlags) : (k.raise f).mode = k.mode := rfl
@[simp] theorem Core.raise_wait (k : Core) (f : FpFlags) : (k.raise f).wait = k.wait := rfl
@[simp] theorem Core.raise_halting (k : Core) (f : FpFlags) : (k.raise f).halting = k.halting := rfl
@[simp] theorem Core.raise_exitCode (k : Core) (f : FpFlags) : (k.raise f).exitCode = k.exitCode := rfl
@[simp] theorem Core.raise_exitValid (k : Core) (f : FpFlags) : (k.raise f).exitValid = k.exitValid := rfl
@[simp] theorem Core.raise_cycle (k : Core) (f : FpFlags) : (k.raise f).cycle = k.cycle := rfl
@[simp] theorem Core.raise_subn (k : Core) (f : FpFlags) : (k.raise f).subn = k.subn := rfl
@[simp] theorem Core.raise_sat (k : Core) (f : FpFlags) : (k.raise f).sat = k.sat := rfl
@[simp] theorem Core.raise_partReg (k : Core) (f : FpFlags) : (k.raise f).partReg = k.partReg := rfl
@[simp] theorem Core.raise_sealed (k : Core) (f : FpFlags) : (k.raise f).sealed = k.sealed := rfl
@[simp] theorem Core.raise_detreq (k : Core) (f : FpFlags) : (k.raise f).detreq = k.detreq := rfl
@[simp] theorem Core.raise_trapCause (k : Core) (f : FpFlags) : (k.raise f).trapCause = k.trapCause := rfl
@[simp] theorem Core.raise_trapPc (k : Core) (f : FpFlags) : (k.raise f).trapPc = k.trapPc := rfl
@[simp] theorem Core.raise_trapVal (k : Core) (f : FpFlags) : (k.raise f).trapVal = k.trapVal := rfl
@[simp] theorem Core.raise_rtScratch (k : Core) (f : FpFlags) : (k.raise f).rtScratch = k.rtScratch := rfl
@[simp] theorem Core.raise_rtPc (k : Core) (f : FpFlags) : (k.raise f).rtPc = k.rtPc := rfl
@[simp] theorem Core.raise_service (k : Core) (f : FpFlags) : (k.raise f).service = k.service := rfl
@[simp] theorem Core.raise_debugStop (k : Core) (f : FpFlags) : (k.raise f).debugStop = k.debugStop := rfl
@[simp] theorem Core.raise_tq (k : Core) (f : FpFlags) : (k.raise f).tq = k.tq := rfl
@[simp] theorem Core.raise_nq (k : Core) (f : FpFlags) : (k.raise f).nq = k.nq := rfl
@[simp] theorem Core.raise_cq (k : Core) (f : FpFlags) : (k.raise f).cq = k.cq := rfl
@[simp] theorem Core.raise_slots (k : Core) (f : FpFlags) : (k.raise f).slots = k.slots := rfl
@[simp] theorem Core.raise_flowCount (k : Core) (f : FpFlags) : (k.raise f).flowCount = k.flowCount := rfl
@[simp] theorem Core.raise_reads (k : Core) (f : FpFlags) : (k.raise f).reads = k.reads := rfl
@[simp] theorem Core.raise_copies (k : Core) (f : FpFlags) : (k.raise f).copies = k.copies := rfl
@[simp] theorem Core.raise_ibuf (k : Core) (f : FpFlags) : (k.raise f).ibuf = k.ibuf := rfl
@[simp] theorem Core.raise_stores (k : Core) (f : FpFlags) : (k.raise f).stores = k.stores := rfl
@[simp] theorem Core.raise_landing (k : Core) (f : FpFlags) : (k.raise f).landing = k.landing := rfl
@[simp] theorem Core.raise_notice (k : Core) (f : FpFlags) : (k.raise f).notice = k.notice := rfl
@[simp] theorem Core.raise_powered (k : Core) (f : FpFlags) : (k.raise f).powered = k.powered := rfl
@[simp] theorem Core.raise_zeroising (k : Core) (f : FpFlags) : (k.raise f).zeroising = k.zeroising := rfl
@[simp] theorem Core.raise_zeroWait (k : Core) (f : FpFlags) : (k.raise f).zeroWait = k.zeroWait := rfl
@[simp] theorem Core.raise_ceCount (k : Core) (f : FpFlags) : (k.raise f).ceCount = k.ceCount := rfl
@[simp] theorem Core.raise_ue (k : Core) (f : FpFlags) : (k.raise f).ue = k.ue := rfl
@[simp] theorem Core.raise_banks (k : Core) (f : FpFlags) : (k.raise f).banks = k.banks := rfl
@[simp] theorem Core.raise_ecc (k : Core) (f : FpFlags) : (k.raise f).ecc = k.ecc := rfl
@[simp] theorem Core.raise_inject (k : Core) (f : FpFlags) : (k.raise f).inject = k.inject := rfl
@[simp] theorem Core.raise_requests (k : Core) (f : FpFlags) : (k.raise f).requests = k.requests := rfl
@[simp] theorem Core.raise_arrived (k : Core) (f : FpFlags) : (k.raise f).arrived = k.arrived := rfl
@[simp] theorem Core.raise_ep (k : Core) (f : FpFlags) : (k.raise f).ep = k.ep := rfl
@[simp] theorem Core.raise_linkEps (k : Core) (f : FpFlags) : (k.raise f).linkEps = k.linkEps := rfl
@[simp] theorem Core.raise_flumeIn (k : Core) (f : FpFlags) : (k.raise f).flumeIn = k.flumeIn := rfl
@[simp] theorem Core.raise_contrib (k : Core) (f : FpFlags) : (k.raise f).contrib = k.contrib := rfl
@[simp] theorem Core.raise_rowIn (k : Core) (f : FpFlags) : (k.raise f).rowIn = k.rowIn := rfl
@[simp] theorem Core.raise_colIn (k : Core) (f : FpFlags) : (k.raise f).colIn = k.colIn := rfl
@[simp] theorem Core.raise_flumeOut (k : Core) (f : FpFlags) : (k.raise f).flumeOut = k.flumeOut := rfl
@[simp] theorem Core.raise_flumeSink (k : Core) (f : FpFlags) : (k.raise f).flumeSink = k.flumeSink := rfl
@[simp] theorem Core.raise_progress (k : Core) (f : FpFlags) : (k.raise f).progress = k.progress := rfl
@[simp] theorem Core.raise_still (k : Core) (f : FpFlags) : (k.raise f).still = k.still := rfl
@[simp] theorem Core.raise_lastProgress (k : Core) (f : FpFlags) : (k.raise f).lastProgress = k.lastProgress := rfl
@[simp] theorem Core.raise_placed (k : Core) (f : FpFlags) : (k.raise f).placed = k.placed := rfl
@[simp] theorem Core.raise_testing (k : Core) (f : FpFlags) : (k.raise f).testing = k.testing := rfl

/-! ### `Core.granted` -/

@[simp] theorem Core.granted_g (k : Core) (port off len : Nat) : (k.granted port off len).g = k.g := rfl
@[simp] theorem Core.granted_v (k : Core) (port off len : Nat) : (k.granted port off len).v = k.v := rfl
@[simp] theorem Core.granted_d (k : Core) (port off len : Nat) : (k.granted port off len).d = k.d := rfl
@[simp] theorem Core.granted_acc (k : Core) (port off len : Nat) : (k.granted port off len).acc = k.acc := rfl
@[simp] theorem Core.granted_kind (k : Core) (port off len : Nat) : (k.granted port off len).kind = k.kind := rfl
@[simp] theorem Core.granted_pc (k : Core) (port off len : Nat) : (k.granted port off len).pc = k.pc := rfl
@[simp] theorem Core.granted_ccnt (k : Core) (port off len : Nat) : (k.granted port off len).ccnt = k.ccnt := rfl
@[simp] theorem Core.granted_sync (k : Core) (port off len : Nat) : (k.granted port off len).sync = k.sync := rfl
@[simp] theorem Core.granted_mode (k : Core) (port off len : Nat) : (k.granted port off len).mode = k.mode := rfl
@[simp] theorem Core.granted_wait (k : Core) (port off len : Nat) : (k.granted port off len).wait = k.wait := rfl
@[simp] theorem Core.granted_halting (k : Core) (port off len : Nat) : (k.granted port off len).halting = k.halting := rfl
@[simp] theorem Core.granted_exitCode (k : Core) (port off len : Nat) : (k.granted port off len).exitCode = k.exitCode := rfl
@[simp] theorem Core.granted_exitValid (k : Core) (port off len : Nat) : (k.granted port off len).exitValid = k.exitValid := rfl
@[simp] theorem Core.granted_cycle (k : Core) (port off len : Nat) : (k.granted port off len).cycle = k.cycle := rfl
@[simp] theorem Core.granted_subn (k : Core) (port off len : Nat) : (k.granted port off len).subn = k.subn := rfl
@[simp] theorem Core.granted_sat (k : Core) (port off len : Nat) : (k.granted port off len).sat = k.sat := rfl
@[simp] theorem Core.granted_fpflags (k : Core) (port off len : Nat) : (k.granted port off len).fpflags = k.fpflags := rfl
@[simp] theorem Core.granted_partReg (k : Core) (port off len : Nat) : (k.granted port off len).partReg = k.partReg := rfl
@[simp] theorem Core.granted_sealed (k : Core) (port off len : Nat) : (k.granted port off len).sealed = k.sealed := rfl
@[simp] theorem Core.granted_detreq (k : Core) (port off len : Nat) : (k.granted port off len).detreq = k.detreq := rfl
@[simp] theorem Core.granted_trapCause (k : Core) (port off len : Nat) : (k.granted port off len).trapCause = k.trapCause := rfl
@[simp] theorem Core.granted_trapPc (k : Core) (port off len : Nat) : (k.granted port off len).trapPc = k.trapPc := rfl
@[simp] theorem Core.granted_trapVal (k : Core) (port off len : Nat) : (k.granted port off len).trapVal = k.trapVal := rfl
@[simp] theorem Core.granted_rtScratch (k : Core) (port off len : Nat) : (k.granted port off len).rtScratch = k.rtScratch := rfl
@[simp] theorem Core.granted_rtPc (k : Core) (port off len : Nat) : (k.granted port off len).rtPc = k.rtPc := rfl
@[simp] theorem Core.granted_service (k : Core) (port off len : Nat) : (k.granted port off len).service = k.service := rfl
@[simp] theorem Core.granted_debugStop (k : Core) (port off len : Nat) : (k.granted port off len).debugStop = k.debugStop := rfl
@[simp] theorem Core.granted_tq (k : Core) (port off len : Nat) : (k.granted port off len).tq = k.tq := rfl
@[simp] theorem Core.granted_nq (k : Core) (port off len : Nat) : (k.granted port off len).nq = k.nq := rfl
@[simp] theorem Core.granted_cq (k : Core) (port off len : Nat) : (k.granted port off len).cq = k.cq := rfl
@[simp] theorem Core.granted_slots (k : Core) (port off len : Nat) : (k.granted port off len).slots = k.slots := rfl
@[simp] theorem Core.granted_flowCount (k : Core) (port off len : Nat) : (k.granted port off len).flowCount = k.flowCount := rfl
@[simp] theorem Core.granted_reads (k : Core) (port off len : Nat) : (k.granted port off len).reads = k.reads := rfl
@[simp] theorem Core.granted_copies (k : Core) (port off len : Nat) : (k.granted port off len).copies = k.copies := rfl
@[simp] theorem Core.granted_ibuf (k : Core) (port off len : Nat) : (k.granted port off len).ibuf = k.ibuf := rfl
@[simp] theorem Core.granted_stores (k : Core) (port off len : Nat) : (k.granted port off len).stores = k.stores := rfl
@[simp] theorem Core.granted_landing (k : Core) (port off len : Nat) : (k.granted port off len).landing = k.landing := rfl
@[simp] theorem Core.granted_notice (k : Core) (port off len : Nat) : (k.granted port off len).notice = k.notice := rfl
@[simp] theorem Core.granted_powered (k : Core) (port off len : Nat) : (k.granted port off len).powered = k.powered := rfl
@[simp] theorem Core.granted_zeroising (k : Core) (port off len : Nat) : (k.granted port off len).zeroising = k.zeroising := rfl
@[simp] theorem Core.granted_zeroWait (k : Core) (port off len : Nat) : (k.granted port off len).zeroWait = k.zeroWait := rfl
@[simp] theorem Core.granted_ceCount (k : Core) (port off len : Nat) : (k.granted port off len).ceCount = k.ceCount := rfl
@[simp] theorem Core.granted_ue (k : Core) (port off len : Nat) : (k.granted port off len).ue = k.ue := rfl
@[simp] theorem Core.granted_ecc (k : Core) (port off len : Nat) : (k.granted port off len).ecc = k.ecc := rfl
@[simp] theorem Core.granted_inject (k : Core) (port off len : Nat) : (k.granted port off len).inject = k.inject := rfl
@[simp] theorem Core.granted_requests (k : Core) (port off len : Nat) : (k.granted port off len).requests = k.requests := rfl
@[simp] theorem Core.granted_arrived (k : Core) (port off len : Nat) : (k.granted port off len).arrived = k.arrived := rfl
@[simp] theorem Core.granted_ep (k : Core) (port off len : Nat) : (k.granted port off len).ep = k.ep := rfl
@[simp] theorem Core.granted_linkEps (k : Core) (port off len : Nat) : (k.granted port off len).linkEps = k.linkEps := rfl
@[simp] theorem Core.granted_flumeIn (k : Core) (port off len : Nat) : (k.granted port off len).flumeIn = k.flumeIn := rfl
@[simp] theorem Core.granted_contrib (k : Core) (port off len : Nat) : (k.granted port off len).contrib = k.contrib := rfl
@[simp] theorem Core.granted_rowIn (k : Core) (port off len : Nat) : (k.granted port off len).rowIn = k.rowIn := rfl
@[simp] theorem Core.granted_colIn (k : Core) (port off len : Nat) : (k.granted port off len).colIn = k.colIn := rfl
@[simp] theorem Core.granted_flumeOut (k : Core) (port off len : Nat) : (k.granted port off len).flumeOut = k.flumeOut := rfl
@[simp] theorem Core.granted_flumeSink (k : Core) (port off len : Nat) : (k.granted port off len).flumeSink = k.flumeSink := rfl
@[simp] theorem Core.granted_progress (k : Core) (port off len : Nat) : (k.granted port off len).progress = k.progress := rfl
@[simp] theorem Core.granted_still (k : Core) (port off len : Nat) : (k.granted port off len).still = k.still := rfl
@[simp] theorem Core.granted_lastProgress (k : Core) (port off len : Nat) : (k.granted port off len).lastProgress = k.lastProgress := rfl
@[simp] theorem Core.granted_placed (k : Core) (port off len : Nat) : (k.granted port off len).placed = k.placed := rfl
@[simp] theorem Core.granted_testing (k : Core) (port off len : Nat) : (k.granted port off len).testing = k.testing := rfl

/-! ### `Core.touchLine` -/

@[simp] theorem Core.touchLine_g (k : Core) (l : BitVec 13) : (k.touchLine l).g = k.g := by
  unfold Core.touchLine; split <;> rfl
@[simp] theorem Core.touchLine_v (k : Core) (l : BitVec 13) : (k.touchLine l).v = k.v := by
  unfold Core.touchLine; split <;> rfl
@[simp] theorem Core.touchLine_d (k : Core) (l : BitVec 13) : (k.touchLine l).d = k.d := by
  unfold Core.touchLine; split <;> rfl
@[simp] theorem Core.touchLine_acc (k : Core) (l : BitVec 13) : (k.touchLine l).acc = k.acc := by
  unfold Core.touchLine; split <;> rfl
@[simp] theorem Core.touchLine_kind (k : Core) (l : BitVec 13) : (k.touchLine l).kind = k.kind := by
  unfold Core.touchLine; split <;> rfl
@[simp] theorem Core.touchLine_pc (k : Core) (l : BitVec 13) : (k.touchLine l).pc = k.pc := by
  unfold Core.touchLine; split <;> rfl
@[simp] theorem Core.touchLine_ccnt (k : Core) (l : BitVec 13) : (k.touchLine l).ccnt = k.ccnt := by
  unfold Core.touchLine; split <;> rfl
@[simp] theorem Core.touchLine_sync (k : Core) (l : BitVec 13) : (k.touchLine l).sync = k.sync := by
  unfold Core.touchLine; split <;> rfl
@[simp] theorem Core.touchLine_mode (k : Core) (l : BitVec 13) : (k.touchLine l).mode = k.mode := by
  unfold Core.touchLine; split <;> rfl
@[simp] theorem Core.touchLine_wait (k : Core) (l : BitVec 13) : (k.touchLine l).wait = k.wait := by
  unfold Core.touchLine; split <;> rfl
@[simp] theorem Core.touchLine_halting (k : Core) (l : BitVec 13) : (k.touchLine l).halting = k.halting := by
  unfold Core.touchLine; split <;> rfl
@[simp] theorem Core.touchLine_exitCode (k : Core) (l : BitVec 13) : (k.touchLine l).exitCode = k.exitCode := by
  unfold Core.touchLine; split <;> rfl
@[simp] theorem Core.touchLine_exitValid (k : Core) (l : BitVec 13) : (k.touchLine l).exitValid = k.exitValid := by
  unfold Core.touchLine; split <;> rfl
@[simp] theorem Core.touchLine_cycle (k : Core) (l : BitVec 13) : (k.touchLine l).cycle = k.cycle := by
  unfold Core.touchLine; split <;> rfl
@[simp] theorem Core.touchLine_subn (k : Core) (l : BitVec 13) : (k.touchLine l).subn = k.subn := by
  unfold Core.touchLine; split <;> rfl
@[simp] theorem Core.touchLine_sat (k : Core) (l : BitVec 13) : (k.touchLine l).sat = k.sat := by
  unfold Core.touchLine; split <;> rfl
@[simp] theorem Core.touchLine_fpflags (k : Core) (l : BitVec 13) : (k.touchLine l).fpflags = k.fpflags := by
  unfold Core.touchLine; split <;> rfl
@[simp] theorem Core.touchLine_partReg (k : Core) (l : BitVec 13) : (k.touchLine l).partReg = k.partReg := by
  unfold Core.touchLine; split <;> rfl
@[simp] theorem Core.touchLine_sealed (k : Core) (l : BitVec 13) : (k.touchLine l).sealed = k.sealed := by
  unfold Core.touchLine; split <;> rfl
@[simp] theorem Core.touchLine_detreq (k : Core) (l : BitVec 13) : (k.touchLine l).detreq = k.detreq := by
  unfold Core.touchLine; split <;> rfl
@[simp] theorem Core.touchLine_trapCause (k : Core) (l : BitVec 13) : (k.touchLine l).trapCause = k.trapCause := by
  unfold Core.touchLine; split <;> rfl
@[simp] theorem Core.touchLine_trapPc (k : Core) (l : BitVec 13) : (k.touchLine l).trapPc = k.trapPc := by
  unfold Core.touchLine; split <;> rfl
@[simp] theorem Core.touchLine_trapVal (k : Core) (l : BitVec 13) : (k.touchLine l).trapVal = k.trapVal := by
  unfold Core.touchLine; split <;> rfl
@[simp] theorem Core.touchLine_rtScratch (k : Core) (l : BitVec 13) : (k.touchLine l).rtScratch = k.rtScratch := by
  unfold Core.touchLine; split <;> rfl
@[simp] theorem Core.touchLine_rtPc (k : Core) (l : BitVec 13) : (k.touchLine l).rtPc = k.rtPc := by
  unfold Core.touchLine; split <;> rfl
@[simp] theorem Core.touchLine_service (k : Core) (l : BitVec 13) : (k.touchLine l).service = k.service := by
  unfold Core.touchLine; split <;> rfl
@[simp] theorem Core.touchLine_debugStop (k : Core) (l : BitVec 13) : (k.touchLine l).debugStop = k.debugStop := by
  unfold Core.touchLine; split <;> rfl
@[simp] theorem Core.touchLine_tq (k : Core) (l : BitVec 13) : (k.touchLine l).tq = k.tq := by
  unfold Core.touchLine; split <;> rfl
@[simp] theorem Core.touchLine_nq (k : Core) (l : BitVec 13) : (k.touchLine l).nq = k.nq := by
  unfold Core.touchLine; split <;> rfl
@[simp] theorem Core.touchLine_cq (k : Core) (l : BitVec 13) : (k.touchLine l).cq = k.cq := by
  unfold Core.touchLine; split <;> rfl
@[simp] theorem Core.touchLine_slots (k : Core) (l : BitVec 13) : (k.touchLine l).slots = k.slots := by
  unfold Core.touchLine; split <;> rfl
@[simp] theorem Core.touchLine_flowCount (k : Core) (l : BitVec 13) : (k.touchLine l).flowCount = k.flowCount := by
  unfold Core.touchLine; split <;> rfl
@[simp] theorem Core.touchLine_reads (k : Core) (l : BitVec 13) : (k.touchLine l).reads = k.reads := by
  unfold Core.touchLine; split <;> rfl
@[simp] theorem Core.touchLine_copies (k : Core) (l : BitVec 13) : (k.touchLine l).copies = k.copies := by
  unfold Core.touchLine; split <;> rfl
@[simp] theorem Core.touchLine_stores (k : Core) (l : BitVec 13) : (k.touchLine l).stores = k.stores := by
  unfold Core.touchLine; split <;> rfl
@[simp] theorem Core.touchLine_landing (k : Core) (l : BitVec 13) : (k.touchLine l).landing = k.landing := by
  unfold Core.touchLine; split <;> rfl
@[simp] theorem Core.touchLine_notice (k : Core) (l : BitVec 13) : (k.touchLine l).notice = k.notice := by
  unfold Core.touchLine; split <;> rfl
@[simp] theorem Core.touchLine_powered (k : Core) (l : BitVec 13) : (k.touchLine l).powered = k.powered := by
  unfold Core.touchLine; split <;> rfl
@[simp] theorem Core.touchLine_zeroising (k : Core) (l : BitVec 13) : (k.touchLine l).zeroising = k.zeroising := by
  unfold Core.touchLine; split <;> rfl
@[simp] theorem Core.touchLine_zeroWait (k : Core) (l : BitVec 13) : (k.touchLine l).zeroWait = k.zeroWait := by
  unfold Core.touchLine; split <;> rfl
@[simp] theorem Core.touchLine_ceCount (k : Core) (l : BitVec 13) : (k.touchLine l).ceCount = k.ceCount := by
  unfold Core.touchLine; split <;> rfl
@[simp] theorem Core.touchLine_ue (k : Core) (l : BitVec 13) : (k.touchLine l).ue = k.ue := by
  unfold Core.touchLine; split <;> rfl
@[simp] theorem Core.touchLine_banks (k : Core) (l : BitVec 13) : (k.touchLine l).banks = k.banks := by
  unfold Core.touchLine; split <;> rfl
@[simp] theorem Core.touchLine_ecc (k : Core) (l : BitVec 13) : (k.touchLine l).ecc = k.ecc := by
  unfold Core.touchLine; split <;> rfl
@[simp] theorem Core.touchLine_inject (k : Core) (l : BitVec 13) : (k.touchLine l).inject = k.inject := by
  unfold Core.touchLine; split <;> rfl
@[simp] theorem Core.touchLine_requests (k : Core) (l : BitVec 13) : (k.touchLine l).requests = k.requests := by
  unfold Core.touchLine; split <;> rfl
@[simp] theorem Core.touchLine_arrived (k : Core) (l : BitVec 13) : (k.touchLine l).arrived = k.arrived := by
  unfold Core.touchLine; split <;> rfl
@[simp] theorem Core.touchLine_ep (k : Core) (l : BitVec 13) : (k.touchLine l).ep = k.ep := by
  unfold Core.touchLine; split <;> rfl
@[simp] theorem Core.touchLine_linkEps (k : Core) (l : BitVec 13) : (k.touchLine l).linkEps = k.linkEps := by
  unfold Core.touchLine; split <;> rfl
@[simp] theorem Core.touchLine_flumeIn (k : Core) (l : BitVec 13) : (k.touchLine l).flumeIn = k.flumeIn := by
  unfold Core.touchLine; split <;> rfl
@[simp] theorem Core.touchLine_contrib (k : Core) (l : BitVec 13) : (k.touchLine l).contrib = k.contrib := by
  unfold Core.touchLine; split <;> rfl
@[simp] theorem Core.touchLine_rowIn (k : Core) (l : BitVec 13) : (k.touchLine l).rowIn = k.rowIn := by
  unfold Core.touchLine; split <;> rfl
@[simp] theorem Core.touchLine_colIn (k : Core) (l : BitVec 13) : (k.touchLine l).colIn = k.colIn := by
  unfold Core.touchLine; split <;> rfl
@[simp] theorem Core.touchLine_flumeOut (k : Core) (l : BitVec 13) : (k.touchLine l).flumeOut = k.flumeOut := by
  unfold Core.touchLine; split <;> rfl
@[simp] theorem Core.touchLine_flumeSink (k : Core) (l : BitVec 13) : (k.touchLine l).flumeSink = k.flumeSink := by
  unfold Core.touchLine; split <;> rfl
@[simp] theorem Core.touchLine_progress (k : Core) (l : BitVec 13) : (k.touchLine l).progress = k.progress := by
  unfold Core.touchLine; split <;> rfl
@[simp] theorem Core.touchLine_still (k : Core) (l : BitVec 13) : (k.touchLine l).still = k.still := by
  unfold Core.touchLine; split <;> rfl
@[simp] theorem Core.touchLine_lastProgress (k : Core) (l : BitVec 13) : (k.touchLine l).lastProgress = k.lastProgress := by
  unfold Core.touchLine; split <;> rfl
@[simp] theorem Core.touchLine_placed (k : Core) (l : BitVec 13) : (k.touchLine l).placed = k.placed := by
  unfold Core.touchLine; split <;> rfl
@[simp] theorem Core.touchLine_testing (k : Core) (l : BitVec 13) : (k.touchLine l).testing = k.testing := by
  unfold Core.touchLine; split <;> rfl

/-! ### `Core.issued` -/

@[simp] theorem Core.issued_g (k : Core) : (k.issued).g = k.g := by
  unfold Core.issued Core.touchLine; split <;> rfl
@[simp] theorem Core.issued_v (k : Core) : (k.issued).v = k.v := by
  unfold Core.issued Core.touchLine; split <;> rfl
@[simp] theorem Core.issued_d (k : Core) : (k.issued).d = k.d := by
  unfold Core.issued Core.touchLine; split <;> rfl
@[simp] theorem Core.issued_acc (k : Core) : (k.issued).acc = k.acc := by
  unfold Core.issued Core.touchLine; split <;> rfl
@[simp] theorem Core.issued_kind (k : Core) : (k.issued).kind = k.kind := by
  unfold Core.issued Core.touchLine; split <;> rfl
@[simp] theorem Core.issued_pc (k : Core) : (k.issued).pc = k.pc := by
  unfold Core.issued Core.touchLine; split <;> rfl
@[simp] theorem Core.issued_ccnt (k : Core) : (k.issued).ccnt = k.ccnt := by
  unfold Core.issued Core.touchLine; split <;> rfl
@[simp] theorem Core.issued_sync (k : Core) : (k.issued).sync = k.sync := by
  unfold Core.issued Core.touchLine; split <;> rfl
@[simp] theorem Core.issued_halting (k : Core) : (k.issued).halting = k.halting := by
  unfold Core.issued Core.touchLine; split <;> rfl
@[simp] theorem Core.issued_exitCode (k : Core) : (k.issued).exitCode = k.exitCode := by
  unfold Core.issued Core.touchLine; split <;> rfl
@[simp] theorem Core.issued_exitValid (k : Core) : (k.issued).exitValid = k.exitValid := by
  unfold Core.issued Core.touchLine; split <;> rfl
@[simp] theorem Core.issued_subn (k : Core) : (k.issued).subn = k.subn := by
  unfold Core.issued Core.touchLine; split <;> rfl
@[simp] theorem Core.issued_sat (k : Core) : (k.issued).sat = k.sat := by
  unfold Core.issued Core.touchLine; split <;> rfl
@[simp] theorem Core.issued_fpflags (k : Core) : (k.issued).fpflags = k.fpflags := by
  unfold Core.issued Core.touchLine; split <;> rfl
@[simp] theorem Core.issued_partReg (k : Core) : (k.issued).partReg = k.partReg := by
  unfold Core.issued Core.touchLine; split <;> rfl
@[simp] theorem Core.issued_sealed (k : Core) : (k.issued).sealed = k.sealed := by
  unfold Core.issued Core.touchLine; split <;> rfl
@[simp] theorem Core.issued_detreq (k : Core) : (k.issued).detreq = k.detreq := by
  unfold Core.issued Core.touchLine; split <;> rfl
@[simp] theorem Core.issued_trapCause (k : Core) : (k.issued).trapCause = k.trapCause := by
  unfold Core.issued Core.touchLine; split <;> rfl
@[simp] theorem Core.issued_trapPc (k : Core) : (k.issued).trapPc = k.trapPc := by
  unfold Core.issued Core.touchLine; split <;> rfl
@[simp] theorem Core.issued_trapVal (k : Core) : (k.issued).trapVal = k.trapVal := by
  unfold Core.issued Core.touchLine; split <;> rfl
@[simp] theorem Core.issued_rtScratch (k : Core) : (k.issued).rtScratch = k.rtScratch := by
  unfold Core.issued Core.touchLine; split <;> rfl
@[simp] theorem Core.issued_rtPc (k : Core) : (k.issued).rtPc = k.rtPc := by
  unfold Core.issued Core.touchLine; split <;> rfl
@[simp] theorem Core.issued_service (k : Core) : (k.issued).service = k.service := by
  unfold Core.issued Core.touchLine; split <;> rfl
@[simp] theorem Core.issued_debugStop (k : Core) : (k.issued).debugStop = k.debugStop := by
  unfold Core.issued Core.touchLine; split <;> rfl
@[simp] theorem Core.issued_tq (k : Core) : (k.issued).tq = k.tq := by
  unfold Core.issued Core.touchLine; split <;> rfl
@[simp] theorem Core.issued_nq (k : Core) : (k.issued).nq = k.nq := by
  unfold Core.issued Core.touchLine; split <;> rfl
@[simp] theorem Core.issued_cq (k : Core) : (k.issued).cq = k.cq := by
  unfold Core.issued Core.touchLine; split <;> rfl
@[simp] theorem Core.issued_slots (k : Core) : (k.issued).slots = k.slots := by
  unfold Core.issued Core.touchLine; split <;> rfl
@[simp] theorem Core.issued_flowCount (k : Core) : (k.issued).flowCount = k.flowCount := by
  unfold Core.issued Core.touchLine; split <;> rfl
@[simp] theorem Core.issued_reads (k : Core) : (k.issued).reads = k.reads := by
  unfold Core.issued Core.touchLine; split <;> rfl
@[simp] theorem Core.issued_copies (k : Core) : (k.issued).copies = k.copies := by
  unfold Core.issued Core.touchLine; split <;> rfl
@[simp] theorem Core.issued_stores (k : Core) : (k.issued).stores = k.stores := by
  unfold Core.issued Core.touchLine; split <;> rfl
@[simp] theorem Core.issued_landing (k : Core) : (k.issued).landing = k.landing := by
  unfold Core.issued Core.touchLine; split <;> rfl
@[simp] theorem Core.issued_notice (k : Core) : (k.issued).notice = k.notice := by
  unfold Core.issued Core.touchLine; split <;> rfl
@[simp] theorem Core.issued_powered (k : Core) : (k.issued).powered = k.powered := by
  unfold Core.issued Core.touchLine; split <;> rfl
@[simp] theorem Core.issued_zeroising (k : Core) : (k.issued).zeroising = k.zeroising := by
  unfold Core.issued Core.touchLine; split <;> rfl
@[simp] theorem Core.issued_zeroWait (k : Core) : (k.issued).zeroWait = k.zeroWait := by
  unfold Core.issued Core.touchLine; split <;> rfl
@[simp] theorem Core.issued_ceCount (k : Core) : (k.issued).ceCount = k.ceCount := by
  unfold Core.issued Core.touchLine; split <;> rfl
@[simp] theorem Core.issued_ue (k : Core) : (k.issued).ue = k.ue := by
  unfold Core.issued Core.touchLine; split <;> rfl
@[simp] theorem Core.issued_banks (k : Core) : (k.issued).banks = k.banks := by
  unfold Core.issued Core.touchLine; split <;> rfl
@[simp] theorem Core.issued_ecc (k : Core) : (k.issued).ecc = k.ecc := by
  unfold Core.issued Core.touchLine; split <;> rfl
@[simp] theorem Core.issued_inject (k : Core) : (k.issued).inject = k.inject := by
  unfold Core.issued Core.touchLine; split <;> rfl
@[simp] theorem Core.issued_requests (k : Core) : (k.issued).requests = k.requests := by
  unfold Core.issued Core.touchLine; split <;> rfl
@[simp] theorem Core.issued_arrived (k : Core) : (k.issued).arrived = k.arrived := by
  unfold Core.issued Core.touchLine; split <;> rfl
@[simp] theorem Core.issued_ep (k : Core) : (k.issued).ep = k.ep := by
  unfold Core.issued Core.touchLine; split <;> rfl
@[simp] theorem Core.issued_linkEps (k : Core) : (k.issued).linkEps = k.linkEps := by
  unfold Core.issued Core.touchLine; split <;> rfl
@[simp] theorem Core.issued_flumeIn (k : Core) : (k.issued).flumeIn = k.flumeIn := by
  unfold Core.issued Core.touchLine; split <;> rfl
@[simp] theorem Core.issued_contrib (k : Core) : (k.issued).contrib = k.contrib := by
  unfold Core.issued Core.touchLine; split <;> rfl
@[simp] theorem Core.issued_rowIn (k : Core) : (k.issued).rowIn = k.rowIn := by
  unfold Core.issued Core.touchLine; split <;> rfl
@[simp] theorem Core.issued_colIn (k : Core) : (k.issued).colIn = k.colIn := by
  unfold Core.issued Core.touchLine; split <;> rfl
@[simp] theorem Core.issued_flumeOut (k : Core) : (k.issued).flumeOut = k.flumeOut := by
  unfold Core.issued Core.touchLine; split <;> rfl
@[simp] theorem Core.issued_flumeSink (k : Core) : (k.issued).flumeSink = k.flumeSink := by
  unfold Core.issued Core.touchLine; split <;> rfl
@[simp] theorem Core.issued_still (k : Core) : (k.issued).still = k.still := by
  unfold Core.issued Core.touchLine; split <;> rfl
@[simp] theorem Core.issued_lastProgress (k : Core) : (k.issued).lastProgress = k.lastProgress := by
  unfold Core.issued Core.touchLine; split <;> rfl
@[simp] theorem Core.issued_placed (k : Core) : (k.issued).placed = k.placed := by
  unfold Core.issued Core.touchLine; split <;> rfl
@[simp] theorem Core.issued_testing (k : Core) : (k.issued).testing = k.testing := by
  unfold Core.issued Core.touchLine; split <;> rfl

/-! ### Registers read back -/

/-- g0 reads as zero whatever is written to it; another register as it was; a written one as written. -/
theorem Core.getG_setG (k : Core) (r q : BitVec 5) (w : Word) :
    (k.setG r w).getG q = if q = 0 then 0 else if q = r then w else k.getG q := by
  by_cases h : q = 0
  · rw [if_pos h]; unfold Core.getG; rw [if_pos h]
  · rw [if_neg h]
    by_cases hr : r = 0
    · have hq : ¬ q = r := fun e => h (e.trans hr)
      unfold Core.setG
      rw [if_pos hr, if_neg hq]
    · unfold Core.setG Core.getG
      rw [if_neg hr, if_neg h, if_neg h]
      by_cases hq : q = r
      · rw [if_pos hq, hq]; exact tget_tset_same _ _ _ _
      · have hn : q.toNat ≠ r.toNat := fun e => hq (BitVec.eq_of_toNat_eq e)
        rw [if_neg hq]; exact tget_tset_other _ _ _ _ _ hn

@[simp] theorem Core.counter_setCounter (k : Core) (n : BitVec 6) (t : Counter) : (k.setCounter n t).counter n = t :=
  tget_tset_same _ _ _ _

@[simp] theorem Core.chan_setChan (k : Core) (n : BitVec 4) (t : SyncChan) : (k.setChan n t).chan n = t :=
  tget_tset_same _ _ _ _

@[simp] theorem Core.bank_setBank (k : Core) (n : Nat) (t : Bank) : (k.setBank n t).bank n = t :=
  tget_tset_same _ _ _ _

@[simp] theorem Core.getD_setD (k : Core) (n : Nat) (t : BitVec 128) : (k.setD n t).getD n = t :=
  tget_tset_same _ _ _ _

/-- Another descriptor register is as it was. -/
theorem Core.getD_setD_other (k : Core) {n m : Nat} (t : BitVec 128) (h : m ≠ n) : (k.setD n t).getD m = k.getD m :=
  tget_tset_other _ _ _ _ _ h

@[simp] theorem Core.getV_setV (k : Core) (r l : Nat) (w : Word) : (k.setV r l w).getV r l = w :=
  tget_tset_same _ _ _ _

end Sys2Proof.Machine
end

