-- ==== Sys2Proof/Laws/Dispatch.lean ====
section
/-!
SUPPORT. Which meaning each command has: `exec` of a constructor is its meaning, one equation each.
-/

namespace Sys2Proof.Machine

theorem exec_addi (c : CoreRef) (f : FmtI) (s : State) : exec (.addi c f) s = execAddi c f s := rfl
theorem exec_andi (c : CoreRef) (f : FmtI) (s : State) : exec (.andi c f) s = execAndi c f s := rfl
theorem exec_ori (c : CoreRef) (f : FmtI) (s : State) : exec (.ori c f) s = execOri c f s := rfl
theorem exec_xori (c : CoreRef) (f : FmtI) (s : State) : exec (.xori c f) s = execXori c f s := rfl
theorem exec_slti (c : CoreRef) (f : FmtI) (s : State) : exec (.slti c f) s = execSlti c f s := rfl
theorem exec_sltiu (c : CoreRef) (f : FmtI) (s : State) : exec (.sltiu c f) s = execSltiu c f s := rfl
theorem exec_shi (c : CoreRef) (f : FmtI) (s : State) : exec (.shi c f) s = execShi c f s := rfl
theorem exec_lui (c : CoreRef) (f : FmtI) (s : State) : exec (.lui c f) s = execLui c f s := rfl
theorem exec_opa (c : CoreRef) (f : FmtA) (s : State) : exec (.opa c f) s = execOpa c f s := rfl
theorem exec_beqz (c : CoreRef) (f : FmtB) (s : State) : exec (.beqz c f) s = execBeqz c f s := rfl
theorem exec_bnez (c : CoreRef) (f : FmtB) (s : State) : exec (.bnez c f) s = execBnez c f s := rfl
theorem exec_bltz (c : CoreRef) (f : FmtB) (s : State) : exec (.bltz c f) s = execBltz c f s := rfl
theorem exec_bgez (c : CoreRef) (f : FmtB) (s : State) : exec (.bgez c f) s = execBgez c f s := rfl
theorem exec_blez (c : CoreRef) (f : FmtB) (s : State) : exec (.blez c f) s = execBlez c f s := rfl
theorem exec_bgtz (c : CoreRef) (f : FmtB) (s : State) : exec (.bgtz c f) s = execBgtz c f s := rfl
theorem exec_jal (c : CoreRef) (f : FmtB) (s : State) : exec (.jal c f) s = execJal c f s := rfl
theorem exec_jalr (c : CoreRef) (f : FmtI) (s : State) : exec (.jalr c f) s = execJalr c f s := rfl
theorem exec_lw (c : CoreRef) (f : FmtI) (s : State) : exec (.lw c f) s = execLw c f s := rfl
theorem exec_lh (c : CoreRef) (f : FmtI) (s : State) : exec (.lh c f) s = execLh c f s := rfl
theorem exec_lhu (c : CoreRef) (f : FmtI) (s : State) : exec (.lhu c f) s = execLhu c f s := rfl
theorem exec_lb (c : CoreRef) (f : FmtI) (s : State) : exec (.lb c f) s = execLb c f s := rfl
theorem exec_lbu (c : CoreRef) (f : FmtI) (s : State) : exec (.lbu c f) s = execLbu c f s := rfl
theorem exec_sw (c : CoreRef) (f : FmtI) (s : State) : exec (.sw c f) s = execSw c f s := rfl
theorem exec_sh (c : CoreRef) (f : FmtI) (s : State) : exec (.sh c f) s = execSh c f s := rfl
theorem exec_sb (c : CoreRef) (f : FmtI) (s : State) : exec (.sb c f) s = execSb c f s := rfl
theorem exec_dld (c : CoreRef) (f : FmtI) (s : State) : exec (.dld c f) s = execDld c f s := rfl
theorem exec_dst (c : CoreRef) (f : FmtI) (s : State) : exec (.dst c f) s = execDst c f s := rfl
theorem exec_dmov (c : CoreRef) (f : FmtA) (s : State) : exec (.dmov c f) s = execDmov c f s := rfl
theorem exec_vop (c : CoreRef) (f : FmtA) (s : State) : exec (.vop c f) s = execVop c f s := rfl
theorem exec_vld (c : CoreRef) (f : FmtI) (s : State) : exec (.vld c f) s = execVld c f s := rfl
theorem exec_vst (c : CoreRef) (f : FmtI) (s : State) : exec (.vst c f) s = execVst c f s := rfl
theorem exec_tload (c : CoreRef) (f : FmtT) (s : State) : exec (.tload c f) s = execTload c f s := rfl
theorem exec_tmma (c : CoreRef) (f : FmtT) (s : State) : exec (.tmma c f) s = execTmma c f s := rfl
theorem exec_tstore (c : CoreRef) (f : FmtT) (s : State) : exec (.tstore c f) s = execTstore c f s := rfl
theorem exec_tcvt (c : CoreRef) (f : FmtT) (s : State) : exec (.tcvt c f) s = execTcvt c f s := rfl
theorem exec_send (c : CoreRef) (f : FmtN) (s : State) : exec (.send c f) s = execSend c f s := rfl
theorem exec_sendm (c : CoreRef) (f : FmtN) (s : State) : exec (.sendm c f) s = execSendm c f s := rfl
theorem exec_read (c : CoreRef) (f : FmtN) (s : State) : exec (.read c f) s = execRead c f s := rfl
theorem exec_aadd (c : CoreRef) (f : FmtN) (s : State) : exec (.aadd c f) s = execAadd c f s := rfl
theorem exec_cpq (c : CoreRef) (f : FmtN) (s : State) : exec (.cpq c f) s = execCpq c f s := rfl
theorem exec_ccopy (c : CoreRef) (f : FmtN) (s : State) : exec (.ccopy c f) s = execCcopy c f s := rfl
theorem exec_carm (c : CoreRef) (f : FmtN) (s : State) : exec (.carm c f) s = execCarm c f s := rfl
theorem exec_waitc (c : CoreRef) (f : FmtN) (s : State) : exec (.waitc c f) s = execWaitc c f s := rfl
theorem exec_waitcComplete (c : CoreRef) (s : State) : exec (.waitcComplete c) s = execWaitcComplete c s := rfl
theorem exec_flag (c : CoreRef) (f : FmtS) (s : State) : exec (.flag c f) s = execFlag c f s := rfl
theorem exec_waitf (c : CoreRef) (f : FmtS) (s : State) : exec (.waitf c f) s = execWaitf c f s := rfl
theorem exec_barrier (c : CoreRef) (f : FmtS) (s : State) : exec (.barrier c f) s = execBarrier c f s := rfl
theorem exec_notice (c : CoreRef) (f : FmtI) (s : State) : exec (.notice c f) s = execNotice c f s := rfl
theorem exec_csrr (c : CoreRef) (f : FmtI) (s : State) : exec (.csrr c f) s = execCsrr c f s := rfl
theorem exec_csrw (c : CoreRef) (f : FmtI) (s : State) : exec (.csrw c f) s = execCsrw c f s := rfl
theorem exec_csrs (c : CoreRef) (f : FmtI) (s : State) : exec (.csrs c f) s = execCsrs c f s := rfl
theorem exec_csrc (c : CoreRef) (f : FmtI) (s : State) : exec (.csrc c f) s = execCsrc c f s := rfl
theorem exec_trap (c : CoreRef) (f : FmtS) (s : State) : exec (.trap c f) s = execTrap c f s := rfl
theorem exec_halt (c : CoreRef) (f : FmtS) (s : State) : exec (.halt c f) s = execHalt c f s := rfl
theorem exec_haltComplete (c : CoreRef) (s : State) : exec (.haltComplete c) s = execHaltComplete c s := rfl
theorem exec_rte (c : CoreRef) (f : FmtS) (s : State) : exec (.rte c f) s = execRte c f s := rfl
theorem exec_ibufFill (c : CoreRef) (s : State) : exec (.ibufFill c) s = execIbufFill c s := rfl
theorem exec_storeDrain (c : CoreRef) (sameRowRead : Bool) (s : State) :
    exec (.storeDrain c sameRowRead) s = execStoreDrain c sameRowRead s := rfl
theorem exec_coreHwFault (c : CoreRef) (source : BitVec 16) (detail : List Byte) (s : State) :
    exec (.coreHwFault c source detail) s = execCoreHwFault c source detail s := rfl
theorem exec_debugStopTaken (c : CoreRef) (word : Word) (s : State) :
    exec (.debugStopTaken c word) s = execDebugStopTaken c word s := rfl
theorem exec_tensorStart (c : CoreRef) (s : State) : exec (.tensorStart c) s = execTensorStart c s := rfl
theorem exec_tensorComplete (c : CoreRef) (entry : BitVec 3) (fail : Option ResidueFail) (s : State) :
    exec (.tensorComplete c entry fail) s = execTensorComplete c entry fail s := rfl
theorem exec_copyEngineMove (c : CoreRef) (s : State) : exec (.copyEngineMove c) s = execCopyEngineMove c s := rfl
theorem exec_niInject (c : CoreRef) (s : State) : exec (.niInject c) s = execNiInject c s := rfl
theorem exec_ingressDue (c : CoreRef) (bank : BitVec 4) (s : State) :
    exec (.ingressDue c bank) s = execIngressDue c bank s := rfl
theorem exec_deferredWrite (c : CoreRef) (bank : BitVec 4) (s : State) :
    exec (.deferredWrite c bank) s = execDeferredWrite c bank s := rfl
theorem exec_correctionWriteback (c : CoreRef) (bank : BitVec 4) (s : State) :
    exec (.correctionWriteback c bank) s = execCorrectionWriteback c bank s := rfl
theorem exec_scrubRead (c : CoreRef) (bank : BitVec 4) (s : State) :
    exec (.scrubRead c bank) s = execScrubRead c bank s := rfl
theorem exec_scrubForce (c : CoreRef) (bank : BitVec 4) (s : State) :
    exec (.scrubForce c bank) s = execScrubForce c bank s := rfl
theorem exec_bankZeroiseDone (c : CoreRef) (bank : BitVec 4) (s : State) :
    exec (.bankZeroiseDone c bank) s = execBankZeroiseDone c bank s := rfl
theorem exec_routerFlitForward (c : CoreRef) (out : BitVec 3) (ev : FlitEvent) (s : State) :
    exec (.routerFlitForward c out ev) s = execRouterFlitForward c out ev s := rfl
theorem exec_vcEscape (c : CoreRef) (inp : BitVec 3) (vc : BitVec 2) (s : State) :
    exec (.vcEscape c inp vc) s = execVcEscape c inp vc s := rfl
theorem exec_vc1Aged (c : CoreRef) (inp : BitVec 3) (s : State) : exec (.vc1Aged c inp) s = execVc1Aged c inp s := rfl
theorem exec_edgeCrcFail (d : Site) (edge : BitVec 2) (attempts : BitVec 3) (s : State) :
    exec (.edgeCrcFail d edge attempts) s = execEdgeCrcFail d edge attempts s := rfl
theorem exec_write (p : Packet) (grants : List BankGrant) (badFlit : Option (BitVec 6)) (s : State) :
    exec (.write p grants badFlit) s = execWrite p grants badFlit s := rfl
theorem exec_writeNotify (p : Packet) (grants : List BankGrant) (badFlit : Option (BitVec 6)) (s : State) :
    exec (.writeNotify p grants badFlit) s = execWriteNotify p grants badFlit s := rfl
theorem exec_readReq (p : Packet) (badFlit : Bool) (s : State) :
    exec (.readReq p badFlit) s = execReadReq p badFlit s := rfl
theorem exec_readReqServe (c : CoreRef) (s : State) : exec (.readReqServe c) s = execReadReqServe c s := rfl
theorem exec_readResp (p : Packet) (grants : List BankGrant) (badFlit : Option (BitVec 6)) (s : State) :
    exec (.readResp p grants badFlit) s = execReadResp p grants badFlit s := rfl
theorem exec_atomicAdd (p : Packet) (grants : List BankGrant) (badFlit : Option (BitVec 6)) (s : State) :
    exec (.atomicAdd p grants badFlit) s = execAtomicAdd p grants badFlit s := rfl
theorem exec_rowcast (c : CoreRef) (p : Packet) (grants : List BankGrant) (badFlit : Option (BitVec 6)) (s : State) :
    exec (.rowcast c p grants badFlit) s = execRowcast c p grants badFlit s := rfl
theorem exec_colcast (c : CoreRef) (p : Packet) (grants : List BankGrant) (badFlit : Option (BitVec 6)) (s : State) :
    exec (.colcast c p grants badFlit) s = execColcast c p grants badFlit s := rfl
theorem exec_turnoutCopy (c : CoreRef) (inp : BitVec 3) (s : State) :
    exec (.turnoutCopy c inp) s = execTurnoutCopy c inp s := rfl
theorem exec_reduceContrib (c : CoreRef) (ep : BitVec 3) (s : State) :
    exec (.reduceContrib c ep) s = execReduceContrib c ep s := rfl
theorem exec_completion (p : Packet) (badFlit : Bool) (s : State) :
    exec (.completion p badFlit) s = execCompletion p badFlit s := rfl
theorem exec_statusAnswer (c : CoreRef) (status job : BitVec 8) (s : State) :
    exec (.statusAnswer c status job) s = execStatusAnswer c status job s := rfl
theorem exec_spwrite (h : CtlHdr) (offset : BitVec 19) (data : List Byte) (grants : List BankGrant) (s : State) :
    exec (.spwrite h offset data grants) s = execSpwrite h offset data grants s := rfl
theorem exec_regwrite (h : CtlHdr) (offset : BitVec 24) (value : Reg64) (s : State) :
    exec (.regwrite h offset value) s = execRegwrite h offset value s := rfl
theorem exec_regread (h : CtlHdr) (offset : BitVec 24) (s : State) :
    exec (.regread h offset) s = execRegread h offset s := rfl
theorem exec_corectlStart (h : CtlHdr) (entry : BitVec 19) (s : State) :
    exec (.corectlStart h entry) s = execCorectlStart h entry s := rfl
theorem exec_corectlStop (h : CtlHdr) (s : State) : exec (.corectlStop h) s = execCorectlStop h s := rfl
theorem exec_corectlRelease (h : CtlHdr) (s : State) : exec (.corectlRelease h) s = execCorectlRelease h s := rfl
theorem exec_corectlClear (h : CtlHdr) (fpmode : BitVec 2) (s : State) :
    exec (.corectlClear h fpmode) s = execCorectlClear h fpmode s := rfl
theorem exec_corectlBind (h : CtlHdr) (chan : BitVec 4) (group : BitVec 6) (s : State) :
    exec (.corectlBind h chan group) s = execCorectlBind h chan group s := rfl
theorem exec_corectlDebug (h : CtlHdr) (resume : Bool) (s : State) :
    exec (.corectlDebug h resume) s = execCorectlDebug h resume s := rfl
theorem exec_fence (h : CtlHdr) (s : State) : exec (.fence h) s = execFence h s := rfl
theorem exec_record (h : CtlHdr) (r : Report) (s : State) : exec (.record h r) s = execRecord h r s := rfl
theorem exec_reply (h : CtlHdr) (status : BitVec 8) (data : Option Reg64) (s : State) :
    exec (.reply h status data) s = execReply h status data s := rfl
theorem exec_ack (a : AckMsg) (s : State) : exec (.ack a) s = execAck a s := rfl
theorem exec_controlTimeout (h : CtlHdr) (s : State) : exec (.controlTimeout h) s = execControlTimeout h s := rfl
theorem exec_flumeFlitDeliver (c : CoreRef) (ep : BitVec 3) (parityBad : Bool) (s : State) :
    exec (.flumeFlitDeliver c ep parityBad) s = execFlumeFlitDeliver c ep parityBad s := rfl
theorem exec_collectorCombine (c : CoreRef) (ep : BitVec 3) (mismatch : Bool) (s : State) :
    exec (.collectorCombine c ep mismatch) s = execCollectorCombine c ep mismatch s := rfl
theorem exec_linkCollectorCombine (c : CoreRef) (ep : BitVec 3) (mismatch : Bool) (s : State) :
    exec (.linkCollectorCombine c ep mismatch) s = execLinkCollectorCombine c ep mismatch s := rfl
theorem exec_syncArrival (d : Site) (group : BitVec 6) (s : State) :
    exec (.syncArrival d group) s = execSyncArrival d group s := rfl
theorem exec_hwdHubArrival (d : Site) (group : BitVec 6) (ticks : BitVec 64) (s : State) :
    exec (.hwdHubArrival d group ticks) s = execHwdHubArrival d group ticks s := rfl
theorem exec_syncRelease (c : CoreRef) (group : BitVec 6) (s : State) :
    exec (.syncRelease c group) s = execSyncRelease c group s := rfl
theorem exec_syncCulvertLoss (d : Site) (count : BitVec 2) (s : State) :
    exec (.syncCulvertLoss d count) s = execSyncCulvertLoss d count s := rfl
theorem exec_detHold (d : Site) (s : State) : exec (.detHold d) s = execDetHold d s := rfl
theorem exec_forecastExpire (d : Site) (s : State) : exec (.forecastExpire d) s = execForecastExpire d s := rfl
theorem exec_msdPacket (m : BitVec 3) (src : Site) (p : Packet) (s : State) :
    exec (.msdPacket m src p) s = execMsdPacket m src p s := rfl
theorem exec_copyDescriptor (m : BitVec 3) (src : Site) (queue : BitVec 3) (p : Packet) (s : State) :
    exec (.copyDescriptor m src queue p) s = execCopyDescriptor m src queue p s := rfl
theorem exec_copyPiece (m : BitVec 3) (s : State) : exec (.copyPiece m) s = execCopyPiece m s := rfl
theorem exec_hbmWriteDrain (stack : BitVec 5) (s : State) :
    exec (.hbmWriteDrain stack) s = execHbmWriteDrain stack s := rfl
theorem exec_hbmScrub (stack : BitVec 5) (wrong : BitVec 3) (s : State) :
    exec (.hbmScrub stack wrong) s = execHbmScrub stack wrong s := rfl
theorem exec_culvertReplay (d : Site) (grp : BitVec 3) (chan : BitVec 3) (attempts : BitVec 3) (s : State) :
    exec (.culvertReplay d grp chan attempts) s = execCulvertReplay d grp chan attempts s := rfl
theorem exec_culvertRelock (d : Site) (grp : BitVec 3) (chan : BitVec 3) (s : State) :
    exec (.culvertRelock d grp chan) s = execCulvertRelock d grp chan s := rfl
theorem exec_culvertRelockDone (d : Site) (grp : BitVec 3) (chan : BitVec 3) (locked : Bool) (s : State) :
    exec (.culvertRelockDone d grp chan locked) s = execCulvertRelockDone d grp chan locked s := rfl
theorem exec_linkFrame (port : BitVec 6) (f : Frame) (s : State) :
    exec (.linkFrame port f) s = execLinkFrame port f s := rfl
theorem exec_laneFail (port : BitVec 6) (lane : BitVec 3) (s : State) :
    exec (.laneFail port lane) s = execLaneFail port lane s := rfl
theorem exec_laneRetrainDone (port : BitVec 6) (trained : Bool) (s : State) :
    exec (.laneRetrainDone port trained) s = execLaneRetrainDone port trained s := rfl
theorem exec_linkKeyExchange (port : BitVec 6) (peerOk : Bool) (s : State) :
    exec (.linkKeyExchange port peerOk) s = execLinkKeyExchange port peerOk s := rfl
theorem exec_linkRekey (port : BitVec 6) (s : State) : exec (.linkRekey port) s = execLinkRekey port s := rfl
theorem exec_arrive (m : RingMsg) (via : Option (BitVec 6)) (ticks : BitVec 64) (s : State) :
    exec (.arrive m via ticks) s = execArrive m via ticks s := rfl
theorem exec_release (m : RingMsg) (via : Option (BitVec 6)) (s : State) :
    exec (.release m via) s = execRelease m via s := rfl
theorem exec_abortToken (m : RingMsg) (via : Option (BitVec 6)) (s : State) :
    exec (.abortToken m via) s = execAbortToken m via s := rfl
theorem exec_digest (m : RingMsg) (s : State) : exec (.digest m) s = execDigest m s := rfl
theorem exec_heartbeat (m : RingMsg) (s : State) : exec (.heartbeat m) s = execHeartbeat m s := rfl
theorem exec_ringResend (s : State) : exec (.ringResend) s = execRingResend s := rfl
theorem exec_ringDown (s : State) : exec (.ringDown) s = execRingDown s := rfl
theorem exec_panelIdSet (h : Cmd) (id : BitVec 16) (lock : Bool) (s : State) :
    exec (.panelIdSet h id lock) s = execPanelIdSet h id lock s := rfl
theorem exec_routeWrite (h : Cmd) (addr : Reg64) (len : Word) (s : State) :
    exec (.routeWrite h addr len) s = execRouteWrite h addr len s := rfl
theorem exec_groupBind (h : Cmd) (group epoch root : BitVec 16) (tree : Bool) (addr : Reg64) (len : Word) (s : State) :
    exec (.groupBind h group epoch root tree addr len) s = execGroupBind h group epoch root tree addr len s := rfl
theorem exec_groupUnbind (h : Cmd) (s : State) : exec (.groupUnbind h) s = execGroupUnbind h s := rfl
theorem exec_ringJoin (h : Cmd) (s : State) : exec (.ringJoin h) s = execRingJoin h s := rfl
theorem exec_ringJoinTimeout (h : Cmd) (s : State) : exec (.ringJoinTimeout h) s = execRingJoinTimeout h s := rfl
theorem exec_ringLeave (h : Cmd) (s : State) : exec (.ringLeave h) s = execRingLeave h s := rfl
theorem exec_shadowBind (h : Cmd) (role : BitVec 8) (peer : BitVec 16) (peerPart mirrorPort digestGroup : BitVec 8) (s : State) :
    exec (.shadowBind h role peer peerPart mirrorPort digestGroup) s = execShadowBind h role peer peerPart mirrorPort digestGroup s := rfl
theorem exec_portRead (h : Cmd) (addr : Reg64) (len : Word) (s : State) :
    exec (.portRead h addr len) s = execPortRead h addr len s := rfl
theorem exec_pairMiscompare (pair : BitVec 3) (s : State) :
    exec (.pairMiscompare pair) s = execPairMiscompare pair s := rfl
theorem exec_hostLinkDegrade (host : Bool) (both : Bool) (s : State) :
    exec (.hostLinkDegrade host both) s = execHostLinkDegrade host both s := rfl
theorem exec_adminQueueCreate (host : Bool) (value : Reg64) (s : State) :
    exec (.adminQueueCreate host value) s = execAdminQueueCreate host value s := rfl
theorem exec_adminQueueDelete (host : Bool) (value : Reg64) (s : State) :
    exec (.adminQueueDelete host value) s = execAdminQueueDelete host value s := rfl
theorem exec_sqDoorbell (host : Bool) (queue : BitVec 4) (value : Reg64) (s : State) :
    exec (.sqDoorbell host queue value) s = execSqDoorbell host queue value s := rfl
theorem exec_rqDoorbell (host : Bool) (queue : BitVec 4) (value : Reg64) (s : State) :
    exec (.rqDoorbell host queue value) s = execRqDoorbell host queue value s := rfl
theorem exec_commandFetch (host : Bool) (queue : BitVec 4) (s : State) :
    exec (.commandFetch host queue) s = execCommandFetch host queue s := rfl
theorem exec_panelInfo (h : Cmd) (addr : Reg64) (len : Word) (s : State) :
    exec (.panelInfo h addr len) s = execPanelInfo h addr len s := rfl
theorem exec_queueCreate (h : Cmd) (pair sqLog2 rqLog2 : BitVec 8) (sqBase rqBase : Reg64) (s : State) :
    exec (.queueCreate h pair sqLog2 rqLog2 sqBase rqBase) s = execQueueCreate h pair sqLog2 rqLog2 sqBase rqBase s := rfl
theorem exec_queueDelete (h : Cmd) (pair : BitVec 8) (s : State) :
    exec (.queueDelete h pair) s = execQueueDelete h pair s := rfl
theorem exec_partCreate (h : Cmd) (row col rows cols : BitVec 8) (s : State) :
    exec (.partCreate h row col rows cols) s = execPartCreate h row col rows cols s := rfl
theorem exec_partDestroy (h : Cmd) (s : State) : exec (.partDestroy h) s = execPartDestroy h s := rfl
theorem exec_partReset (h : Cmd) (s : State) : exec (.partReset h) s = execPartReset h s := rfl
theorem exec_partQuery (h : Cmd) (s : State) : exec (.partQuery h) s = execPartQuery h s := rfl
theorem exec_jobLoad (h : Cmd) (addr : Reg64) (len : Word) (hold : Bool) (s : State) :
    exec (.jobLoad h addr len hold) s = execJobLoad h addr len hold s := rfl
theorem exec_jobStart (h : Cmd) (limit : Word) (s : State) : exec (.jobStart h limit) s = execJobStart h limit s := rfl
theorem exec_jobAbort (h : Cmd) (reason : BitVec 16) (s : State) :
    exec (.jobAbort h reason) s = execJobAbort h reason s := rfl
theorem exec_jobWait (h : Cmd) (s : State) : exec (.jobWait h) s = execJobWait h s := rfl
theorem exec_ckptWait (h : Cmd) (s : State) : exec (.ckptWait h) s = execCkptWait h s := rfl
theorem exec_ckptRelease (h : Cmd) (s : State) : exec (.ckptRelease h) s = execCkptRelease h s := rfl
theorem exec_jobEnd (h : Cmd) (s : State) : exec (.jobEnd h) s = execJobEnd h s := rfl
theorem exec_logWait (h : Cmd) (s : State) : exec (.logWait h) s = execLogWait h s := rfl
theorem exec_jobComplete (part : BitVec 4) (s : State) : exec (.jobComplete part) s = execJobComplete part s := rfl
theorem exec_checkpointEntry (part : BitVec 4) (s : State) :
    exec (.checkpointEntry part) s = execCheckpointEntry part s := rfl
theorem exec_ckptLimitExpire (part : BitVec 4) (s : State) :
    exec (.ckptLimitExpire part) s = execCkptLimitExpire part s := rfl
theorem exec_flumeList (h : Cmd) (addr : Reg64) (len : Word) (s : State) :
    exec (.flumeList h addr len) s = execFlumeList h addr len s := rfl
theorem exec_flumeStats (h : Cmd) (index : BitVec 16) (s : State) :
    exec (.flumeStats h index) s = execFlumeStats h index s := rfl
theorem exec_memRead (h : Cmd) (hbm host : Reg64) (len : Word) (s : State) :
    exec (.memRead h hbm host len) s = execMemRead h hbm host len s := rfl
theorem exec_memWrite (h : Cmd) (hbm host : Reg64) (len : Word) (s : State) :
    exec (.memWrite h hbm host len) s = execMemWrite h hbm host len s := rfl
theorem exec_regRead (h : Cmd) (panel host : Reg64) (len : Word) (s : State) :
    exec (.regRead h panel host len) s = execRegRead h panel host len s := rfl
theorem exec_regWrite (h : Cmd) (panel value : Reg64) (s : State) :
    exec (.regWrite h panel value) s = execRegWrite h panel value s := rfl
theorem exec_registerWrite (t : RegTarget) (value : Reg64) (s : State) :
    exec (.registerWrite t value) s = execRegisterWrite t value s := rfl
theorem exec_mctpMessage (m : Mctp) (s : State) : exec (.mctpMessage m) s = execMctpMessage m s := rfl
theorem exec_powerRead (h : Cmd) (addr : Reg64) (len : Word) (s : State) :
    exec (.powerRead h addr len) s = execPowerRead h addr len s := rfl
theorem exec_powerLimit (h : Cmd) (limit : BitVec 16) (s : State) :
    exec (.powerLimit h limit) s = execPowerLimit h limit s := rfl
theorem exec_powerMode (h : Cmd) (target : BitVec 8) (s : State) :
    exec (.powerMode h target) s = execPowerMode h target s := rfl
theorem exec_thermalRead (h : Cmd) (addr : Reg64) (len : Word) (s : State) :
    exec (.thermalRead h addr len) s = execThermalRead h addr len s := rfl
theorem exec_lifeRead (h : Cmd) (addr : Reg64) (len : Word) (s : State) :
    exec (.lifeRead h addr len) s = execLifeRead h addr len s := rfl
theorem exec_railFault (millivolts : BitVec 12) (s : State) :
    exec (.railFault millivolts) s = execRailFault millivolts s := rfl
theorem exec_railOutOfTolerance (s : State) : exec (.railOutOfTolerance) s = execRailOutOfTolerance s := rfl
theorem exec_railToleranceRestored (s : State) : exec (.railToleranceRestored) s = execRailToleranceRestored s := rfl
theorem exec_standbyLow (s : State) : exec (.standbyLow) s = execStandbyLow s := rfl
theorem exec_regulatorNoticeStep (d : Site) (region : BitVec 6) (phase : NoticePhase) (s : State) :
    exec (.regulatorNoticeStep d region phase) s = execRegulatorNoticeStep d region phase s := rfl
theorem exec_unannouncedStep (d : Site) (region : BitVec 6) (inMs : BitVec 16) (s : State) :
    exec (.unannouncedStep d region inMs) s = execUnannouncedStep d region inMs s := rfl
theorem exec_regionWave (s : State) : exec (.regionWave) s = execRegionWave s := rfl
theorem exec_regionAdmit (d : Site) (region : BitVec 6) (avgPower admitted : BitVec 16) (s : State) :
    exec (.regionAdmit d region avgPower admitted) s = execRegionAdmit d region avgPower admitted s := rfl
theorem exec_neighbourWaitExpire (d : Site) (region : BitVec 6) (s : State) :
    exec (.neighbourWaitExpire d region) s = execNeighbourWaitExpire d region s := rfl
theorem exec_admissionTimeout (part : BitVec 4) (s : State) :
    exec (.admissionTimeout part) s = execAdmissionTimeout part s := rfl
theorem exec_budgetCapTick (avgPower : BitVec 16) (s : State) :
    exec (.budgetCapTick avgPower) s = execBudgetCapTick avgPower s := rfl
theorem exec_voltageAdaptTick (d : Site) (region : BitVec 6) (fullDuty : Bool) (stretched : BitVec 16) (allGreen : Bool) (s : State) :
    exec (.voltageAdaptTick d region fullDuty stretched allGreen) s = execVoltageAdaptTick d region fullDuty stretched allGreen s := rfl
theorem exec_phaseLoss (d : Site) (region : BitVec 6) (phase : BitVec 3) (draw : BitVec 12) (s : State) :
    exec (.phaseLoss d region phase draw) s = execPhaseLoss d region phase draw s := rfl
theorem exec_logicRailFail (d : Site) (s : State) : exec (.logicRailFail d) s = execLogicRailFail d s := rfl
theorem exec_pllLockLoss (d : Site) (s : State) : exec (.pllLockLoss d) s = execPllLockLoss d s := rfl
theorem exec_refclkLoss (s : State) : exec (.refclkLoss) s = execRefclkLoss s := rfl
theorem exec_crossingSlip (d : Site) (crossing : BitVec 8) (s : State) :
    exec (.crossingSlip d crossing) s = execCrossingSlip d crossing s := rfl
theorem exec_sensorSample (u : UnitRef) (readings : List (Int × Int × Int)) (s : State) :
    exec (.sensorSample u readings) s = execSensorSample u readings s := rfl
theorem exec_thermalCapTick (d : Site) (s : State) : exec (.thermalCapTick d) s = execThermalCapTick d s := rfl
theorem exec_runLimitExpire (u : UnitRef) (spot : BitVec 5) (s : State) :
    exec (.runLimitExpire u spot) s = execRunLimitExpire u spot s := rfl
theorem exec_coolantSample (flow : BitVec 16) (tin tout : Int) (flowBefore : BitVec 16) (toutBefore : Int) (s : State) :
    exec (.coolantSample flow tin tout flowBefore toutBefore) s = execCoolantSample flow tin tout flowBefore toutBefore s := rfl
theorem exec_orderlyStopStandby (s : State) : exec (.orderlyStopStandby) s = execOrderlyStopStandby s := rfl
theorem exec_fastStop (cause : TripCause) (s : State) : exec (.fastStop cause) s = execFastStop cause s := rfl
theorem exec_thermalCycleSample (u : UnitRef) (temp : Int) (s : State) :
    exec (.thermalCycleSample u temp) s = execThermalCycleSample u temp s := rfl
theorem exec_thermalCountFlush (s : State) : exec (.thermalCountFlush) s = execThermalCountFlush s := rfl
theorem exec_powerOn (b : BringUp) (s : State) : exec (.powerOn b) s = execPowerOn b s := rfl
theorem exec_panelRstN (s : State) : exec (.panelRstN) s = execPanelRstN s := rfl
theorem exec_panelRstNRelease (b : BringUp) (s : State) : exec (.panelRstNRelease b) s = execPanelRstNRelease b s := rfl
theorem exec_panelResetWarm (h : Cmd) (b : BringUp) (s : State) :
    exec (.panelResetWarm h b) s = execPanelResetWarm h b s := rfl
theorem exec_panelResetCold (h : Cmd) (b : BringUp) (s : State) :
    exec (.panelResetCold h b) s = execPanelResetCold h b s := rfl
theorem exec_dieResetDie (h : Cmd) (d : Site) (digestsMatch : BitVec 4) (s : State) :
    exec (.dieResetDie h d digestsMatch) s = execDieResetDie h d digestsMatch s := rfl
theorem exec_dieResetCore (h : Cmd) (d : Site) (index : BitVec 16) (s : State) :
    exec (.dieResetCore h d index) s = execDieResetCore h d index s := rfl
theorem exec_edgeRetrainDue (d : Site) (edge : BitVec 2) (s : State) :
    exec (.edgeRetrainDue d edge) s = execEdgeRetrainDue d edge s := rfl
theorem exec_edgeRetrain (d : Site) (edge : BitVec 2) (badWires : BitVec 9) (carries : Bool) (s : State) :
    exec (.edgeRetrain d edge badWires carries) s = execEdgeRetrain d edge badWires carries s := rfl
theorem exec_fwUpdate (h : Cmd) (addr : Reg64) (len : Word) (s : State) :
    exec (.fwUpdate h addr len) s = execFwUpdate h addr len s := rfl
theorem exec_cfgWrite (h : Cmd) (addr : Reg64) (len : Word) (s : State) :
    exec (.cfgWrite h addr len) s = execCfgWrite h addr len s := rfl
theorem exec_cfgRead (h : Cmd) (addr : Reg64) (len : Word) (defaults : Bool) (s : State) :
    exec (.cfgRead h addr len defaults) s = execCfgRead h addr len defaults s := rfl
theorem exec_retire (h : Cmd) (d : Site) (unit : BitVec 8) (index : BitVec 16) (s : State) :
    exec (.retire h d unit index) s = execRetire h d unit index s := rfl
theorem exec_regReadPhys (h : Cmd) (panel host : Reg64) (len : Word) (s : State) :
    exec (.regReadPhys h panel host len) s = execRegReadPhys h panel host len s := rfl
theorem exec_recoveryImage (image : List Byte) (b : BringUp) (s : State) :
    exec (.recoveryImage image b) s = execRecoveryImage image b s := rfl
theorem exec_faultReport (r : Report) (s : State) : exec (.faultReport r) s = execFaultReport r s := rfl
theorem exec_seqFlush (s : State) : exec (.seqFlush) s = execSeqFlush s := rfl
theorem exec_faultRead (h : Cmd) (addr : Reg64) (len first : Word) (uncleared : Bool) (s : State) :
    exec (.faultRead h addr len first uncleared) s = execFaultRead h addr len first uncleared s := rfl
theorem exec_faultClear (h : Cmd) (seq : Word) (s : State) : exec (.faultClear h seq) s = execFaultClear h seq s := rfl
theorem exec_eventWait (h : Cmd) (mask : Word) (s : State) : exec (.eventWait h mask) s = execEventWait h mask s := rfl
theorem exec_recRead (h : Cmd) (addr : Reg64) (len : Word) (area : BitVec 8) (s : State) :
    exec (.recRead h addr len area) s = execRecRead h addr len area s := rfl
theorem exec_recClear (h : Cmd) (s : State) : exec (.recClear h) s = execRecClear h s := rfl
theorem exec_inject (h : Cmd) (target count : BitVec 8) (site unit : BitVec 16) (port : BitVec 8) (s : State) :
    exec (.inject h target count site unit port) s = execInject h target count site unit port s := rfl
theorem exec_hangSample (s : State) : exec (.hangSample) s = execHangSample s := rfl
theorem exec_unitRetire (u : RetUnit) (s : State) : exec (.unitRetire u) s = execUnitRetire u s := rfl
theorem exec_postFaultTest (c : CoreRef) (pass : Bool) (s : State) :
    exec (.postFaultTest c pass) s = execPostFaultTest c pass s := rfl
theorem exec_spareEngage (row : BitVec 4) (failedWeirs : List Site) (s : State) :
    exec (.spareEngage row failedWeirs) s = execSpareEngage row failedWeirs s := rfl
theorem exec_recorderTrigger (t : RecTrig) (s : State) : exec (.recorderTrigger t) s = execRecorderTrigger t s := rfl
theorem exec_identity (h : Cmd) (addr : Reg64) (len : Word) (s : State) :
    exec (.identity h addr len) s = execIdentity h addr len s := rfl
theorem exec_attest (h : Cmd) (addr : Reg64) (len : Word) (part : BitVec 8) (nonce : List Byte) (s : State) :
    exec (.attest h addr len part nonce) s = execAttest h addr len part nonce s := rfl
theorem exec_sessionOpen (h : Cmd) (addr : Reg64) (rights minutes : BitVec 16) (s : State) :
    exec (.sessionOpen h addr rights minutes) s = execSessionOpen h addr rights minutes s := rfl
theorem exec_sessionAuth (h : Cmd) (addr : Reg64) (len : Word) (s : State) :
    exec (.sessionAuth h addr len) s = execSessionAuth h addr len s := rfl
theorem exec_sessionAuthTimeout (session : Word) (s : State) :
    exec (.sessionAuthTimeout session) s = execSessionAuthTimeout session s := rfl
theorem exec_sessionClose (h : Cmd) (s : State) : exec (.sessionClose h) s = execSessionClose h s := rfl
theorem exec_sessionExpire (session : Word) (s : State) :
    exec (.sessionExpire session) s = execSessionExpire session s := rfl
theorem exec_sealOffer (h : Cmd) (addr : Reg64) (len : Word) (nonce : List Byte) (s : State) :
    exec (.sealOffer h addr len nonce) s = execSealOffer h addr len nonce s := rfl
theorem exec_sealOfferLapse (part : BitVec 4) (s : State) :
    exec (.sealOfferLapse part) s = execSealOfferLapse part s := rfl
theorem exec_sealAccept (h : Cmd) (addr : Reg64) (len : Word) (s : State) :
    exec (.sealAccept h addr len) s = execSealAccept h addr len s := rfl
theorem exec_debugStop (h : Cmd) (x y : BitVec 16) (s : State) :
    exec (.debugStop h x y) s = execDebugStop h x y s := rfl
theorem exec_debugResume (h : Cmd) (x y : BitVec 16) (s : State) :
    exec (.debugResume h x y) s = execDebugResume h x y s := rfl
theorem exec_debugRead (h : Cmd) (x y : BitVec 16) (offset : BitVec 24) (host : Reg64) (len : Word) (s : State) :
    exec (.debugRead h x y offset host len) s = execDebugRead h x y offset host len s := rfl
theorem exec_debugWrite (h : Cmd) (x y : BitVec 16) (offset : BitVec 24) (host : Reg64) (len : Word) (s : State) :
    exec (.debugWrite h x y offset host len) s = execDebugWrite h x y offset host len s := rfl
theorem exec_illegalInstruction (c : CoreRef) (word : Word) (s : State) :
    exec (.illegalInstruction c word) s = execIllegalInstruction c word s := rfl
theorem exec_bankRequestAged (c : CoreRef) (bank : BitVec 4) (port : BitVec 3) (s : State) :
    exec (.bankRequestAged c bank port) s = execBankRequestAged c bank port s := rfl
theorem exec_stretchedCycle (d : Site) (domain : BitVec 7) (margin : BitVec 7) (s : State) :
    exec (.stretchedCycle d domain margin) s = execStretchedCycle d domain margin s := rfl
theorem exec_regionRampDone (d : Site) (region : BitVec 6) (s : State) :
    exec (.regionRampDone d region) s = execRegionRampDone d region s := rfl
theorem exec_railTransferComplete (d : Site) (region : BitVec 6) (s : State) :
    exec (.railTransferComplete d region) s = execRailTransferComplete d region s := rfl
theorem exec_portTraining (port : BitVec 6) (peerPanel : BitVec 16) (peerPort : BitVec 6) (eight : Bool) (s : State) :
    exec (.portTraining port peerPanel peerPort eight) s = execPortTraining port peerPanel peerPort eight s := rfl
theorem exec_recordWindowExpire (seq : Word) (s : State) :
    exec (.recordWindowExpire seq) s = execRecordWindowExpire seq s := rfl
theorem exec_hbmTemperatureReadout (stack : BitVec 5) (temp : Int) (s : State) :
    exec (.hbmTemperatureReadout stack temp) s = execHbmTemperatureReadout stack temp s := rfl
theorem exec_redundantLaserSwitch (feeds : List (Site × BitVec 3 × BitVec 3)) (s : State) :
    exec (.redundantLaserSwitch feeds) s = execRedundantLaserSwitch feeds s := rfl
theorem exec_stackRailFail (d : Site) (rail : StackRail) (s : State) :
    exec (.stackRailFail d rail) s = execStackRailFail d rail s := rfl
theorem exec_dieWideRailFail (u : UnitRef) (s : State) : exec (.dieWideRailFail u) s = execDieWideRailFail u s := rfl
theorem exec_hbmSupplyFail (stack : BitVec 5) (s : State) :
    exec (.hbmSupplyFail stack) s = execHbmSupplyFail stack s := rfl

end Sys2Proof.Machine
end

