-- ==== Sys2Proof/Laws/Issue.lean ====
section
/-!
SUPPORT. What the shared forms of the commands can do, said once: `issue` for the instructions of a core, `coreEvent` and
`siteEvent` for events of a core and of a site.
-/

namespace Sys2Proof.Machine

/-- A core that is ready issues its instruction: the outcome is that of its own effect. -/
theorem issue_ready {c : CoreRef} {s : State} (h : s.ready c) (body : State → Core → Issue) :
    issue c s body = (match body s (s.core c) with
      | .done s' k' pc => .next (s'.after c k' pc)
      | .trap cause val => .next (s.trap c cause val)
      | .wait s' k' w => .next (s'.setCore c { k' with mode := .wait, wait := w })
      | .stall => .next s
      | .over s' => .next s') := by
  obtain ⟨h1, h2, h3⟩ := h
  unfold issue State.after
  have h4 : ¬ ((s.core c).mode ≠ .runtime ∧ (s.core c).bankOn (s.core c).pc.toNat = false) := by
    rintro ⟨a, b⟩; rcases h3 with h3 | h3
    · exact a h3
    · simp [h3] at b
  simp only [h1, h2, h4, if_false, Bool.true_eq_false]
  all_goals (cases body s (s.core c) <;> rfl)

/-- An instruction whose own effect is done leaves the panel as that effect left it, with the core put back. -/
theorem issue_done {c : CoreRef} {s s' : State} {k' : Core} {pc : BitVec 19} {body : State → Core → Issue}
    (h : s.ready c) (hb : body s (s.core c) = .done s' k' pc) : issue c s body = .next (s'.after c k' pc) := by
  rw [issue_ready h, hb]

/-- An instruction whose own check fails takes its trap. -/
theorem issue_trap {c : CoreRef} {s : State} {cause : BitVec 6} {val : Word} {body : State → Core → Issue}
    (h : s.ready c) (hb : body s (s.core c) = .trap cause val) : issue c s body = .next (s.trap c cause val) := by
  rw [issue_ready h, hb]

/-- An instruction that waits keeps its core at its place, waiting. -/
theorem issue_wait {c : CoreRef} {s s' : State} {k' : Core} {w : WaitOn} {body : State → Core → Issue}
    (h : s.ready c) (hb : body s (s.core c) = .wait s' k' w) :
    issue c s body = .next (s'.setCore c { k' with mode := .wait, wait := w }) := by
  rw [issue_ready h, hb]

/-- An instruction that ends its core's run in another way. -/
theorem issue_over {c : CoreRef} {s s' : State} {body : State → Core → Issue}
    (h : s.ready c) (hb : body s (s.core c) = .over s') : issue c s body = .next s' := by
  rw [issue_ready h, hb]

/-- Everything an issue can do when it answers a next state. -/
theorem issue_cases {c : CoreRef} {s t : State} {body : State → Core → Issue} (h : issue c s body = .next t) :
    t = s ∨ (∃ cause val, t = s.trap c cause val) ∨
      (∃ s' k' pc, body s (s.core c) = .done s' k' pc ∧ t = s'.after c k' pc) ∨
      (∃ s' k' w, body s (s.core c) = .wait s' k' w ∧ t = s'.setCore c { k' with mode := .wait, wait := w }) ∨
      body s (s.core c) = .over t := by
  unfold issue at h
  split at h
  · cases h
  · dsimp only at h
    split at h
    · cases h; exact .inl rfl
    · split at h
      · cases h; exact .inr (.inl ⟨_, _, rfl⟩)
      · split at h
        · next s' k' pc hb => cases h; exact .inr (.inr (.inl ⟨s', k', pc, hb, rfl⟩))
        · next cause val _ => cases h; exact .inr (.inl ⟨cause, val, rfl⟩)
        · next s' k' w hb => cases h; exact .inr (.inr (.inr (.inl ⟨s', k', w, hb, rfl⟩)))
        · cases h; exact .inl rfl
        · next s' hb => cases h; exact .inr (.inr (.inr (.inr hb)))

/-- An event of a core that the grid has is carried out. -/
theorem coreEvent_next {c : CoreRef} {s : State} (h : s.coreOk c = true) (body : State → Core → State) :
    coreEvent c s body = .next (body s (s.core c)) := by
  unfold coreEvent; rw [if_neg (by simp [h])]

/-- An event of a site in the column window is carried out. -/
theorem siteEvent_next {d : Site} {s : State} (h : s.siteOk d = true) (body : State → Nat → State) :
    siteEvent d s body = .next (body s (siteKey d)) := by
  unfold siteEvent; rw [if_neg (by simp [h])]

end Sys2Proof.Machine
end

