-- ==== Sys2Proof/Laws/Keeps.lean ====
section
/-!
SUPPORT. What every operation of the model keeps: the queue of waiting commands is as it was, and both byte memories stay
in canonical form. `Keeps s0 t` says so of a state `t` that was reached from `s0`; the lemmas of Laws/Keeps*.lean carry it
over every operation, one lemma each, so that no later proof unfolds an operation for it.
-/

namespace Sys2Proof.Machine

/-- `t` has the queue of `s0`, and canonical memories if `s0` has. -/
def Keeps (s0 t : State) : Prop := t.pending = s0.pending ∧ (s0.memWf = true → t.memWf = true)

/-- Every next state of an outcome keeps. -/
def KeepsO (s0 : State) (o : Host.Outcome State Fault Refusal) : Prop := ∀ t, o = .next t → Keeps s0 t

/-- A state that may be absent keeps. -/
def KeepsM (s0 : State) (o : Option State) : Prop := ∀ t, o = some t → Keeps s0 t

/-- Every state that an issue form carries keeps. -/
def KeepsI (s0 : State) : Issue → Prop
  | .done s _ _ => Keeps s0 s
  | .wait s _ _ => Keeps s0 s
  | .over s => Keeps s0 s
  | .trap _ _ => True
  | .stall => True

theorem memWf_iff (s : State) : s.memWf = true ↔ Memory.wf s.mem = true ∧ Memory.wf s.hostMem = true := by
  simp [State.memWf]

theorem Keeps.refl (s : State) : Keeps s s := ⟨rfl, id⟩

theorem Keeps.trans {a b c : State} (h : Keeps a b) (g : Keeps b c) : Keeps a c := ⟨g.1.trans h.1, fun w => g.2 (h.2 w)⟩

/-- A change of other fields keeps. -/
theorem Keeps.same {s0 s t : State} (h : Keeps s0 s) (hp : t.pending = s.pending) (hm : t.mem = s.mem)
    (hh : t.hostMem = s.hostMem) : Keeps s0 t :=
  ⟨hp.trans h.1, fun w => (memWf_iff t).2 (by rw [hm, hh]; exact (memWf_iff s).1 (h.2 w))⟩

/-- A state written out as a record keeps when its queue and memories are those of a state that keeps. -/
theorem Keeps.mk {s0 s : State}
    {a0 a1 a2 a3 a4 a5 a6 a7 a8 a9 a10 a11 a12 a13 a14 a15 a16 a17 a18 a19 a20 a21 a22 a23 a24 a25 a26 a27 a28 a29
    a30 a31 a32 a33 a34 a35 a36 a37 a38 a39 a40}
    (h : Keeps s0 s) (hp : a0 = s.pending) (hm : a2 = s.mem) (hh : a3 = s.hostMem) :
    Keeps s0 (State.mk a0 a1 a2 a3 a4 a5 a6 a7 a8 a9 a10 a11 a12 a13 a14 a15 a16 a17 a18 a19 a20 a21 a22 a23 a24 a25
    a26 a27 a28 a29 a30 a31 a32 a33 a34 a35 a36 a37 a38 a39 a40) :=
  Keeps.same h hp hm hh

/-- A change of the panel's memory that stays canonical keeps. -/
theorem Keeps.mem {s0 s t : State} (h : Keeps s0 s) (hp : t.pending = s.pending)
    (hm : Memory.wf s.mem = true → Memory.wf t.mem = true) (hh : t.hostMem = s.hostMem) : Keeps s0 t :=
  ⟨hp.trans h.1, fun w =>
    have g := (memWf_iff s).1 (h.2 w)
    (memWf_iff t).2 ⟨hm g.1, by rw [hh]; exact g.2⟩⟩

/-- A change of host memory that stays canonical keeps. -/
theorem Keeps.host {s0 s t : State} (h : Keeps s0 s) (hp : t.pending = s.pending) (hm : t.mem = s.mem)
    (hh : Memory.wf s.hostMem = true → Memory.wf t.hostMem = true) : Keeps s0 t :=
  ⟨hp.trans h.1, fun w =>
    have g := (memWf_iff s).1 (h.2 w)
    (memWf_iff t).2 ⟨by rw [hm]; exact g.1, hh g.2⟩⟩

/-- The same when bytes of the panel have been forgotten. -/
theorem Keeps.mkDrop {s0 s : State}
    {a0 a1 a2 a3 a4 a5 a6 a7 a8 a9 a10 a11 a12 a13 a14 a15 a16 a17 a18 a19 a20 a21 a22 a23 a24 a25 a26 a27 a28 a29
    a30 a31 a32 a33 a34 a35 a36 a37 a38 a39 a40}
    (h : Keeps s0 s) (hp : a0 = s.pending) (p : Nat → Bool) (hm : a2 = memDrop s.mem p) (hh : a3 = s.hostMem) :
    Keeps s0 (State.mk a0 a1 a2 a3 a4 a5 a6 a7 a8 a9 a10 a11 a12 a13 a14 a15 a16 a17 a18 a19 a20 a21 a22 a23 a24 a25
    a26 a27 a28 a29 a30 a31 a32 a33 a34 a35 a36 a37 a38 a39 a40) :=
  Keeps.mem h hp (fun w => by show Memory.wf a2 = true; rw [hm]; exact memDrop_wf _ _ w) hh

theorem Keeps.ite {s0 a b : State} {c : Prop} [Decidable c] (ha : Keeps s0 a) (hb : Keeps s0 b) :
    Keeps s0 (if c then a else b) := by
  split
  · exact ha
  · exact hb

theorem KeepsO.next {s0 t : State} (h : Keeps s0 t) : KeepsO s0 (.next t) := fun _ e => by cases e; exact h

theorem KeepsO.fault {s0 : State} (r : Fault) : KeepsO s0 (.fault r) := fun _ e => by cases e

theorem KeepsO.refused {s0 : State} (r : Refusal) : KeepsO s0 (.refused r) := fun _ e => by cases e

theorem KeepsO.ite {s0 : State} {a b : Host.Outcome State Fault Refusal} {c : Prop} [Decidable c] (ha : KeepsO s0 a)
    (hb : KeepsO s0 b) : KeepsO s0 (if c then a else b) := by
  split
  · exact ha
  · exact hb

theorem KeepsI.ofTrap {s0 : State} {c : BitVec 6} {v : Word} : KeepsI s0 (.trap c v) := True.intro

theorem KeepsI.ofStall {s0 : State} : KeepsI s0 .stall := True.intro

theorem KeepsI.ofDone {s0 s : State} {k : Core} {pc : BitVec 19} (h : Keeps s0 s) : KeepsI s0 (.done s k pc) := h

theorem KeepsI.ofWait {s0 s : State} {k : Core} {w : WaitOn} (h : Keeps s0 s) : KeepsI s0 (.wait s k w) := h

theorem KeepsI.ofOver {s0 s : State} (h : Keeps s0 s) : KeepsI s0 (.over s) := h

theorem KeepsI.ite {s0 : State} {a b : Issue} {c : Prop} [Decidable c] (ha : KeepsI s0 a) (hb : KeepsI s0 b) :
    KeepsI s0 (if c then a else b) := by
  split
  · exact ha
  · exact hb

/-! ### States named by what a function answered -/

theorem Keeps.fst {β : Type} {s0 s : State} {b : β} {x : State × β} (e : x = (s, b)) (h : Keeps s0 x.1) : Keeps s0 s := by
  rw [e] at h; exact h

theorem Keeps.snd {β : Type} {s0 s : State} {b : β} {x : β × State} (e : x = (b, s)) (h : Keeps s0 x.2) : Keeps s0 s := by
  rw [e] at h; exact h

theorem Keeps.some {s0 s : State} {x : Option State} (e : x = Option.some s) (h : KeepsM s0 x) : Keeps s0 s := h s e

theorem KeepsM.ofSome {s0 a : State} (h : Keeps s0 a) : KeepsM s0 (.some a) := by
  intro t e; cases e; exact h

theorem KeepsM.ofNone {s0 : State} : KeepsM s0 none := by
  intro t e; cases e

theorem KeepsM.ite {s0 : State} {a b : Option State} {c : Prop} [Decidable c] (ha : KeepsM s0 a) (hb : KeepsM s0 b) :
    KeepsM s0 (if c then a else b) := by
  split
  · exact ha
  · exact hb

theorem KeepsM.map {s0 : State} {o : Option State} {f : State → State} (h : KeepsM s0 o)
    (hf : ∀ t, Keeps s0 t → Keeps s0 (f t)) : KeepsM s0 (o.map f) := by
  cases o with
  | none => exact KeepsM.ofNone
  | some t => exact KeepsM.ofSome (hf t (h t rfl))

/-- The state, or one that keeps where it is absent. -/
theorem KeepsM.getD {s0 a : State} {o : Option State} (h : KeepsM s0 o) (ha : Keeps s0 a) : Keeps s0 (o.getD a) := by
  cases o with
  | none => exact ha
  | some t => exact h t rfl

theorem KeepsI.done {s0 s : State} {k : Core} {pc : BitVec 19} {x : Issue} (e : x = .done s k pc) (h : KeepsI s0 x) :
    Keeps s0 s := by rw [e] at h; exact h

theorem KeepsI.wait {s0 s : State} {k : Core} {w : WaitOn} {x : Issue} (e : x = .wait s k w) (h : KeepsI s0 x) :
    Keeps s0 s := by rw [e] at h; exact h

theorem KeepsI.over {s0 s : State} {x : Issue} (e : x = .over s) (h : KeepsI s0 x) : Keeps s0 s := by
  rw [e] at h; exact h

/-! ### Folds -/

/-- A fold keeps what each of its steps keeps. -/
theorem Keeps.foldl {α : Type} {s0 : State} (f : State → α → State) (l : List α) : ∀ s, Keeps s0 s →
    (∀ t x, Keeps s0 t → Keeps s0 (f t x)) → Keeps s0 (l.foldl f s) := by
  induction l with
  | nil => intro s h _; exact h
  | cons a l ih => intro s h g; exact ih _ (g s a h) g

/-- The same of a fold over a pair whose first part is the panel. -/
theorem Keeps.foldlFst {α β : Type} {s0 : State} (f : State × β → α → State × β) (l : List α) : ∀ p : State × β,
    Keeps s0 p.1 → (∀ q x, Keeps s0 q.1 → Keeps s0 (f q x).1) → Keeps s0 (l.foldl f p).1 := by
  induction l with
  | nil => intro p h _; exact h
  | cons a l ih => intro p h g; exact ih _ (g p a h) g

/-- The same of a fold over a pair whose second part is the panel. -/
theorem Keeps.foldlSnd {α β : Type} {s0 : State} (f : β × State → α → β × State) (l : List α) : ∀ p : β × State,
    Keeps s0 p.2 → (∀ q x, Keeps s0 q.2 → Keeps s0 (f q x).2) → Keeps s0 (l.foldl f p).2 := by
  induction l with
  | nil => intro p h _; exact h
  | cons a l ih => intro p h g; exact ih _ (g p a h) g

end Sys2Proof.Machine
end

