-- ==== Sys2Proof/Laws/KeepsShared.lean ====
section
/-!
SUPPORT. Each operation of the model keeps the waiting commands and the canonical memories (`Keeps`), one lemma each:
the shared operations: reports and records, packets, ports, memory operations, the headworks.
-/

namespace Sys2Proof.Machine

theorem State.setCore_keeps {s0 : State} (s : State) (c : CoreRef) (k : Core) (hk : Keeps s0 s) :
    Keeps s0 (State.setCore s c k) := by
  unfold State.setCore
  try extract_lets
  repeat' (first
    | with_reducible assumption | with_reducible refine Keeps.mk ?_ rfl rfl rfl)

theorem SpOut.state_keeps {s0 : State} (o : SpOut) (c : CoreRef) (hk : Keeps s0 o.s) :
    Keeps s0 (SpOut.state o c) := by
  unfold SpOut.state
  try extract_lets
  repeat' (first
    | with_reducible assumption | with_reducible apply State.setCore_keeps)

theorem State.setPort_keeps {s0 : State} (s : State) (n : Nat) (p : Port) (hk : Keeps s0 s) :
    Keeps s0 (State.setPort s n p) := by
  unfold State.setPort
  try extract_lets
  repeat' (first
    | with_reducible assumption | with_reducible refine Keeps.mk ?_ rfl rfl rfl)

theorem State.onPanel_keeps {s0 : State} (s : State) (f : Panel → Panel) (hk : Keeps s0 s) :
    Keeps s0 (State.onPanel s f) := by
  unfold State.onPanel
  try extract_lets
  repeat' (first
    | with_reducible assumption | with_reducible refine Keeps.mk ?_ rfl rfl rfl)

theorem State.takeSeq_keeps {s0 : State} (s : State) (hk : Keeps s0 s) :
    Keeps s0 (State.takeSeq s).2 := by
  unfold State.takeSeq
  try extract_lets
  repeat' (first
    | with_reducible assumption | with_reducible apply State.onPanel_keeps)

theorem State.tick_keeps {s0 : State} (s : State) (hk : Keeps s0 s) :
    Keeps s0 (State.tick s) := by
  unfold State.tick
  try extract_lets
  repeat' (first
    | with_reducible assumption | with_reducible refine Keeps.mk ?_ rfl rfl rfl)

theorem State.fileRecord_keeps {s0 : State} (s : State) (r : RecRec) (hk : Keeps s0 s) :
    Keeps s0 (State.fileRecord s r) := by
  unfold State.fileRecord
  try extract_lets
  repeat' (first
    | with_reducible assumption | with_reducible apply Keeps.ite | with_reducible refine Keeps.mk ?_ rfl rfl rfl)

theorem State.setHost_keeps {s0 : State} (s : State) (second : Bool) (h : HostIf) (hk : Keeps s0 s) :
    Keeps s0 (State.setHost s second h) := by
  unfold State.setHost
  try extract_lets
  repeat' (first
    | with_reducible assumption | with_reducible refine Keeps.mk ?_ rfl rfl rfl)

theorem State.onPair_keeps {s0 : State} (s : State) (second : Bool) (q : BitVec 4) (f : QPair → QPair) (hk : Keeps s0
    s) :
    Keeps s0 (State.onPair s second q f) := by
  unfold State.onPair
  try extract_lets
  repeat' (first
    | with_reducible assumption | with_reducible apply State.setHost_keeps)

theorem State.hostStore_keeps {s0 : State} (s : State) (second : Bool) (a : Nat) (bs : List Byte) (hk : Keeps s0 s) :
    Keeps s0 (State.hostStore s second a bs) := by
  exact Keeps.host hk rfl rfl (memWrite_wf _ _ _)

theorem State.writeReply_keeps {s0 : State} (s : State) (second : Bool) (q : BitVec 4) (r : Reply) (hk : Keeps s0 s) :
    Keeps s0 (State.writeReply s second q r) := by
  unfold State.writeReply
  try extract_lets
  repeat' (first
    | with_reducible assumption | with_reducible apply State.setHost_keeps
    | with_reducible apply State.hostStore_keeps | with_reducible apply Keeps.ite)

theorem State.putReply_keeps {s0 : State} (s : State) (second : Bool) (q : BitVec 4) (r : Reply) (hk : Keeps s0 s) :
    Keeps s0 (State.putReply s second q r) := by
  unfold State.putReply
  try extract_lets
  repeat' (first
    | with_reducible assumption | with_reducible apply State.onPair_keeps
    | with_reducible apply State.writeReply_keeps | with_reducible apply Keeps.ite)

theorem State.answer_keeps {s0 : State} (s : State) (h : Cmd) (status : BitVec 16) (detail : List Byte) (payload : List
    Byte) (hk : Keeps s0 s) :
    Keeps s0 (State.answer s h status detail payload) := by
  unfold State.answer
  try extract_lets
  repeat' (first
    | with_reducible assumption | with_reducible apply State.onPair_keeps | with_reducible apply State.putReply_keeps
    | split | with_reducible refine Keeps.mk ?_ rfl rfl rfl)

theorem State.wake_keeps {s0 : State} (s : State) (pick : WaitKind × Cmd → Bool) (status : BitVec 16) (detail : List
    Byte) (hk : Keeps s0 s) :
    Keeps s0 (State.wake s pick status detail) := by
  unfold State.wake
  try extract_lets
  repeat' (first
    | with_reducible assumption | with_reducible intro _ | with_reducible apply State.answer_keeps
    | with_reducible apply Keeps.foldl | with_reducible apply Keeps.foldlFst | with_reducible apply Keeps.foldlSnd
    | with_reducible refine Keeps.mk ?_ rfl rfl rfl)

theorem State.event_keeps {s0 : State} (s : State) (b : Nat) (seq : Word) (hk : Keeps s0 s) :
    Keeps s0 (State.event s b seq) := by
  unfold State.event
  try extract_lets
  repeat' (first
    | with_reducible assumption | with_reducible apply State.wake_keeps)

theorem State.recordSeq_keeps {s0 : State} (s : State) (t : RecTrig) (fixed : optParam Bool Bool.false) (hk : Keeps s0
    s) :
    Keeps s0 (State.recordSeq s t fixed).1 := by
  unfold State.recordSeq
  try dsimp only
  repeat' (first
    | with_reducible assumption | with_reducible apply State.takeSeq_keeps | with_reducible apply State.tick_keeps
    | with_reducible apply State.fileRecord_keeps | with_reducible apply State.event_keeps | split
    | with_reducible refine Keeps.mk ?_ rfl rfl rfl)

theorem State.record_keeps {s0 : State} (s : State) (t : RecTrig) (fixed : optParam Bool Bool.false) (hk : Keeps s0 s) :
    Keeps s0 (State.record s t fixed) := by
  unfold State.record
  try extract_lets
  repeat' (first
    | with_reducible assumption | with_reducible intro _ | with_reducible apply State.recordSeq_keeps)

theorem State.setDie_keeps {s0 : State} (s : State) (k : Nat) (d : Die) (hk : Keeps s0 s) :
    Keeps s0 (State.setDie s k d) := by
  unfold State.setDie
  try extract_lets
  repeat' (first
    | with_reducible assumption | with_reducible refine Keeps.mk ?_ rfl rfl rfl)

theorem State.onDie_keeps {s0 : State} (s : State) (k : Nat) (f : Die → Die) (hk : Keeps s0 s) :
    Keeps s0 (State.onDie s k f) := by
  unfold State.onDie
  try extract_lets
  repeat' (first
    | with_reducible assumption | with_reducible apply State.setDie_keeps)

theorem State.onCore_keeps {s0 : State} (s : State) (c : CoreRef) (f : Core → Core) (hk : Keeps s0 s) :
    Keeps s0 (State.onCore s c f) := by
  unfold State.onCore
  try extract_lets
  repeat' (first
    | with_reducible assumption | with_reducible apply State.setCore_keeps)

theorem State.setPart_keeps {s0 : State} (s : State) (n : Nat) (p : Part) (hk : Keeps s0 s) :
    Keeps s0 (State.setPart s n p) := by
  unfold State.setPart
  try extract_lets
  repeat' (first
    | with_reducible assumption | with_reducible refine Keeps.mk ?_ rfl rfl rfl)

theorem State.onPart_keeps {s0 : State} (s : State) (n : Nat) (f : Part → Part) (hk : Keeps s0 s) :
    Keeps s0 (State.onPart s n f) := by
  unfold State.onPart
  try extract_lets
  repeat' (first
    | with_reducible assumption | with_reducible apply State.setPart_keeps)

theorem State.setGroup_keeps {s0 : State} (s : State) (n : Nat) (g : BGroup) (hk : Keeps s0 s) :
    Keeps s0 (State.setGroup s n g) := by
  unfold State.setGroup
  try extract_lets
  repeat' (first
    | with_reducible assumption | with_reducible refine Keeps.mk ?_ rfl rfl rfl)

theorem State.freeSent_keeps {s0 : State} (s : State) (c : CoreRef) (hk : Keeps s0 s) :
    Keeps s0 (State.freeSent s c) := by
  unfold State.freeSent
  try extract_lets
  repeat' (first
    | with_reducible assumption | with_reducible apply State.setCore_keeps | with_reducible apply Keeps.ite | split)

theorem State.pushPort_keeps {s0 : State} (s : State) (n : Nat) (fs : List LinkSlot) (hk : Keeps s0 s) :
    Keeps s0 (State.pushPort s n fs) := by
  unfold State.pushPort
  try extract_lets
  repeat' (first
    | with_reducible assumption | with_reducible apply State.setPort_keeps | with_reducible apply Keeps.ite)

theorem State.linkAck_keeps {s0 : State} (s : State) (p : Packet) (a : AckMsg) (hk : Keeps s0 s) :
    Keeps s0 (State.linkAck s p a) := by
  unfold State.linkAck
  try extract_lets
  repeat' (first
    | with_reducible assumption | with_reducible apply State.pushPort_keeps | split)

theorem State.report_keeps {s0 : State} (s : State) (r : Report) (hk : Keeps s0 s) :
    Keeps s0 (State.report s r) := by
  unfold State.report
  try extract_lets
  repeat' (first
    | with_reducible assumption | with_reducible refine Keeps.mk ?_ rfl rfl rfl)

theorem State.changeCounter_keeps {s0 : State} (s : State) (c : CoreRef) (k : Core) (n : BitVec 6) (new : Counter) (hk
    : Keeps s0 s) :
    Keeps s0 (State.changeCounter s c k n new).1 := by
  unfold State.changeCounter
  try extract_lets
  repeat' (first
    | with_reducible assumption | with_reducible apply State.report_keeps | with_reducible apply Keeps.ite)

theorem State.countBytes_keeps {s0 : State} (s : State) (c : CoreRef) (k : Core) (n : BitVec 6) (bytes : Nat) (hk :
    Keeps s0 s) :
    Keeps s0 (State.countBytes s c k n bytes).1 := by
  unfold State.countBytes
  try extract_lets
  repeat' (first
    | with_reducible assumption | with_reducible apply State.changeCounter_keeps)

theorem State.countIf_keeps {s0 : State} (s : State) (c : CoreRef) (k : Core) (on : Bool) (n : BitVec 6) (bytes : Nat)
    (hk : Keeps s0 s) :
    Keeps s0 (State.countIf s c k on n bytes).1 := by
  unfold State.countIf
  try extract_lets
  repeat' (first
    | with_reducible assumption | with_reducible apply State.countBytes_keeps | split)

theorem State.setRow_keeps {s0 : State} (s : State) (n : Nat) (m : SiteMap) (hk : Keeps s0 s) :
    Keeps s0 (State.setRow s n m) := by
  unfold State.setRow
  try extract_lets
  repeat' (first
    | with_reducible assumption | with_reducible refine Keeps.mk ?_ rfl rfl rfl)

theorem State.setCulvert_keeps {s0 : State} (s : State) (d : Nat) (n : Nat) (g : Culv) (hk : Keeps s0 s) :
    Keeps s0 (State.setCulvert s d n g) := by
  unfold State.setCulvert
  try extract_lets
  repeat' (first
    | with_reducible assumption | with_reducible refine Keeps.mk ?_ rfl rfl rfl)

theorem State.reportParts_keeps {s0 : State} (r : Report) (x1 : List (BitVec 8)) (x2 : State) (hk : Keeps s0 x2) :
    Keeps s0 (State.reportParts r x1 x2) := by
  match x1 with
  | [] => exact State.report_keeps _ _ hk
  | [_] => exact State.report_keeps _ _ hk
  | [_, _] => exact State.report_keeps _ _ hk
  | _ :: _ :: c :: rest => exact State.reportParts_keeps _ (c :: rest) _ (State.report_keeps _ _ hk)
  termination_by x1.length

theorem State.answerData_keeps {s0 : State} (s : State) (h : Cmd) (a : Nat) (data : List Byte) (detail : List Byte) (hk
    : Keeps s0 s) :
    Keeps s0 (State.answerData s h a data detail) := by
  unfold State.answerData
  try extract_lets
  repeat' (first
    | with_reducible assumption | with_reducible apply State.answer_keeps
    | with_reducible apply State.hostStore_keeps | split)

theorem State.setRouter_keeps {s0 : State} (s : State) (c : CoreRef) (r : Router) (hk : Keeps s0 s) :
    Keeps s0 (State.setRouter s c r) := by
  unfold State.setRouter
  try extract_lets
  repeat' (first
    | with_reducible assumption | with_reducible refine Keeps.mk ?_ rfl rfl rfl)

theorem State.enter_keeps {s0 : State} (s : State) (c : CoreRef) (inp : Nat) (p : Packet) (hk : Keeps s0 s) :
    Keeps s0 (State.enter s c inp p) := by
  unfold State.enter
  try extract_lets
  repeat' (first
    | with_reducible assumption | with_reducible apply State.setRouter_keeps)

theorem State.inject_keeps {s0 : State} (s : State) (c : CoreRef) (p : Packet) (hk : Keeps s0 s) :
    Keeps s0 (State.inject s c p) := by
  unfold State.inject
  try extract_lets
  repeat' (first
    | with_reducible assumption | with_reducible apply State.enter_keeps)

theorem State.setStack_keeps {s0 : State} (s : State) (n : Nat) (k : Stack) (hk : Keeps s0 s) :
    Keeps s0 (State.setStack s n k) := by
  unfold State.setStack
  try extract_lets
  repeat' (first
    | with_reducible assumption | with_reducible refine Keeps.mk ?_ rfl rfl rfl)

theorem State.setEdge_keeps {s0 : State} (s : State) (d : Nat) (n : Nat) (e : Edge) (hk : Keeps s0 s) :
    Keeps s0 (State.setEdge s d n e) := by
  unfold State.setEdge
  try extract_lets
  repeat' (first
    | with_reducible assumption | with_reducible refine Keeps.mk ?_ rfl rfl rfl)

theorem State.armCounter_keeps {s0 : State} (s : State) (c : CoreRef) (k : Core) (n : BitVec 6) (bytes : Nat) (hk :
    Keeps s0 s) :
    Keeps s0 (State.armCounter s c k n bytes).1 := by
  unfold State.armCounter
  try extract_lets
  repeat' (first
    | with_reducible assumption | with_reducible apply State.changeCounter_keeps)

theorem State.setMsd_keeps {s0 : State} (s : State) (n : Nat) (m : Msd) (hk : Keeps s0 s) :
    Keeps s0 (State.setMsd s n m) := by
  unfold State.setMsd
  try extract_lets
  repeat' (first
    | with_reducible assumption | with_reducible refine Keeps.mk ?_ rfl rfl rfl)

theorem State.setRegion_keeps {s0 : State} (s : State) (d : Nat) (n : Nat) (r : Region) (hk : Keeps s0 s) :
    Keeps s0 (State.setRegion s d n r) := by
  unfold State.setRegion
  try extract_lets
  repeat' (first
    | with_reducible assumption | with_reducible refine Keeps.mk ?_ rfl rfl rfl)

theorem State.recordKind_keeps {s0 : State} (s : State) (kind : BitVec 8) (data : List Byte) (hk : Keeps s0 s) :
    Keeps s0 (State.recordKind s kind data) := by
  unfold State.recordKind
  try extract_lets
  repeat' (first
    | with_reducible assumption | with_reducible apply State.record_keeps)

theorem State.setShadow_keeps {s0 : State} (s : State) (n : Nat) (sh : Shadow) (hk : Keeps s0 s) :
    Keeps s0 (State.setShadow s n sh) := by
  unfold State.setShadow
  try extract_lets
  repeat' (first
    | with_reducible assumption | with_reducible refine Keeps.mk ?_ rfl rfl rfl)

theorem State.store_keeps {s0 : State} (s : State) (a : Nat) (bs : List Byte) (hk : Keeps s0 s) :
    Keeps s0 (State.store s a bs) := by
  exact Keeps.mem hk rfl (memWrite_wf _ _ _) rfl

theorem State.coreFault_keeps {s0 : State} (s : State) (c : CoreRef) (r : Report) (hk : Keeps s0 s) :
    Keeps s0 (State.coreFault s c r) := by
  unfold State.coreFault
  try extract_lets
  repeat' (first
    | with_reducible assumption | with_reducible apply State.report_keeps | with_reducible apply State.onCore_keeps)

theorem State.mute_keeps {s0 : State} (s : State) (pick : Cmd → Bool) (hk : Keeps s0 s) :
    Keeps s0 (State.mute s pick) := by
  unfold State.mute
  try extract_lets
  repeat' (first
    | with_reducible assumption | with_reducible refine Keeps.mk ?_ rfl rfl rfl)

theorem eccCorrect_keeps {s0 : State} (c : CoreRef) (port : Nat) (o : State × Core) (e : Nat × EccErr) (hk : Keeps s0
    o.1) :
    Keeps s0 (eccCorrect c port o e).1 := by
  unfold eccCorrect
  try extract_lets
  repeat' (first
    | with_reducible assumption | with_reducible apply State.report_keeps)

theorem eccCheck_keeps {s0 : State} (s : State) (c : CoreRef) (k : Core) (port : Nat) (off : Nat) (len : Nat) (hk :
    Keeps s0 s) :
    Keeps s0 (eccCheck s c k port off len).1 := by
  unfold eccCheck
  try extract_lets
  repeat' (first
    | with_reducible assumption | with_reducible apply eccCorrect_keeps | with_reducible apply State.report_keeps
    | with_reducible apply Keeps.foldlFst | split)

theorem spReadOver_keeps {s0 : State} (s : State) (c : CoreRef) (k : Core) (stores : List RowWrite) (port : Nat) (off :
    Nat) (len : Nat) (hk : Keeps s0 s) :
    Keeps s0 (spReadOver s c k stores port off len).s := by
  unfold spReadOver
  try extract_lets
  repeat' (first
    | with_reducible assumption | with_reducible apply eccCheck_keeps)

theorem State.deliver_keeps {s0 : State} (s : State) (h : Cmd) (a : Nat) (len : Nat) (data : List Byte) (detail : List
    Byte) (hk : Keeps s0 s) :
    Keeps s0 (State.deliver s h a len data detail) := by
  unfold State.deliver
  try extract_lets
  repeat' (first
    | with_reducible assumption | with_reducible apply State.answerData_keeps
    | with_reducible apply State.answer_keeps | with_reducible apply Keeps.ite)

theorem State.sendPort_keeps {s0 : State} (s : State) (n : Nat) (p : Packet) (hk : Keeps s0 s) :
    Keeps s0 (State.sendPort s n p) := by
  unfold State.sendPort
  try extract_lets
  repeat' (first
    | with_reducible assumption | with_reducible apply State.setShadow_keeps
    | with_reducible apply State.pushPort_keeps | with_reducible apply Keeps.ite)

theorem spWrite_keeps {s0 : State} (s : State) (c : CoreRef) (k : Core) (port : Nat) (off : Nat) (bs : List Byte) (hk :
    Keeps s0 s) :
    Keeps s0 (spWrite s c k port off bs).s := by
  unfold spWrite
  try extract_lets
  repeat' (first
    | with_reducible assumption | with_reducible intro _ | with_reducible apply eccCheck_keeps
    | with_reducible apply State.tick_keeps | with_reducible apply State.store_keeps
    | with_reducible apply Keeps.foldlFst | split)

theorem State.park_keeps {s0 : State} (s : State) (h : Cmd) (w : WaitKind) (hk : Keeps s0 s) :
    Keeps s0 (State.park s h w) := by
  unfold State.park
  try extract_lets
  repeat' (first
    | with_reducible assumption | with_reducible intro _ | with_reducible apply State.answer_keeps
    | with_reducible apply Keeps.ite | with_reducible refine Keeps.mk ?_ rfl rfl rfl)

theorem State.trap_keeps {s0 : State} (s : State) (c : CoreRef) (cause : BitVec 6) (val : Word) (hk : Keeps s0 s) :
    Keeps s0 (State.trap s c cause val) := by
  unfold State.trap
  try extract_lets
  repeat' (first
    | with_reducible assumption | with_reducible apply State.report_keeps | with_reducible apply State.onCore_keeps)

theorem coreEvent_keeps {s0 : State} (c : CoreRef) (s : State) (body : State → Core → State) (hk : Keeps s0 s) (hb : ∀
    (t : State) (y1 : Core), Keeps s0 t → Keeps s0 (body t y1)) :
    KeepsO s0 (coreEvent c s body) := by
  unfold coreEvent
  try extract_lets
  repeat' (first
    | with_reducible assumption | with_reducible apply KeepsO.ite | with_reducible apply KeepsO.next
    | with_reducible apply KeepsO.fault | (refine hb _ _ ?_))

theorem command_keeps {s0 : State} (h : Cmd) (g : Gate) (s : State) (body : State → State) (asks : State → Asks) (hk :
    Keeps s0 s) (hb : ∀ (t : State), Keeps s0 t → Keeps s0 (body t)) :
    KeepsO s0 (command h g s body asks) := by
  unfold command
  try extract_lets
  repeat' (first
    | with_reducible assumption | with_reducible apply State.answer_keeps
    | with_reducible apply State.recordKind_keeps | with_reducible apply State.recordKind_keeps
    | with_reducible apply KeepsO.next | with_reducible apply Keeps.ite | with_reducible apply Keeps.foldlFst
    | with_reducible apply Keeps.foldlSnd | split | (refine hb _ ?_))

theorem issue_keeps {s0 : State} (c : CoreRef) (s : State) (body : State → Core → Issue) (hk : Keeps s0 s) (hb : ∀ (t :
    State) (y1 : Core), Keeps s0 t → KeepsI s0 (body t y1)) :
    KeepsO s0 (issue c s body) := by
  unfold issue
  try extract_lets
  repeat' (first
    | with_reducible assumption | with_reducible apply State.trap_keeps | with_reducible apply State.setCore_keeps
    | with_reducible apply KeepsO.next | with_reducible apply KeepsO.fault | split | (refine hb _ _ ?_)
    | with_reducible refine KeepsI.done ‹_ = Issue.done _ _ _› ?_
    | with_reducible refine KeepsI.wait ‹_ = Issue.wait _ _ _› ?_
    | with_reducible refine KeepsI.over ‹_ = Issue.over _› ?_)

theorem spRead_keeps {s0 : State} (s : State) (c : CoreRef) (k : Core) (port : Nat) (off : Nat) (len : Nat) (hk : Keeps
    s0 s) :
    Keeps s0 (spRead s c k port off len).s := by
  unfold spRead
  try extract_lets
  repeat' (first
    | with_reducible assumption | with_reducible apply spReadOver_keeps)

theorem siteEvent_keeps {s0 : State} (d : Site) (s : State) (body : State → Nat → State) (hk : Keeps s0 s) (hb : ∀ (t :
    State) (y1 : Nat), Keeps s0 t → Keeps s0 (body t y1)) :
    KeepsO s0 (siteEvent d s body) := by
  unfold siteEvent
  try extract_lets
  repeat' (first
    | with_reducible assumption | with_reducible apply KeepsO.ite | with_reducible apply KeepsO.next
    | with_reducible apply KeepsO.fault | (refine hb _ _ ?_))

end Sys2Proof.Machine
end

