-- ==== Sys2Proof/Laws/KeepsRouting.lean ====
section
/-!
SUPPORT. Each operation of the model keeps the waiting commands and the canonical memories (`Keeps`), one lemma each:
routers, turnouts, job ends and collectors.
-/

namespace Sys2Proof.Machine

theorem State.newMsg_keeps {s0 : State} (s : State) (b : GroupBinding) (hk : Keeps s0 s) :
    Keeps s0 (State.newMsg s b).2 := by
  unfold State.newMsg
  try extract_lets
  repeat' (first
    | with_reducible assumption | with_reducible refine Keeps.mk ?_ rfl rfl rfl)

theorem State.ringSend_keeps {s0 : State} (s : State) (kind : RingKind) (m : RingMsg) (hk : Keeps s0 s) :
    Keeps s0 (State.ringSend s kind m) := by
  unfold State.ringSend
  try extract_lets
  repeat' (first
    | with_reducible assumption | with_reducible apply Keeps.ite | with_reducible refine Keeps.mk ?_ rfl rfl rfl)

theorem State.portSend_keeps {s0 : State} (s : State) (n : Nat) (kind : RingKind) (m : RingMsg) (hk : Keeps s0 s) :
    Keeps s0 (State.portSend s n kind m) := by
  unfold State.portSend
  try extract_lets
  repeat' (first
    | with_reducible assumption | with_reducible apply State.setPort_keeps)

theorem State.abortTokenOut_keeps {s0 : State} (s : State) (n : Nat) (reason : BitVec 16) (hk : Keeps s0 s) :
    Keeps s0 (State.abortTokenOut s n reason) := by
  unfold State.abortTokenOut
  try extract_lets
  repeat' (first
    | with_reducible assumption | with_reducible intro _ | with_reducible apply State.newMsg_keeps
    | with_reducible apply State.ringSend_keeps | with_reducible apply State.portSend_keeps
    | with_reducible apply Keeps.foldl | split | with_reducible refine Keeps.mk ?_ rfl rfl rfl)

theorem State.keepFatal_keeps {s0 : State} (s : State) (hk : Keeps s0 s) :
    Keeps s0 (State.keepFatal s) := by
  unfold State.keepFatal
  try extract_lets
  repeat' (first
    | with_reducible assumption | with_reducible refine Keeps.mk ?_ rfl rfl rfl)

theorem State.recordFault_keeps {s0 : State} (s : State) (f : FaultRec) (hk : Keeps s0 s) :
    Keeps s0 (State.recordFault s f) := by
  unfold State.recordFault
  try extract_lets
  repeat' (first
    | with_reducible assumption | with_reducible apply State.record_keeps
    | with_reducible apply State.keepFatal_keeps | with_reducible apply Keeps.ite)

theorem State.pldmEvent_keeps {s0 : State} (s : State) (source : BitVec 16) (hk : Keeps s0 s) :
    Keeps s0 (State.pldmEvent s source) := by
  unfold State.pldmEvent
  try extract_lets
  repeat' (first
    | with_reducible assumption | with_reducible apply State.onPanel_keeps)

theorem State.faultEdge_keeps {s0 : State} (s : State) (before : Bool) (seq : Word) (hk : Keeps s0 s) :
    Keeps s0 (State.faultEdge s before seq) := by
  unfold State.faultEdge
  try extract_lets
  repeat' (first
    | with_reducible assumption | with_reducible apply State.event_keeps | with_reducible apply Keeps.ite)

theorem State.fileReport_keeps {s0 : State} (s : State) (r : Report) (hk : Keeps s0 s) :
    Keeps s0 (State.fileReport s r).2 := by
  unfold State.fileReport
  try extract_lets
  repeat' (first
    | with_reducible assumption | with_reducible apply State.takeSeq_keeps
    | with_reducible apply State.recordFault_keeps | with_reducible apply State.event_keeps
    | with_reducible apply State.pldmEvent_keeps | with_reducible apply State.faultEdge_keeps | split
    | with_reducible refine Keeps.mk ?_ rfl rfl rfl)

theorem State.closeRecords_keeps {s0 : State} (s : State) (hk : Keeps s0 s) :
    Keeps s0 (State.closeRecords s) := by
  unfold State.closeRecords
  try extract_lets
  repeat' (first
    | with_reducible assumption | with_reducible refine Keeps.mk ?_ rfl rfl rfl)

theorem State.decideRetire_keeps {s0 : State} (s : State) (u : RetUnit) (source : BitVec 16) (seq : Word) (hk : Keeps
    s0 s) :
    Keeps s0 (State.decideRetire s u source seq) := by
  unfold State.decideRetire
  try extract_lets
  repeat' (first
    | with_reducible assumption | with_reducible apply State.onDie_keeps | with_reducible apply Keeps.ite
    | with_reducible refine Keeps.mk ?_ rfl rfl rfl)

theorem State.countCorrection_keeps {s0 : State} (s : State) (r : Report) (seq : Word) (hk : Keeps s0 s) :
    Keeps s0 (State.countCorrection s r seq) := by
  unfold State.countCorrection
  try extract_lets
  repeat' (first
    | with_reducible assumption | with_reducible apply State.tick_keeps
    | with_reducible apply State.decideRetire_keeps | with_reducible apply Keeps.ite
    | with_reducible refine Keeps.mk ?_ rfl rfl rfl)

theorem State.beginTest_keeps {s0 : State} (s : State) (d : Nat) (index : Nat) (hk : Keeps s0 s) :
    Keeps s0 (State.beginTest s d index) := by
  unfold State.beginTest
  try extract_lets
  repeat' (first
    | with_reducible assumption | with_reducible apply State.onCore_keeps | split)

theorem State.judge_keeps {s0 : State} (s : State) (r : Report) (seq : Word) (hk : Keeps s0 s) :
    Keeps s0 (State.judge s r seq) := by
  unfold State.judge
  try extract_lets
  repeat' (first
    | with_reducible assumption | with_reducible apply State.decideRetire_keeps
    | with_reducible apply State.countCorrection_keeps | with_reducible apply State.tick_keeps
    | with_reducible apply State.beginTest_keeps | split | with_reducible refine Keeps.mk ?_ rfl rfl rfl)

theorem State.answerEnd_keeps {s0 : State} (s : State) (n : Nat) (hk : Keeps s0 s) :
    Keeps s0 (State.answerEnd s n) := by
  unfold State.answerEnd
  try extract_lets
  repeat' (first
    | with_reducible assumption | with_reducible apply State.onPart_keeps | with_reducible apply State.answer_keeps
    | split)

theorem State.freeGroups_keeps {s0 : State} (s : State) (n : Nat) (hk : Keeps s0 s) :
    Keeps s0 (State.freeGroups s n) := by
  unfold State.freeGroups
  try extract_lets
  repeat' (first
    | with_reducible assumption | with_reducible intro _ | with_reducible apply State.setGroup_keeps
    | with_reducible apply Keeps.foldl | with_reducible refine Keeps.mk ?_ rfl rfl rfl)

theorem State.tearFlumes_keeps {s0 : State} (s : State) (pick : BitVec 4 → BitVec 12 → Bool) (hk : Keeps s0 s) :
    Keeps s0 (State.tearFlumes s pick) := by
  unfold State.tearFlumes
  try extract_lets
  repeat' (first
    | with_reducible assumption | with_reducible intro _ | with_reducible apply State.freeSent_keeps
    | with_reducible apply Keeps.foldl | with_reducible refine Keeps.mk ?_ rfl rfl rfl)

theorem State.unsealPorts_keeps {s0 : State} (s : State) (group : BitVec 16) (hk : Keeps s0 s) :
    Keeps s0 (State.unsealPorts s group) := by
  unfold State.unsealPorts
  try extract_lets
  repeat' (first
    | with_reducible assumption | with_reducible apply State.tick_keeps
    | with_reducible refine Keeps.mk ?_ rfl rfl rfl)

theorem State.endSealing_keeps {s0 : State} (s : State) (n : Nat) (hk : Keeps s0 s) :
    Keeps s0 (State.endSealing s n) := by
  unfold State.endSealing
  try extract_lets
  repeat' (first
    | with_reducible assumption | with_reducible apply State.unsealPorts_keeps | split)

theorem State.dropScratchpads_keeps {s0 : State} (s : State) (mine : CoreRef → Bool) (hk : Keeps s0 s) :
    Keeps s0 (State.dropScratchpads s mine) := by
  unfold State.dropScratchpads
  try extract_lets
  repeat' (first
    | with_reducible assumption | with_reducible refine Keeps.mkDrop ?_ rfl _ rfl rfl)

theorem State.eraseRanges_keeps {s0 : State} (s : State) (ranges : List (BitVec 9 × BitVec 9)) (hk : Keeps s0 s) :
    Keeps s0 (State.eraseRanges s ranges) := by
  unfold State.eraseRanges
  try extract_lets
  repeat' (first
    | with_reducible assumption | with_reducible refine Keeps.mkDrop ?_ rfl _ rfl rfl)

theorem State.endHbm_keeps {s0 : State} (s : State) (n : Nat) (hk : Keeps s0 s) :
    Keeps s0 (State.endHbm s n) := by
  unfold State.endHbm
  try extract_lets
  repeat' (first
    | with_reducible assumption | with_reducible apply State.eraseRanges_keeps
    | with_reducible refine Keeps.mk ?_ rfl rfl rfl)

theorem State.regionsOff_keeps {s0 : State} (s : State) (sites : Nat → Bool) (hk : Keeps s0 s) :
    Keeps s0 (State.regionsOff s sites) := by
  unfold State.regionsOff
  try extract_lets
  repeat' (first
    | with_reducible assumption | with_reducible refine Keeps.mk ?_ rfl rfl rfl)

theorem State.endRegions_keeps {s0 : State} (s : State) (n : Nat) (hk : Keeps s0 s) :
    Keeps s0 (State.endRegions s n) := by
  unfold State.endRegions
  try extract_lets
  repeat' (first
    | with_reducible assumption | with_reducible apply State.regionsOff_keeps
    | with_reducible refine Keeps.mk ?_ rfl rfl rfl)

theorem State.idleDies_keeps {s0 : State} (s : State) (n : Nat) (hk : Keeps s0 s) :
    Keeps s0 (State.idleDies s n) := by
  unfold State.idleDies
  try extract_lets
  repeat' (first
    | with_reducible assumption | with_reducible intro _ | with_reducible apply State.onDie_keeps
    | with_reducible apply Keeps.foldl)

theorem State.endSteps_keeps {s0 : State} (s : State) (n : Nat) (hk : Keeps s0 s) :
    Keeps s0 (State.endSteps s n) := by
  unfold State.endSteps
  try extract_lets
  repeat' (first
    | with_reducible assumption | with_reducible apply State.freeGroups_keeps
    | with_reducible apply State.tearFlumes_keeps | with_reducible apply State.endSealing_keeps
    | with_reducible apply State.dropScratchpads_keeps | with_reducible apply State.endHbm_keeps
    | with_reducible apply State.onPart_keeps | with_reducible apply State.endRegions_keeps
    | with_reducible apply State.idleDies_keeps | with_reducible refine Keeps.mk ?_ rfl rfl rfl)

theorem State.stopCores_keeps {s0 : State} (s : State) (n : Nat) (hk : Keeps s0 s) :
    Keeps s0 (State.stopCores s n) := by
  unfold State.stopCores
  try extract_lets
  repeat' (first
    | with_reducible assumption | with_reducible intro _ | with_reducible apply State.onCore_keeps
    | with_reducible apply Keeps.foldl)

theorem State.wakeJob_keeps {s0 : State} (s : State) (n : Nat) (e : JobEnd) (hk : Keeps s0 s) :
    Keeps s0 (State.wakeJob s n e) := by
  unfold State.wakeJob
  try extract_lets
  repeat' (first
    | with_reducible assumption | with_reducible apply State.wake_keeps)

theorem State.endJob_keeps {s0 : State} (s : State) (n : Nat) (e : JobEnd) (hk : Keeps s0 s) :
    Keeps s0 (State.endJob s n e) := by
  unfold State.endJob
  try extract_lets
  repeat' (first
    | with_reducible assumption | with_reducible apply State.answerEnd_keeps
    | with_reducible apply State.endSteps_keeps | with_reducible apply State.abortTokenOut_keeps
    | with_reducible apply State.stopCores_keeps | with_reducible apply State.onPart_keeps
    | with_reducible apply State.record_keeps | with_reducible apply State.wakeJob_keeps
    | with_reducible apply Keeps.ite)

theorem State.gatePanel_keeps {s0 : State} (s : State) (hk : Keeps s0 s) :
    Keeps s0 (State.gatePanel s) := by
  unfold State.gatePanel
  try extract_lets
  repeat' (first
    | with_reducible assumption | with_reducible apply State.onPanel_keeps
    | with_reducible apply State.regionsOff_keeps | with_reducible refine Keeps.mkDrop ?_ rfl _ rfl rfl)

theorem State.endAll_keeps {s0 : State} (s : State) (e : JobEnd) (hk : Keeps s0 s) :
    Keeps s0 (State.endAll s e) := by
  unfold State.endAll
  try extract_lets
  repeat' (first
    | with_reducible assumption | with_reducible intro _ | with_reducible apply State.endJob_keeps
    | with_reducible apply Keeps.foldl)

theorem State.panelStop_keeps {s0 : State} (s : State) (seq : Word) (hk : Keeps s0 s) :
    Keeps s0 (State.panelStop s seq) := by
  unfold State.panelStop
  try extract_lets
  repeat' (first
    | with_reducible assumption | with_reducible apply State.onPanel_keeps
    | with_reducible apply State.gatePanel_keeps | with_reducible apply State.endAll_keeps)

theorem State.classEffect_keeps {s0 : State} (s : State) (r : Report) (seq : Word) (hk : Keeps s0 s) :
    Keeps s0 (State.classEffect s r seq) := by
  unfold State.classEffect
  try extract_lets
  repeat' (first
    | with_reducible assumption | with_reducible intro _ | with_reducible apply State.endJob_keeps
    | with_reducible apply State.panelStop_keeps | with_reducible apply State.onPanel_keeps
    | with_reducible apply Keeps.foldl | split)

theorem State.accept_keeps {s0 : State} (s : State) (r : Report) (hk : Keeps s0 s) :
    Keeps s0 (State.accept s r) := by
  unfold State.accept
  try extract_lets
  repeat' (first
    | with_reducible assumption | with_reducible intro _ | with_reducible apply State.fileReport_keeps
    | with_reducible apply State.closeRecords_keeps | with_reducible apply State.judge_keeps
    | with_reducible apply State.classEffect_keeps)

theorem State.acceptOwn_keeps {s0 : State} (s : State) (r : Report) (hk : Keeps s0 s) :
    Keeps s0 (State.acceptOwn s r) := by
  unfold State.acceptOwn
  try extract_lets
  repeat' (first
    | with_reducible assumption | with_reducible apply State.accept_keeps | with_reducible apply State.tick_keeps)

theorem State.ackPacket_keeps {s0 : State} (s : State) (p : Packet) (status : BitVec 8) (hk : Keeps s0 s) :
    Keeps s0 (State.ackPacket s p status) := by
  unfold State.ackPacket
  try extract_lets
  repeat' (first
    | with_reducible assumption | with_reducible apply State.linkAck_keeps | split
    | with_reducible refine Keeps.mk ?_ rfl rfl rfl)

theorem State.culvertLoses_keeps {s0 : State} (s : State) (k : Nat) (m : Nat) (ps : List Packet) (hk : Keeps s0 s) :
    Keeps s0 (State.culvertLoses s k m ps) := by
  unfold State.culvertLoses
  try extract_lets
  repeat' (first
    | with_reducible assumption | with_reducible apply State.reportParts_keeps)

theorem State.answerPacket_keeps {s0 : State} (s : State) (c : CoreRef) (p : Packet) (status : BitVec 8) (hk : Keeps s0
    s) :
    Keeps s0 (State.answerPacket s c p status) := by
  unfold State.answerPacket
  try extract_lets
  repeat' (first
    | with_reducible assumption | with_reducible apply State.ackPacket_keeps
    | with_reducible apply State.inject_keeps | with_reducible apply Keeps.ite)

theorem State.weirFailed_keeps {s0 : State} (s : State) (w : Site) (hk : Keeps s0 s) :
    Keeps s0 (State.weirFailed s w) := by
  unfold State.weirFailed
  try extract_lets
  repeat' (first
    | with_reducible assumption | with_reducible apply Keeps.ite | with_reducible refine Keeps.mk ?_ rfl rfl rfl)

theorem State.purge_keeps {s0 : State} (s : State) (p : Packet) (hk : Keeps s0 s) :
    Keeps s0 (State.purge s p) := by
  unfold State.purge
  try extract_lets
  repeat' (first
    | with_reducible assumption | with_reducible refine Keeps.mk ?_ rfl rfl rfl)

theorem State.sinkPacket_keeps {s0 : State} (s : State) (c : CoreRef) (p : Packet) (status : BitVec 8) (hk : Keeps s0
    s) :
    Keeps s0 (State.sinkPacket s c p status) := by
  unfold State.sinkPacket
  try extract_lets
  repeat' (first
    | with_reducible assumption | with_reducible apply State.answerPacket_keeps
    | with_reducible apply State.purge_keeps)

theorem State.edgeDrop_keeps {s0 : State} (s : State) (d : Nat) (edge : Nat) (hk : Keeps s0 s) :
    Keeps s0 (State.edgeDrop s d edge).2 := by
  unfold State.edgeDrop
  try extract_lets
  repeat' (first
    | with_reducible assumption | with_reducible intro _ | with_reducible apply State.setEdge_keeps
    | with_reducible apply State.purge_keeps | with_reducible apply State.sinkPacket_keeps
    | with_reducible apply State.tearFlumes_keeps | with_reducible apply Keeps.foldl)

theorem State.edgeFail_keeps {s0 : State} (s : State) (d : Nat) (edge : Nat) (hk : Keeps s0 s) :
    Keeps s0 (State.edgeFail s d edge) := by
  unfold State.edgeFail
  try dsimp only
  repeat' (first
    | with_reducible assumption | with_reducible apply State.edgeDrop_keeps
    | with_reducible apply State.weirFailed_keeps | with_reducible apply State.reportParts_keeps
    | with_reducible apply Keeps.foldl | split)

theorem State.controlDrop_keeps {s0 : State} (s : State) (x1 : CtlLost) (hk : Keeps s0 s) :
    Keeps s0 (State.controlDrop s x1) := by
  unfold State.controlDrop
  try extract_lets
  repeat' (first
    | with_reducible assumption | split | with_reducible refine Keeps.mk ?_ rfl rfl rfl)

theorem State.dropLoads_keeps {s0 : State} (s : State) (n : Nat) (status : BitVec 16) (hk : Keeps s0 s) :
    Keeps s0 (State.dropLoads s n status) := by
  unfold State.dropLoads
  try extract_lets
  repeat' (first
    | with_reducible assumption | with_reducible intro _ | with_reducible apply State.answer_keeps
    | with_reducible apply State.onPart_keeps | with_reducible apply Keeps.foldl)

theorem State.edgeReplay_keeps {s0 : State} (s : State) (d : Nat) (edge : Nat) (n : Nat) (injected : Bool) (hk : Keeps
    s0 s) :
    Keeps s0 (State.edgeReplay s d edge n injected) := by
  unfold State.edgeReplay
  try extract_lets
  repeat' (first
    | with_reducible assumption | with_reducible apply State.onDie_keeps | with_reducible apply State.setEdge_keeps
    | with_reducible apply State.report_keeps)

theorem State.headerBad_keeps {s0 : State} (s : State) (c : CoreRef) (p : Packet) (lane0 : Bool) (lane3 : Bool) (hk :
    Keeps s0 s) :
    Keeps s0 (State.headerBad s c p lane0 lane3) := by
  unfold State.headerBad
  try extract_lets
  repeat' (first
    | with_reducible assumption | with_reducible apply State.report_keeps | with_reducible apply State.purge_keeps
    | with_reducible apply State.onDie_keeps | split)

theorem State.toPort_keeps {s0 : State} (s : State) (c : CoreRef) (n : Nat) (p : Packet) (hk : Keeps s0 s) :
    Keeps s0 (State.toPort s c n p) := by
  unfold State.toPort
  try extract_lets
  repeat' (first
    | with_reducible assumption | with_reducible apply State.sendPort_keeps
    | with_reducible apply State.headerBad_keeps | with_reducible apply Keeps.ite)

theorem State.eject_keeps {s0 : State} (s : State) (c : CoreRef) (out : Nat) (p : Packet) (hk : Keeps s0 s) :
    Keeps s0 (State.eject s c out p) := by
  unfold State.eject
  try extract_lets
  repeat' (first
    | with_reducible assumption | with_reducible apply State.onCore_keeps
    | with_reducible apply State.culvertLoses_keeps | with_reducible apply State.setCulvert_keeps
    | with_reducible apply State.toPort_keeps | split)

theorem State.flumeDeliver_keeps {s0 : State} (s : State) (c : CoreRef) (h : FlumeHop) (f : FlumeFlit) (hk : Keeps s0
    s) :
    Keeps s0 (State.flumeDeliver s c h f) := by
  unfold State.flumeDeliver
  try extract_lets
  repeat' (first
    | with_reducible assumption | with_reducible apply State.onCore_keeps
    | with_reducible apply State.setRouter_keeps | split | with_reducible refine Keeps.mk ?_ rfl rfl rfl)

theorem State.takeFlumeFlit_keeps {s0 : State} (s : State) (c : CoreRef) (r : Router) (i : Nat) (h : FlumeHop) (hk :
    Keeps s0 s) :
    Keeps s0 (State.takeFlumeFlit s c r i h) := by
  unfold State.takeFlumeFlit
  try extract_lets
  repeat' (first
    | with_reducible assumption | with_reducible apply State.setRouter_keeps
    | with_reducible apply State.freeSent_keeps | with_reducible apply State.onCore_keeps
    | with_reducible apply Keeps.ite)

theorem State.localCopy_keeps {s0 : State} (s : State) (c : CoreRef) (f : Flit) (hk : Keeps s0 s) :
    Keeps s0 (State.localCopy s c f) := by
  unfold State.localCopy
  try extract_lets
  repeat' (first
    | with_reducible assumption | with_reducible apply State.onCore_keeps | with_reducible apply Keeps.ite)

theorem State.moveFlit_keeps {s0 : State} (s : State) (c : CoreRef) (r : Router) (out : Nat) (w : Cand) (ch : Nat) (f :
    Flit) (rest : List Flit) (hk : Keeps s0 s) :
    Keeps s0 (State.moveFlit s c r out w ch f rest) := by
  unfold State.moveFlit
  try extract_lets
  repeat' (first
    | with_reducible assumption | with_reducible apply State.setRouter_keeps
    | with_reducible apply State.freeSent_keeps | with_reducible apply State.localCopy_keeps
    | with_reducible apply State.eject_keeps | with_reducible apply Keeps.ite | split)

theorem State.forward_keeps {s0 : State} (s : State) (c : CoreRef) (r : Router) (out : Nat) (w : Cand) (hk : Keeps s0
    s) :
    Keeps s0 (State.forward s c r out w) := by
  unfold State.forward
  try extract_lets
  repeat' (first
    | with_reducible assumption | with_reducible apply State.flumeDeliver_keeps
    | with_reducible apply State.takeFlumeFlit_keeps | with_reducible apply State.setRouter_keeps
    | with_reducible apply State.sinkPacket_keeps | with_reducible apply State.onCore_keeps
    | with_reducible apply State.moveFlit_keeps | split)

theorem State.headerFound_keeps {s0 : State} (s : State) (c : CoreRef) (out : Nat) (lane0 : Bool) (lane3 : Bool) (hk :
    Keeps s0 s) :
    Keeps s0 (State.headerFound s c out lane0 lane3) := by
  unfold State.headerFound
  try extract_lets
  repeat' (first
    | with_reducible assumption | with_reducible apply State.headerBad_keeps | split)

theorem State.outputCycle_keeps {s0 : State} (s : State) (c : CoreRef) (out : Nat) (hk : Keeps s0 s) :
    Keeps s0 (State.outputCycle s c out) := by
  unfold State.outputCycle
  try extract_lets
  repeat' (first
    | with_reducible assumption | with_reducible apply State.setRouter_keeps
    | with_reducible apply State.forward_keeps | split)

theorem execRouterFlitForward_keeps {s0 : State} (c : CoreRef) (out : BitVec 3) (ev : FlitEvent) (s : State) (hk :
    Keeps s0 s) :
    KeepsO s0 (execRouterFlitForward c out ev s) := by
  unfold execRouterFlitForward
  try extract_lets
  repeat' (first
    | with_reducible assumption | with_reducible intro _ | with_reducible apply coreEvent_keeps
    | with_reducible apply State.report_keeps | with_reducible apply State.controlDrop_keeps
    | with_reducible apply State.outputCycle_keeps | with_reducible apply State.headerFound_keeps | split)

theorem execVcEscape_keeps {s0 : State} (c : CoreRef) (inp : BitVec 3) (vc : BitVec 2) (s : State) (hk : Keeps s0 s) :
    KeepsO s0 (execVcEscape c inp vc s) := by
  unfold execVcEscape
  try extract_lets
  repeat' (first
    | with_reducible assumption | with_reducible intro _ | with_reducible apply coreEvent_keeps
    | with_reducible apply State.setRouter_keeps | with_reducible apply State.onDie_keeps | extract_lets | split)

theorem execVc1Aged_keeps {s0 : State} (c : CoreRef) (inp : BitVec 3) (s : State) (hk : Keeps s0 s) :
    KeepsO s0 (execVc1Aged c inp s) := by
  unfold execVc1Aged
  try extract_lets
  repeat' (first
    | with_reducible assumption | with_reducible intro _ | with_reducible apply coreEvent_keeps
    | with_reducible apply State.setRouter_keeps | extract_lets | split)

theorem execEdgeCrcFail_keeps {s0 : State} (d : Site) (edge : BitVec 2) (attempts : BitVec 3) (s : State) (hk : Keeps
    s0 s) :
    KeepsO s0 (execEdgeCrcFail d edge attempts s) := by
  unfold execEdgeCrcFail
  try extract_lets
  repeat' (first
    | with_reducible assumption | with_reducible intro _ | with_reducible apply siteEvent_keeps
    | with_reducible apply State.edgeReplay_keeps | with_reducible apply State.edgeFail_keeps
    | with_reducible apply State.onDie_keeps | with_reducible apply Keeps.ite | split)

theorem execTurnoutCopy_keeps {s0 : State} (c : CoreRef) (inp : BitVec 3) (s : State) (hk : Keeps s0 s) :
    KeepsO s0 (execTurnoutCopy c inp s) := by
  unfold execTurnoutCopy
  try extract_lets
  repeat' (first
    | with_reducible assumption | with_reducible intro _ | with_reducible apply coreEvent_keeps
    | with_reducible apply State.outputCycle_keeps | extract_lets | split)

theorem execSeqFlush_keeps {s0 : State} (s : State) (hk : Keeps s0 s) :
    KeepsO s0 (execSeqFlush s) := by
  unfold execSeqFlush
  try extract_lets
  repeat' (first
    | with_reducible assumption | with_reducible apply KeepsO.next | with_reducible refine Keeps.mk ?_ rfl rfl rfl)

theorem execRecordWindowExpire_keeps {s0 : State} (seq : Word) (s : State) (hk : Keeps s0 s) :
    KeepsO s0 (execRecordWindowExpire seq s) := by
  unfold execRecordWindowExpire
  try extract_lets
  repeat' (first
    | with_reducible assumption | with_reducible apply KeepsO.next | with_reducible refine Keeps.mk ?_ rfl rfl rfl)

end Sys2Proof.Machine
end

