-- ==== Sys2Proof/Laws/KeepsLinks.lean ====
section
/-!
SUPPORT. Each operation of the model keeps the waiting commands and the canonical memories (`Keeps`), one lemma each:
the sync network, links, the sync ring and registers.
-/

namespace Sys2Proof.Machine

theorem State.mirrorCopy_keeps {s0 : State} (s : State) (n : Option Nat) (fs : List LinkSlot) (hk : Keeps s0 s) :
    Keeps s0 (State.mirrorCopy s n fs) := by
  unfold State.mirrorCopy
  try extract_lets
  repeat' (first
    | with_reducible assumption | with_reducible apply State.pushPort_keeps | split)

theorem State.misrouted_keeps {s0 : State} (s : State) (n : Nat) (hk : Keeps s0 s) :
    Keeps s0 (State.misrouted s n) := by
  unfold State.misrouted
  try extract_lets
  repeat' (first
    | with_reducible assumption | with_reducible apply State.record_keeps)

theorem State.ackArrive_keeps {s0 : State} (s : State) (n : Nat) (cls : Nat) (a : AckMsg) (hk : Keeps s0 s) :
    Keeps s0 (State.ackArrive s n cls a) := by
  unfold State.ackArrive
  try extract_lets
  repeat' (first
    | with_reducible assumption | with_reducible apply State.mirrorCopy_keeps
    | with_reducible apply State.pushPort_keeps | with_reducible apply State.misrouted_keeps | split
    | with_reducible refine Keeps.mk ?_ rfl rfl rfl)

theorem State.updateHint_keeps {s0 : State} (s : State) (ph : Phase) (hk : Keeps s0 s) :
    Keeps s0 (State.updateHint s ph) := by
  unfold State.updateHint
  try extract_lets
  repeat' (first
    | with_reducible assumption | with_reducible apply State.onPanel_keeps | with_reducible apply State.tick_keeps)

theorem State.enterPhase_keeps {s0 : State} (s : State) (n : Nat) (phase : Nat) (hk : Keeps s0 s) :
    Keeps s0 (State.enterPhase s n phase) := by
  unfold State.enterPhase
  try extract_lets
  repeat' (first
    | with_reducible assumption | with_reducible intro _ | with_reducible apply State.onPart_keeps
    | with_reducible apply State.tick_keeps | with_reducible apply State.onDie_keeps
    | with_reducible apply State.updateHint_keeps | with_reducible apply Keeps.foldl | split)

theorem State.advancePhase_keeps {s0 : State} (s : State) (n : Nat) (hk : Keeps s0 s) :
    Keeps s0 (State.advancePhase s n) := by
  unfold State.advancePhase
  try extract_lets
  repeat' (first
    | with_reducible assumption | with_reducible apply State.enterPhase_keeps | split)

theorem State.barrierMsg_keeps {s0 : State} (s : State) (g : Nat) (b : GroupBinding) (hk : Keeps s0 s) :
    Keeps s0 (State.barrierMsg s g b).2 := by
  unfold State.barrierMsg
  try extract_lets
  repeat' (first
    | with_reducible assumption | with_reducible apply State.newMsg_keeps)

theorem State.compareWindow_keeps {s0 : State} (s : State) (n : Nat) (own : Reg64) (peer : Reg64) (hk : Keeps s0 s) :
    Keeps s0 (State.compareWindow s n own peer) := by
  unfold State.compareWindow
  try extract_lets
  repeat' (first
    | with_reducible assumption | with_reducible apply State.setShadow_keeps
    | with_reducible apply State.record_keeps | with_reducible apply Keeps.ite)

theorem State.closeWindow_keeps {s0 : State} (s : State) (g : Nat) (hk : Keeps s0 s) :
    Keeps s0 (State.closeWindow s g) := by
  unfold State.closeWindow
  try extract_lets
  repeat' (first
    | with_reducible assumption | with_reducible apply State.setShadow_keeps
    | with_reducible apply State.newMsg_keeps | with_reducible apply State.ringSend_keeps
    | with_reducible apply State.compareWindow_keeps | split)

theorem State.elapse_keeps {s0 : State} (s : State) (c : CoreRef) (hk : Keeps s0 s) :
    Keeps s0 (State.elapse s c) := by
  unfold State.elapse
  try extract_lets
  repeat' (first
    | with_reducible assumption | with_reducible apply State.tick_keeps | with_reducible apply State.onCore_keeps
    | with_reducible apply Keeps.ite)

theorem State.portFail_keeps {s0 : State} (s : State) (n : Nat) (hk : Keeps s0 s) :
    Keeps s0 (State.portFail s n) := by
  unfold State.portFail
  try extract_lets
  repeat' (first
    | with_reducible assumption | with_reducible apply State.setPort_keeps
    | with_reducible apply State.reportParts_keeps)

theorem State.frameBad_keeps {s0 : State} (s : State) (n : Nat) (q : Port) (f : Frame) (fecOk : Bool) (tagOk : Bool)
    (hk : Keeps s0 s) :
    Keeps s0 (State.frameBad s n q f fecOk tagOk) := by
  unfold State.frameBad
  try extract_lets
  repeat' (first
    | with_reducible assumption | with_reducible apply State.setPort_keeps
    | with_reducible apply State.portFail_keeps | with_reducible apply State.record_keeps
    | with_reducible apply Keeps.ite)

theorem State.replayFrames_keeps {s0 : State} (s : State) (n : Nat) (seq : Word) (injected : Bool) (hk : Keeps s0 s) :
    Keeps s0 (State.replayFrames s n seq injected) := by
  unfold State.replayFrames
  try extract_lets
  repeat' (first
    | with_reducible assumption | with_reducible apply State.setPort_keeps | with_reducible apply State.report_keeps)

theorem State.linkAnswer_keeps {s0 : State} (s : State) (n : Nat) (p : Packet) (hk : Keeps s0 s) :
    Keeps s0 (State.linkAnswer s n p) := by
  unfold State.linkAnswer
  try extract_lets
  repeat' (first
    | with_reducible assumption | with_reducible apply State.ackPacket_keeps
    | with_reducible apply State.sendPort_keeps | with_reducible apply Keeps.ite)

theorem State.transit_keeps {s0 : State} (s : State) (n : Nat) (cls : Nat) (p : Packet) (hk : Keeps s0 s) :
    Keeps s0 (State.transit s n cls p) := by
  unfold State.transit
  try extract_lets
  repeat' (first
    | with_reducible assumption | with_reducible apply State.pushPort_keeps
    | with_reducible apply State.linkAnswer_keeps | with_reducible apply State.misrouted_keeps | split)

theorem State.linkArrive_keeps {s0 : State} (s : State) (n : Nat) (cls : Nat) (p : Packet) (hk : Keeps s0 s) :
    Keeps s0 (State.linkArrive s n cls p) := by
  unfold State.linkArrive
  try extract_lets
  repeat' (first
    | with_reducible assumption | with_reducible apply State.headerBad_keeps
    | with_reducible apply State.transit_keeps | with_reducible apply State.mirrorCopy_keeps
    | with_reducible apply State.enter_keeps | with_reducible apply Keeps.ite)

theorem State.streamArrive_keeps {s0 : State} (s : State) (n : Nat) (x : StreamFlit) (hk : Keeps s0 s) :
    Keeps s0 (State.streamArrive s n x) := by
  unfold State.streamArrive
  try extract_lets
  repeat' (first
    | with_reducible assumption | split | with_reducible refine Keeps.mk ?_ rfl rfl rfl)

theorem State.slotArrive_keeps {s0 : State} (s : State) (n : Nat) (f : LinkSlot) (hk : Keeps s0 s) :
    Keeps s0 (State.slotArrive s n f) := by
  unfold State.slotArrive
  try extract_lets
  repeat' (first
    | with_reducible assumption | with_reducible apply State.linkArrive_keeps
    | with_reducible apply State.ackArrive_keeps | with_reducible apply State.streamArrive_keeps | split)

theorem State.frameGood_keeps {s0 : State} (s : State) (n : Nat) (q : Port) (f : Frame) (corrected : Nat) (hk : Keeps
    s0 s) :
    Keeps s0 (State.frameGood s n q f corrected) := by
  unfold State.frameGood
  try extract_lets
  repeat' (first
    | with_reducible assumption | with_reducible intro _ | with_reducible apply State.setPort_keeps
    | with_reducible apply State.replayFrames_keeps | with_reducible apply State.slotArrive_keeps
    | with_reducible apply Keeps.ite | with_reducible apply Keeps.foldl)

theorem State.releaseGroup_keeps {s0 : State} (s : State) (g : Nat) (hk : Keeps s0 s) :
    Keeps s0 (State.releaseGroup s g) := by
  unfold State.releaseGroup
  try extract_lets
  repeat' (first
    | with_reducible assumption | with_reducible apply State.setGroup_keeps
    | with_reducible refine Keeps.mk ?_ rfl rfl rfl)

theorem State.withhold_keeps {s0 : State} (s : State) (g : Nat) (hk : Keeps s0 s) :
    Keeps s0 (State.withhold s g) := by
  unfold State.withhold
  try extract_lets
  repeat' (first
    | with_reducible assumption | with_reducible apply State.endJob_keeps | with_reducible apply State.setGroup_keeps)

theorem State.releaseMulti_keeps {s0 : State} (s : State) (g : Nat) (hk : Keeps s0 s) :
    Keeps s0 (State.releaseMulti s g) := by
  unfold State.releaseMulti
  try extract_lets
  repeat' (first
    | with_reducible assumption | with_reducible apply State.releaseGroup_keeps
    | with_reducible apply State.closeWindow_keeps)

theorem State.multiArrived_keeps {s0 : State} (sx : State) (g : Nat) (hk : Keeps s0 sx) :
    Keeps s0 (State.multiArrived sx g) := by
  unfold State.multiArrived
  try extract_lets
  repeat' (first
    | with_reducible assumption | with_reducible intro _ | with_reducible apply State.setGroup_keeps
    | with_reducible apply State.releaseGroup_keeps | with_reducible apply State.withhold_keeps
    | with_reducible apply State.releaseMulti_keeps | with_reducible apply State.barrierMsg_keeps
    | with_reducible apply State.portSend_keeps | with_reducible apply State.ringSend_keeps
    | with_reducible apply Keeps.ite | with_reducible apply Keeps.foldl | split
    | with_reducible refine Keeps.snd ‹_ = (_, _)› ?_)

theorem State.sampleRegs_keeps {s0 : State} (s : State) (a : Nat) (n : Nat) (hk : Keeps s0 s) :
    Keeps s0 (State.sampleRegs s a n) := by
  unfold State.sampleRegs
  try extract_lets
  repeat' (first
    | with_reducible assumption | with_reducible intro _ | with_reducible apply State.elapse_keeps
    | with_reducible apply Keeps.foldl | split)

theorem State.ringForward_keeps {s0 : State} (s : State) (kind : RingKind) (m : RingMsg) (hk : Keeps s0 s) :
    Keeps s0 (State.ringForward s kind m) := by
  unfold State.ringForward
  try extract_lets
  repeat' (first
    | with_reducible assumption | with_reducible apply Keeps.ite | with_reducible refine Keeps.mk ?_ rfl rfl rfl)

theorem State.ringReturn_keeps {s0 : State} (s : State) (kind : RingKind) (m : RingMsg) (hk : Keeps s0 s) :
    Keeps s0 (State.ringReturn s kind m) := by
  unfold State.ringReturn
  try extract_lets
  repeat' (first
    | with_reducible assumption | with_reducible apply State.ringForward_keeps | with_reducible apply Keeps.ite
    | with_reducible refine Keeps.mk ?_ rfl rfl rfl)

theorem State.ringTake_keeps {s0 : State} (s : State) (m : RingMsg) (hk : Keeps s0 s) :
    KeepsM s0 (State.ringTake s m) := by
  unfold State.ringTake
  try extract_lets
  repeat' (first
    | with_reducible assumption | with_reducible apply KeepsM.ite | with_reducible apply KeepsM.ofSome
    | with_reducible apply KeepsM.ofNone | with_reducible refine Keeps.mk ?_ rfl rfl rfl)

theorem State.sendFrame_keeps {s0 : State} (s : State) (n : Nat) (hk : Keeps s0 s) :
    Keeps s0 (State.sendFrame s n) := by
  unfold State.sendFrame
  try extract_lets
  repeat' (first
    | with_reducible assumption | with_reducible apply State.setPort_keeps | split)

theorem execSyncArrival_keeps {s0 : State} (d : Site) (group : BitVec 6) (s : State) (hk : Keeps s0 s) :
    KeepsO s0 (execSyncArrival d group s) := by
  unfold execSyncArrival
  try extract_lets
  repeat' (first
    | with_reducible assumption | with_reducible intro _ | with_reducible apply siteEvent_keeps
    | with_reducible apply State.withhold_keeps | with_reducible apply State.releaseGroup_keeps
    | with_reducible apply State.setGroup_keeps | with_reducible apply Keeps.ite)

theorem execHwdHubArrival_keeps {s0 : State} (d : Site) (group : BitVec 6) (ticks : BitVec 64) (s : State) (hk : Keeps
    s0 s) :
    KeepsO s0 (execHwdHubArrival d group ticks s) := by
  unfold execHwdHubArrival
  refine siteEvent_keeps _ _ _ hk ?_
  intro t _ ht
  extract_lets g b b1 s1
  split
  · exact ht
  · split
    · exact State.setGroup_keeps _ _ _ ht
    · split
      · exact State.multiArrived_keeps _ _ (State.setGroup_keeps _ _ _ ht)
      · have h1 : Keeps s0 s1 := State.setGroup_keeps _ _ _ ht
        split
        · exact State.withhold_keeps _ _ h1
        · exact State.releaseGroup_keeps _ _ h1

theorem execSyncRelease_keeps {s0 : State} (c : CoreRef) (group : BitVec 6) (s : State) (hk : Keeps s0 s) :
    KeepsO s0 (execSyncRelease c group s) := by
  unfold execSyncRelease
  try extract_lets
  repeat' (first
    | with_reducible assumption | with_reducible intro _ | with_reducible apply coreEvent_keeps
    | with_reducible apply State.setGroup_keeps | with_reducible apply State.setCore_keeps
    | with_reducible apply State.advancePhase_keeps | with_reducible apply Keeps.ite | split)

theorem execSyncCulvertLoss_keeps {s0 : State} (d : Site) (count : BitVec 2) (s : State) (hk : Keeps s0 s) :
    KeepsO s0 (execSyncCulvertLoss d count s) := by
  unfold execSyncCulvertLoss
  try extract_lets
  repeat' (first
    | with_reducible assumption | with_reducible intro _ | with_reducible apply siteEvent_keeps
    | with_reducible apply State.onDie_keeps | with_reducible apply State.report_keeps
    | with_reducible apply Keeps.ite | with_reducible refine Keeps.mk ?_ rfl rfl rfl)

theorem execDetHold_keeps {s0 : State} (d : Site) (s : State) (hk : Keeps s0 s) :
    KeepsO s0 (execDetHold d s) := by
  unfold execDetHold
  try extract_lets
  repeat' (first
    | with_reducible assumption | with_reducible intro _ | with_reducible apply siteEvent_keeps
    | with_reducible apply State.onDie_keeps | with_reducible apply State.onPart_keeps
    | with_reducible apply Keeps.foldl | split)

theorem execForecastExpire_keeps {s0 : State} (d : Site) (s : State) (hk : Keeps s0 s) :
    KeepsO s0 (execForecastExpire d s) := by
  unfold execForecastExpire
  try extract_lets
  repeat' (first
    | with_reducible assumption | with_reducible intro _ | with_reducible apply siteEvent_keeps
    | with_reducible apply State.onDie_keeps)

theorem portEvent_keeps {s0 : State} (port : BitVec 6) (s : State) (body : State → Nat → Port → State) (hk : Keeps s0
    s) (hb : ∀ (t : State) (y1 : Nat) (y2 : Port), Keeps s0 t → Keeps s0 (body t y1 y2)) :
    KeepsO s0 (portEvent port s body) := by
  unfold portEvent
  try extract_lets
  repeat' (first
    | with_reducible assumption | with_reducible apply KeepsO.next | (refine hb _ _ _ ?_))

theorem execLinkFrame_keeps {s0 : State} (port : BitVec 6) (f : Frame) (s : State) (hk : Keeps s0 s) :
    KeepsO s0 (execLinkFrame port f s) := by
  unfold execLinkFrame
  try extract_lets
  repeat' (first
    | with_reducible assumption | with_reducible intro _ | with_reducible apply portEvent_keeps
    | with_reducible apply State.sendFrame_keeps | with_reducible apply State.frameGood_keeps
    | with_reducible apply State.frameBad_keeps | with_reducible apply Keeps.ite)

theorem execLaneFail_keeps {s0 : State} (port : BitVec 6) (lane : BitVec 3) (s : State) (hk : Keeps s0 s) :
    KeepsO s0 (execLaneFail port lane s) := by
  unfold execLaneFail
  try extract_lets
  repeat' (first
    | with_reducible assumption | with_reducible intro _ | with_reducible apply portEvent_keeps
    | with_reducible apply State.setPort_keeps | with_reducible apply State.report_keeps
    | with_reducible apply Keeps.ite)

theorem execLaneRetrainDone_keeps {s0 : State} (port : BitVec 6) (trained : Bool) (s : State) (hk : Keeps s0 s) :
    KeepsO s0 (execLaneRetrainDone port trained s) := by
  unfold execLaneRetrainDone
  try extract_lets
  repeat' (first
    | with_reducible assumption | with_reducible intro _ | with_reducible apply portEvent_keeps
    | with_reducible apply State.setPort_keeps | with_reducible apply State.portFail_keeps
    | with_reducible apply Keeps.ite)

theorem execLinkKeyExchange_keeps {s0 : State} (port : BitVec 6) (peerOk : Bool) (s : State) (hk : Keeps s0 s) :
    KeepsO s0 (execLinkKeyExchange port peerOk s) := by
  unfold execLinkKeyExchange
  try extract_lets
  repeat' (first
    | with_reducible assumption | with_reducible intro _ | with_reducible apply portEvent_keeps
    | with_reducible apply State.tick_keeps | with_reducible apply State.setPort_keeps
    | with_reducible apply State.record_keeps | with_reducible apply Keeps.ite)

theorem execLinkRekey_keeps {s0 : State} (port : BitVec 6) (s : State) (hk : Keeps s0 s) :
    KeepsO s0 (execLinkRekey port s) := by
  unfold execLinkRekey
  try extract_lets
  repeat' (first
    | with_reducible assumption | with_reducible intro _ | with_reducible apply portEvent_keeps
    | with_reducible apply State.tick_keeps | with_reducible apply State.setPort_keeps
    | with_reducible apply Keeps.ite)

theorem ringEvent_keeps {s0 : State} (kind : RingKind) (m : RingMsg) (via : Option (BitVec 6)) (s : State) (act : State
    → State) (hk : Keeps s0 s) (hb : ∀ (t : State), Keeps s0 t → Keeps s0 (act t)) :
    KeepsO s0 (ringEvent kind m via s act) := by
  unfold ringEvent
  try extract_lets
  repeat' (first
    | with_reducible assumption | with_reducible apply State.ringReturn_keeps
    | with_reducible apply State.ringTake_keeps | with_reducible apply KeepsO.next | with_reducible apply Keeps.ite
    | with_reducible apply KeepsM.getD | with_reducible apply KeepsM.map)

theorem execArrive_keeps {s0 : State} (m : RingMsg) (via : Option (BitVec 6)) (ticks : BitVec 64) (s : State) (hk :
    Keeps s0 s) :
    KeepsO s0 (execArrive m via ticks s) := by
  unfold execArrive
  refine ringEvent_keeps _ _ _ _ _ hk ?_
  intro t ht
  split
  · exact ht
  · extract_lets b gb mine root
    split
    · exact ht
    · exact State.multiArrived_keeps _ _ (State.setGroup_keeps _ _ _ ht)

theorem execRelease_keeps {s0 : State} (m : RingMsg) (via : Option (BitVec 6)) (s : State) (hk : Keeps s0 s) :
    KeepsO s0 (execRelease m via s) := by
  unfold execRelease
  try extract_lets
  repeat' (first
    | with_reducible assumption | with_reducible intro _ | with_reducible apply ringEvent_keeps
    | with_reducible apply State.portSend_keeps | with_reducible apply State.withhold_keeps
    | with_reducible apply State.releaseMulti_keeps | with_reducible apply State.setGroup_keeps
    | with_reducible apply Keeps.ite | with_reducible apply Keeps.foldl | split)

theorem execAbortToken_keeps {s0 : State} (m : RingMsg) (via : Option (BitVec 6)) (s : State) (hk : Keeps s0 s) :
    KeepsO s0 (execAbortToken m via s) := by
  unfold execAbortToken
  try extract_lets
  repeat' (first
    | with_reducible assumption | with_reducible intro _ | with_reducible apply ringEvent_keeps
    | with_reducible apply State.portSend_keeps | with_reducible apply State.ringForward_keeps
    | with_reducible apply State.acceptOwn_keeps | with_reducible apply Keeps.ite | with_reducible apply Keeps.foldl
    | extract_lets | split)

theorem execDigest_keeps {s0 : State} (m : RingMsg) (s : State) (hk : Keeps s0 s) :
    KeepsO s0 (execDigest m s) := by
  unfold execDigest
  try extract_lets
  repeat' (first
    | with_reducible assumption | with_reducible intro _ | with_reducible apply ringEvent_keeps
    | with_reducible apply State.compareWindow_keeps | with_reducible apply State.setShadow_keeps
    | with_reducible apply Keeps.ite | split)

theorem execHeartbeat_keeps {s0 : State} (m : RingMsg) (s : State) (hk : Keeps s0 s) :
    KeepsO s0 (execHeartbeat m s) := by
  unfold execHeartbeat
  try extract_lets
  repeat' (first
    | with_reducible assumption | with_reducible intro _ | with_reducible apply State.ringReturn_keeps
    | with_reducible apply State.answer_keeps | with_reducible apply State.ringForward_keeps
    | with_reducible apply KeepsO.ite | with_reducible apply KeepsO.next | with_reducible apply Keeps.foldl
    | with_reducible refine Keeps.mk ?_ rfl rfl rfl)

theorem execRingResend_keeps {s0 : State} (s : State) (hk : Keeps s0 s) :
    KeepsO s0 (execRingResend s) := by
  unfold execRingResend
  try extract_lets
  repeat' (first
    | with_reducible assumption | with_reducible apply KeepsO.ite | with_reducible apply KeepsO.next
    | with_reducible refine Keeps.mk ?_ rfl rfl rfl)

theorem execRingDown_keeps {s0 : State} (s : State) (hk : Keeps s0 s) :
    KeepsO s0 (execRingDown s) := by
  unfold execRingDown
  try extract_lets
  repeat' (first
    | with_reducible assumption | with_reducible apply KeepsO.ite | with_reducible apply KeepsO.next
    | with_reducible refine Keeps.mk ?_ rfl rfl rfl)

theorem execPortTraining_keeps {s0 : State} (port : BitVec 6) (peerPanel : BitVec 16) (peerPort : BitVec 6) (eight :
    Bool) (s : State) (hk : Keeps s0 s) :
    KeepsO s0 (execPortTraining port peerPanel peerPort eight s) := by
  unfold execPortTraining
  try extract_lets
  repeat' (first
    | with_reducible assumption | with_reducible intro _ | with_reducible apply portEvent_keeps
    | with_reducible apply State.setPort_keeps | with_reducible apply Keeps.ite)

end Sys2Proof.Machine
end

