-- ==== Sys2Proof/Laws/KeepsControl.lean ====
section
/-!
SUPPORT. Each operation of the model keeps the waiting commands and the canonical memories (`Keeps`), one lemma each:
scratchpad banks, arrivals, control messages, HBM and culverts, site maps.
-/

namespace Sys2Proof.Machine

theorem State.acknowledge_keeps {s0 : State} (s : State) (c : CoreRef) (k : Core) (a : AckMsg) (hk : Keeps s0 s) :
    Keeps s0 (State.acknowledge s c k a) := by
  unfold State.acknowledge
  try extract_lets
  repeat' (first
    | with_reducible assumption | with_reducible apply State.countIf_keeps | with_reducible apply State.setCore_keeps
    | with_reducible apply Keeps.ite)

theorem State.parkSite_keeps {s0 : State} (s : State) (k : Nat) (hk : Keeps s0 s) :
    Keeps s0 (State.parkSite s k) := by
  unfold State.parkSite
  try extract_lets
  repeat' (first
    | with_reducible assumption | with_reducible intro _ | with_reducible apply State.setCulvert_keeps
    | with_reducible apply Keeps.foldl)

theorem State.groupDown_keeps {s0 : State} (s : State) (d : Site) (k : Nat) (m : Nat) (hk : Keeps s0 s) :
    Keeps s0 (State.groupDown s d k m) := by
  unfold State.groupDown
  try extract_lets
  repeat' (first
    | with_reducible assumption | with_reducible apply State.culvertLoses_keeps
    | with_reducible apply State.setCulvert_keeps)

theorem State.parkChannel_keeps {s0 : State} (s : State) (d : Site) (k : Nat) (m : Nat) (chan : BitVec 3) (hk : Keeps
    s0 s) :
    Keeps s0 (State.parkChannel s d k m chan) := by
  unfold State.parkChannel
  try extract_lets
  repeat' (first
    | with_reducible assumption | with_reducible apply State.setCulvert_keeps
    | with_reducible apply State.report_keeps | with_reducible apply State.groupDown_keeps
    | with_reducible apply Keeps.ite)

theorem State.lockSite_keeps {s0 : State} (s : State) (k : Nat) (dead : List (Site × BitVec 3 × BitVec 3)) (hk : Keeps
    s0 s) :
    Keeps s0 (State.lockSite s k dead) := by
  unfold State.lockSite
  try extract_lets
  repeat' (first
    | with_reducible assumption | with_reducible intro _ | with_reducible apply State.setCulvert_keeps
    | with_reducible apply State.parkChannel_keeps | with_reducible apply Keeps.ite
    | with_reducible apply Keeps.foldl)

theorem State.moveCulverts_keeps {s0 : State} (s : State) (row : Nat) (new : SiteMap) (t : State) (hk : Keeps s0 s) (hk
    : Keeps s0 t) :
    Keeps s0 (State.moveCulverts s row new t) := by
  unfold State.moveCulverts
  try extract_lets
  repeat' (first
    | with_reducible assumption | with_reducible intro _ | with_reducible apply State.parkSite_keeps
    | with_reducible apply State.lockSite_keeps | with_reducible apply Keeps.foldl | split)

theorem State.attachPorts_keeps {s0 : State} (s : State) (hk : Keeps s0 s) :
    Keeps s0 (State.attachPorts s) := by
  unfold State.attachPorts
  try extract_lets
  repeat' (first
    | with_reducible assumption | with_reducible intro _ | with_reducible apply State.setPort_keeps
    | with_reducible apply Keeps.ite | with_reducible apply Keeps.foldl)

theorem State.rewriteRow_keeps {s0 : State} (s : State) (row : Nat) (new : SiteMap) (hk : Keeps s0 s) :
    Keeps s0 (State.rewriteRow s row new) := by
  unfold State.rewriteRow
  try extract_lets
  repeat' (first
    | with_reducible assumption | with_reducible intro _ | with_reducible apply State.onDie_keeps
    | with_reducible apply State.setRow_keeps | with_reducible apply State.moveCulverts_keeps
    | with_reducible apply State.recordSeq_keeps | with_reducible apply State.attachPorts_keeps
    | with_reducible apply State.event_keeps | with_reducible apply Keeps.ite | with_reducible apply Keeps.foldl
    | with_reducible refine Keeps.mk ?_ rfl rfl rfl)

theorem State.retireStack_keeps {s0 : State} (s : State) (p : Nat) (hk : Keeps s0 s) :
    Keeps s0 (State.retireStack s p) := by
  unfold State.retireStack
  try extract_lets
  repeat' (first
    | with_reducible assumption | with_reducible apply State.acceptOwn_keeps
    | with_reducible apply State.setStack_keeps | with_reducible apply State.recordSeq_keeps
    | with_reducible apply State.event_keeps | with_reducible apply Keeps.ite
    | with_reducible refine Keeps.mkDrop ?_ rfl _ rfl rfl)

theorem State.foundBad_keeps {s0 : State} (s : State) (p : Nat) (b : Nat) (ue : Bool) (hk : Keeps s0 s) :
    Keeps s0 (State.foundBad s p b ue) := by
  unfold State.foundBad
  try extract_lets
  repeat' (first
    | with_reducible assumption | with_reducible apply State.setStack_keeps | with_reducible apply Keeps.ite)

theorem checkBlock_keeps {s0 : State} (p : Nat) (owner : Nat) (o : State × Bool) (b : Nat) (hk : Keeps s0 o.1) :
    Keeps s0 (checkBlock p owner o b).1 := by
  unfold checkBlock
  try extract_lets
  repeat' (first
    | with_reducible assumption | with_reducible apply State.foundBad_keeps
    | with_reducible apply State.setStack_keeps | with_reducible apply State.report_keeps | split
    | with_reducible refine Keeps.mk ?_ rfl rfl rfl)

theorem State.checkBlocks_keeps {s0 : State} (s : State) (p : Nat) (owner : Nat) (a : Nat) (len : Nat) (hk : Keeps s0
    s) :
    Keeps s0 (State.checkBlocks s p owner a len).1 := by
  unfold State.checkBlocks
  try extract_lets
  repeat' (first
    | with_reducible assumption | with_reducible intro _ | with_reducible apply checkBlock_keeps
    | with_reducible apply Keeps.foldlFst)

theorem State.writeUnit_keeps {s0 : State} (s : State) (p : Nat) (owner : Nat) (a : Nat) (bs : List Byte) (hk : Keeps
    s0 s) :
    Keeps s0 (State.writeUnit s p owner a bs) := by
  unfold State.writeUnit
  try extract_lets
  repeat' (first
    | with_reducible assumption | with_reducible apply checkBlock_keeps | with_reducible apply State.store_keeps
    | with_reducible apply State.setStack_keeps | with_reducible apply Keeps.foldlFst | split
    | with_reducible refine Keeps.mk ?_ rfl rfl rfl)

theorem State.hbmWrite_keeps {s0 : State} (s : State) (p : Nat) (owner : Nat) (a : Nat) (bs : List Byte) (hk : Keeps s0
    s) :
    Keeps s0 (State.hbmWrite s p owner a bs) := by
  unfold State.hbmWrite
  try extract_lets
  repeat' (first
    | with_reducible assumption | with_reducible intro _ | with_reducible apply State.writeUnit_keeps
    | with_reducible apply State.setStack_keeps | with_reducible apply Keeps.foldl)

theorem State.fillPiece_keeps {s0 : State} (s : State) (j : CopyJob) (d : CDesc) (l : Nat) (off : Nat) (len : Nat) (hk
    : Keeps s0 s) :
    Keeps s0 (State.fillPiece s j d l off len).1 := by
  unfold State.fillPiece
  try extract_lets
  repeat' (first
    | with_reducible assumption | with_reducible apply State.hbmWrite_keeps | split)

theorem State.msdInject_keeps {s0 : State} (s : State) (k : Nat) (m : Nat) (p : Packet) (hk : Keeps s0 s) :
    Keeps s0 (State.msdInject s k m p) := by
  unfold State.msdInject
  try extract_lets
  repeat' (first
    | with_reducible assumption | with_reducible apply State.culvertLoses_keeps
    | with_reducible apply State.enter_keeps | split)

theorem State.loadPiece_keeps {s0 : State} (s : State) (m : Nat) (j : CopyJob) (d : CDesc) (l : Nat) (off : Nat) (len :
    Nat) (hk : Keeps s0 s) :
    Keeps s0 (State.loadPiece s m j d l off len).1 := by
  unfold State.loadPiece
  try extract_lets
  repeat' (first
    | with_reducible assumption | with_reducible intro _ | with_reducible apply State.checkBlocks_keeps
    | with_reducible apply State.msdInject_keeps | with_reducible apply Keeps.foldlFst | extract_lets | split)

theorem State.copyStep_keeps {s0 : State} (s : State) (m : Nat) (key : Nat) (j : CopyJob) (rest : List CopyJob) (hk :
    Keeps s0 s) :
    Keeps s0 (State.copyStep s m key j rest) := by
  unfold State.copyStep
  try dsimp only
  repeat' (first
    | with_reducible assumption | with_reducible apply State.fillPiece_keeps
    | with_reducible apply State.loadPiece_keeps | with_reducible apply State.setMsd_keeps
    | with_reducible apply State.msdInject_keeps | split)

theorem State.countPass_keeps {s0 : State} (s : State) (d : Nat) (hk : Keeps s0 s) :
    Keeps s0 (State.countPass s d) := by
  unfold State.countPass
  try extract_lets
  repeat' (first
    | with_reducible assumption | with_reducible apply State.onDie_keeps | with_reducible apply Keeps.ite
    | with_reducible refine Keeps.mk ?_ rfl rfl rfl)

theorem State.ctlAnswer_keeps {s0 : State} (s : State) (h : CtlHdr) (reached : Bool) (status : BitVec 8) (data : Option
    Reg64) (hk : Keeps s0 s) :
    Keeps s0 (State.ctlAnswer s h reached status data) := by
  unfold State.ctlAnswer
  try extract_lets
  repeat' (first
    | with_reducible assumption | with_reducible apply Keeps.ite | with_reducible refine Keeps.mk ?_ rfl rfl rfl)

theorem State.debugCore_keeps {s0 : State} (s : State) (c : CoreRef) (resume : Bool) (hk : Keeps s0 s) :
    Keeps s0 (State.debugCore s c resume) := by
  unfold State.debugCore
  try extract_lets
  repeat' (first
    | with_reducible assumption | with_reducible apply State.onDie_keeps | with_reducible apply State.onCore_keeps)

theorem State.declareOn_keeps {s0 : State} (s : State) (c : CoreRef) (k : Core) (w : RowWrite) (hk : Keeps s0 s) :
    Keeps s0 (State.declareOn s c k w).1 := by
  unfold State.declareOn
  try extract_lets
  repeat' (first
    | with_reducible assumption | with_reducible apply State.changeCounter_keeps | extract_lets | split)

theorem State.discard_keeps {s0 : State} (s : State) (c : CoreRef) (hk : Keeps s0 s) :
    Keeps s0 (State.discard s c) := by
  unfold State.discard
  try extract_lets
  repeat' (first
    | with_reducible assumption | with_reducible apply State.onDie_keeps | split)

theorem State.eraseBlock_keeps {s0 : State} (s : State) (p : Nat) (b : Nat) (hk : Keeps s0 s) :
    Keeps s0 (State.eraseBlock s p b) := by
  unfold State.eraseBlock
  extract_lets wide hit sx e k s1
  have h0 : Keeps s0 sx := State.foundBad_keeps _ _ _ _ hk
  have h1 : Keeps s0 s1 := State.setStack_keeps _ _ _ (Keeps.mkDrop h0 rfl _ rfl rfl)
  exact State.report_keeps _ _ h1

theorem State.rowDone_keeps {s0 : State} (s : State) (k : Core) (ticket : Option Nat) (hk : Keeps s0 s) :
    Keeps s0 (State.rowDone s k ticket).1 := by
  unfold State.rowDone
  try extract_lets
  repeat' (first
    | with_reducible assumption | with_reducible apply State.ackPacket_keeps | extract_lets | split)

theorem rowLand_keeps {s0 : State} (c : CoreRef) (w : RowWrite) (s : State) (k : Core) (hk : Keeps s0 s) :
    Keeps s0 (rowLand c w s k).1 := by
  unfold rowLand
  try dsimp only
  repeat' (first
    | with_reducible assumption | with_reducible apply spWrite_keeps | with_reducible apply State.declareOn_keeps
    | with_reducible apply State.countBytes_keeps | with_reducible apply State.rowDone_keeps | split)

theorem landBank_keeps {s0 : State} (c : CoreRef) (n : Nat) (o : State × Core) (hk : Keeps s0 o.1) :
    Keeps s0 (landBank c n o).1 := by
  unfold landBank
  try extract_lets
  repeat' (first
    | with_reducible assumption | with_reducible apply rowLand_keeps | split)

theorem landRow_keeps {s0 : State} (c : CoreRef) (o : State × Core) (w : RowWrite × BankGrant) (hk : Keeps s0 o.1) :
    Keeps s0 (landRow c o w).1 := by
  unfold landRow
  try extract_lets
  repeat' (first
    | with_reducible assumption | with_reducible apply landBank_keeps | with_reducible apply rowLand_keeps | split)

theorem landRows_keeps {s0 : State} (c : CoreRef) (rows : List RowWrite) (grants : List BankGrant) (s : State) (k :
    Core) (hk : Keeps s0 s) :
    Keeps s0 (landRows c rows grants s k).1 := by
  unfold landRows
  try extract_lets
  repeat' (first
    | with_reducible assumption | with_reducible apply landRow_keeps | with_reducible apply Keeps.foldlFst)

theorem State.landFor_keeps {s0 : State} (s : State) (c : CoreRef) (k : Core) (rows : List RowWrite) (grants : List
    BankGrant) (notify : Option Packet) (hk : Keeps s0 s) :
    Keeps s0 (State.landFor s c k rows grants notify) := by
  unfold State.landFor
  try extract_lets
  repeat' (first
    | with_reducible assumption | with_reducible apply landRows_keeps | with_reducible apply State.setCore_keeps
    | with_reducible apply State.ackPacket_keeps | split)

theorem State.spwrite_keeps {s0 : State} (s : State) (c : CoreRef) (off : Nat) (bs : List Byte) (grants : List
    BankGrant) (hk : Keeps s0 s) :
    Keeps s0 (State.spwrite s c off bs grants) := by
  unfold State.spwrite
  try extract_lets
  repeat' (first
    | with_reducible assumption | with_reducible apply State.landFor_keeps | with_reducible apply State.report_keeps
    | with_reducible apply Keeps.ite)

theorem State.judgeRow_keeps {s0 : State} (s : State) (p : Nat) (f : HbmFind) (hk : Keeps s0 s) :
    Keeps s0 (State.judgeRow s p f) := by
  unfold State.judgeRow
  try extract_lets
  repeat' (first
    | with_reducible assumption | with_reducible apply State.retireStack_keeps
    | with_reducible apply State.setStack_keeps | with_reducible apply Keeps.ite)

theorem State.judgeStack_keeps {s0 : State} (s : State) (p : Nat) (hk : Keeps s0 s) :
    Keeps s0 (State.judgeStack s p) := by
  unfold State.judgeStack
  try extract_lets
  repeat' (first
    | with_reducible assumption | with_reducible intro _ | with_reducible apply State.judgeRow_keeps
    | with_reducible apply State.tick_keeps | with_reducible apply State.setStack_keeps
    | with_reducible apply State.retireStack_keeps | with_reducible apply Keeps.ite
    | with_reducible apply Keeps.foldl)

theorem landAll_keeps {s0 : State} (c : CoreRef) (o : State × Core) (hk : Keeps s0 o.1) :
    Keeps s0 (landAll c o).1 := by
  unfold landAll
  try extract_lets
  repeat' (first
    | with_reducible assumption | with_reducible intro _ | with_reducible apply landBank_keeps
    | with_reducible apply Keeps.foldlFst)

theorem State.parityFault_keeps {s0 : State} (s : State) (c : CoreRef) (p : Packet) (hk : Keeps s0 s) :
    Keeps s0 (State.parityFault s c p) := by
  unfold State.parityFault
  try extract_lets
  repeat' (first
    | with_reducible assumption | with_reducible apply State.report_keeps | with_reducible apply State.onDie_keeps
    | split)

theorem State.landPacket_keeps {s0 : State} (s : State) (c : CoreRef) (k : Core) (p : Packet) (grants : List BankGrant)
    (bad : Option (BitVec 6)) (hk : Keeps s0 s) :
    Keeps s0 (State.landPacket s c k p grants bad) := by
  unfold State.landPacket
  try dsimp only
  repeat' (first
    | with_reducible assumption | with_reducible apply landAll_keeps | with_reducible apply State.landFor_keeps
    | with_reducible apply State.parityFault_keeps | split)

theorem State.msdAnswer_keeps {s0 : State} (s : State) (k : Nat) (m : Nat) (p : Packet) (status : BitVec 8) (hk : Keeps
    s0 s) :
    Keeps s0 (State.msdAnswer s k m p status) := by
  unfold State.msdAnswer
  try extract_lets
  repeat' (first
    | with_reducible assumption | with_reducible apply State.ackPacket_keeps
    | with_reducible apply State.msdInject_keeps | with_reducible apply Keeps.ite)

theorem State.msdDone_keeps {s0 : State} (s : State) (k : Nat) (m : Nat) (p : Packet) (bytes : Nat) (hk : Keeps s0 s) :
    Keeps s0 (State.msdDone s k m p bytes) := by
  unfold State.msdDone
  try extract_lets
  repeat' (first
    | with_reducible assumption | with_reducible apply State.ackPacket_keeps
    | with_reducible apply State.msdInject_keeps | with_reducible apply Keeps.ite)

theorem State.msdPerform_keeps {s0 : State} (s : State) (k : Nat) (m : Nat) (p : Packet) (owner : Nat) (a : Nat) (stack
    : Nat) (hk : Keeps s0 s) :
    Keeps s0 (State.msdPerform s k m p owner a stack) := by
  unfold State.msdPerform
  try extract_lets
  repeat' (first
    | with_reducible assumption | with_reducible apply State.msdDone_keeps
    | with_reducible apply State.hbmWrite_keeps | with_reducible apply State.checkBlocks_keeps
    | with_reducible apply State.msdInject_keeps | with_reducible apply State.msdAnswer_keeps
    | with_reducible apply Keeps.ite)

theorem State.msdCheck_keeps {s0 : State} (s : State) (k : Nat) (m : Nat) (p : Packet) (a : Nat) (hk : Keeps s0 s) :
    Keeps s0 (State.msdCheck s k m p a) := by
  unfold State.msdCheck
  try extract_lets
  repeat' (first
    | with_reducible assumption | with_reducible apply State.msdAnswer_keeps
    | with_reducible apply State.msdPerform_keeps | with_reducible apply State.report_keeps | split)

theorem State.startRelock_keeps {s0 : State} (s : State) (d : Site) (k : Nat) (m : Nat) (chan : BitVec 3) (hk : Keeps
    s0 s) :
    Keeps s0 (State.startRelock s d k m chan) := by
  unfold State.startRelock
  try extract_lets
  repeat' (first
    | with_reducible assumption | with_reducible apply State.setCulvert_keeps
    | with_reducible apply State.parkChannel_keeps | with_reducible apply Keeps.ite)

theorem State.statusAnswer_keeps {s0 : State} (s : State) (c : CoreRef) (status : BitVec 8) (job : BitVec 8) (hk :
    Keeps s0 s) :
    Keeps s0 (State.statusAnswer s c status job) := by
  unfold State.statusAnswer
  try extract_lets
  repeat' (first
    | with_reducible assumption | with_reducible apply State.report_keeps | split)

theorem State.tookCulvert_keeps {s0 : State} (s : State) (k : Nat) (m : Nat) (p : Packet) (hk : Keeps s0 s) :
    Keeps s0 (State.tookCulvert s k m p) := by
  unfold State.tookCulvert
  try extract_lets
  repeat' (first
    | with_reducible assumption | with_reducible apply State.setCulvert_keeps)

theorem State.writeDie_keeps {s0 : State} (s : State) (d : Nat) (off : Nat) (v : Nat) (w1c : Bool) (hk : Keeps s0 s) :
    Keeps s0 (State.writeDie s d off v w1c) := by
  unfold State.writeDie
  try extract_lets
  repeat' (first
    | with_reducible assumption | with_reducible apply State.onCore_keeps | with_reducible apply State.onDie_keeps
    | split)

theorem State.writeId_keeps {s0 : State} (s : State) (id : Nat) (lock : Bool) (hk : Keeps s0 s) :
    Keeps s0 (State.writeId s id lock) := by
  unfold State.writeId
  try extract_lets
  repeat' (first
    | with_reducible assumption | with_reducible apply State.onPanel_keeps | with_reducible apply Keeps.ite)

theorem State.writeInternal_keeps {s0 : State} (s : State) (d : Nat) (off : Nat) (v : Nat) (hk : Keeps s0 s) :
    Keeps s0 (State.writeInternal s d off v) := by
  unfold State.writeInternal
  try extract_lets
  repeat' (first
    | with_reducible assumption | with_reducible apply State.onCore_keeps | with_reducible apply State.writeDie_keeps
    | with_reducible apply State.onDie_keeps | split)

theorem State.writePanel_keeps {s0 : State} (s : State) (off : Nat) (v : Nat) (hk : Keeps s0 s) :
    Keeps s0 (State.writePanel s off v) := by
  unfold State.writePanel
  try extract_lets
  repeat' (first
    | with_reducible assumption | with_reducible apply State.writeId_keeps | with_reducible apply State.onPanel_keeps
    | with_reducible apply Keeps.ite | with_reducible refine Keeps.mk ?_ rfl rfl rfl)

theorem State.writeReg_keeps {s0 : State} (s : State) (a : Nat) (v : Nat) (w1c : Bool) (hk : Keeps s0 s) :
    Keeps s0 (State.writeReg s a v w1c) := by
  unfold State.writeReg
  try extract_lets
  repeat' (first
    | with_reducible assumption | with_reducible apply State.writePanel_keeps
    | with_reducible apply State.writeDie_keeps | with_reducible apply State.setMsd_keeps | split)

theorem arrival_keeps {s0 : State} (c : CoreRef) (p : Packet) (s : State) (body : State → Core → State) (hk : Keeps s0
    s) (hb : ∀ (t : State) (y1 : Core), Keeps s0 t → Keeps s0 (body t y1)) :
    KeepsO s0 (arrival c p s body) := by
  unfold arrival
  try extract_lets
  repeat' (first
    | with_reducible assumption | with_reducible intro _ | with_reducible apply coreEvent_keeps
    | with_reducible apply State.setCore_keeps | with_reducible apply State.headerBad_keeps
    | with_reducible apply State.report_keeps | with_reducible apply State.discard_keeps
    | with_reducible apply State.answerPacket_keeps | split | (refine hb _ _ ?_))

theorem coreRequest_keeps {s0 : State} (h : CtlHdr) (s : State) (f : State → CoreRef → State) (hk : Keeps s0 s) (hb : ∀
    (t : State) (y1 : CoreRef), Keeps s0 t → Keeps s0 (f t y1)) :
    KeepsO s0 (coreRequest h s f) := by
  unfold coreRequest
  try extract_lets
  repeat' (first
    | with_reducible assumption | with_reducible apply State.ctlAnswer_keeps | with_reducible apply KeepsO.ite
    | with_reducible apply KeepsO.next | with_reducible apply Keeps.foldl)

theorem execIngressDue_keeps {s0 : State} (c : CoreRef) (bank : BitVec 4) (s : State) (hk : Keeps s0 s) :
    KeepsO s0 (execIngressDue c bank s) := by
  unfold execIngressDue
  try extract_lets
  repeat' (first
    | with_reducible assumption | with_reducible intro _ | with_reducible apply coreEvent_keeps
    | with_reducible apply rowLand_keeps | with_reducible apply State.setCore_keeps | extract_lets | split)

theorem execDeferredWrite_keeps {s0 : State} (c : CoreRef) (bank : BitVec 4) (s : State) (hk : Keeps s0 s) :
    KeepsO s0 (execDeferredWrite c bank s) := by
  unfold execDeferredWrite
  try extract_lets
  repeat' (first
    | with_reducible assumption | with_reducible intro _ | with_reducible apply coreEvent_keeps
    | with_reducible apply rowLand_keeps | with_reducible apply State.setCore_keeps | extract_lets | split)

theorem execCorrectionWriteback_keeps {s0 : State} (c : CoreRef) (bank : BitVec 4) (s : State) (hk : Keeps s0 s) :
    KeepsO s0 (execCorrectionWriteback c bank s) := by
  unfold execCorrectionWriteback
  try extract_lets
  repeat' (first
    | with_reducible assumption | with_reducible intro _ | with_reducible apply coreEvent_keeps
    | with_reducible apply SpOut.state_keeps | with_reducible apply spWrite_keeps | extract_lets | split)

theorem execScrubRead_keeps {s0 : State} (c : CoreRef) (bank : BitVec 4) (s : State) (hk : Keeps s0 s) :
    KeepsO s0 (execScrubRead c bank s) := by
  unfold execScrubRead
  try extract_lets
  repeat' (first
    | with_reducible assumption | with_reducible intro _ | with_reducible apply coreEvent_keeps
    | with_reducible apply eccCheck_keeps | with_reducible apply State.setCore_keeps
    | with_reducible apply State.countPass_keeps | extract_lets | split
    | with_reducible refine Keeps.fst ‹_ = (_, _)› ?_)

theorem execScrubForce_keeps {s0 : State} (c : CoreRef) (bank : BitVec 4) (s : State) (hk : Keeps s0 s) :
    KeepsO s0 (execScrubForce c bank s) := by
  unfold execScrubForce
  try extract_lets
  repeat' (first
    | with_reducible assumption | with_reducible intro _ | with_reducible apply coreEvent_keeps
    | with_reducible apply State.setCore_keeps | with_reducible apply Keeps.ite)

theorem execWrite_keeps {s0 : State} (p : Packet) (grants : List BankGrant) (badFlit : Option (BitVec 6)) (s : State)
    (hk : Keeps s0 s) :
    KeepsO s0 (execWrite p grants badFlit s) := by
  unfold execWrite
  try extract_lets
  repeat' (first
    | with_reducible assumption | with_reducible intro _ | with_reducible apply arrival_keeps
    | with_reducible apply State.landPacket_keeps)

theorem execWriteNotify_keeps {s0 : State} (p : Packet) (grants : List BankGrant) (badFlit : Option (BitVec 6)) (s :
    State) (hk : Keeps s0 s) :
    KeepsO s0 (execWriteNotify p grants badFlit s) := by
  unfold execWriteNotify
  try extract_lets
  repeat' (first
    | with_reducible assumption | with_reducible intro _ | with_reducible apply arrival_keeps
    | with_reducible apply State.landPacket_keeps)

theorem execReadReq_keeps {s0 : State} (p : Packet) (badFlit : Bool) (s : State) (hk : Keeps s0 s) :
    KeepsO s0 (execReadReq p badFlit s) := by
  unfold execReadReq
  try extract_lets
  repeat' (first
    | with_reducible assumption | with_reducible intro _ | with_reducible apply arrival_keeps
    | with_reducible apply State.setCore_keeps | with_reducible apply State.parityFault_keeps
    | with_reducible apply KeepsO.ite | with_reducible apply KeepsO.next | with_reducible apply Keeps.ite)

theorem execReadReqServe_keeps {s0 : State} (c : CoreRef) (s : State) (hk : Keeps s0 s) :
    KeepsO s0 (execReadReqServe c s) := by
  unfold execReadReqServe
  try extract_lets
  repeat' (first
    | with_reducible assumption | with_reducible intro _ | with_reducible apply coreEvent_keeps
    | with_reducible apply State.answerPacket_keeps | with_reducible apply State.setCore_keeps
    | with_reducible apply spReadOver_keeps | with_reducible apply State.inject_keeps
    | with_reducible apply SpOut.state_keeps | with_reducible apply State.elapse_keeps | extract_lets | split)

theorem execReadResp_keeps {s0 : State} (p : Packet) (grants : List BankGrant) (badFlit : Option (BitVec 6)) (s :
    State) (hk : Keeps s0 s) :
    KeepsO s0 (execReadResp p grants badFlit s) := by
  unfold execReadResp
  try extract_lets
  repeat' (first
    | with_reducible assumption | with_reducible intro _ | with_reducible apply arrival_keeps
    | with_reducible apply State.statusAnswer_keeps | with_reducible apply State.landPacket_keeps
    | with_reducible apply Keeps.ite)

theorem execAtomicAdd_keeps {s0 : State} (p : Packet) (grants : List BankGrant) (badFlit : Option (BitVec 6)) (s :
    State) (hk : Keeps s0 s) :
    KeepsO s0 (execAtomicAdd p grants badFlit s) := by
  unfold execAtomicAdd
  try extract_lets
  repeat' (first
    | with_reducible assumption | with_reducible intro _ | with_reducible apply arrival_keeps
    | with_reducible apply State.landPacket_keeps)

theorem execRowcast_keeps {s0 : State} (c : CoreRef) (p : Packet) (grants : List BankGrant) (badFlit : Option (BitVec
    6)) (s : State) (hk : Keeps s0 s) :
    KeepsO s0 (execRowcast c p grants badFlit s) := by
  unfold execRowcast
  try extract_lets
  repeat' (first
    | with_reducible assumption | with_reducible intro _ | with_reducible apply arrival_keeps
    | with_reducible apply State.landPacket_keeps)

theorem execColcast_keeps {s0 : State} (c : CoreRef) (p : Packet) (grants : List BankGrant) (badFlit : Option (BitVec
    6)) (s : State) (hk : Keeps s0 s) :
    KeepsO s0 (execColcast c p grants badFlit s) := by
  unfold execColcast
  try extract_lets
  repeat' (first
    | with_reducible assumption | with_reducible intro _ | with_reducible apply arrival_keeps
    | with_reducible apply State.landPacket_keeps)

theorem execCompletion_keeps {s0 : State} (p : Packet) (badFlit : Bool) (s : State) (hk : Keeps s0 s) :
    KeepsO s0 (execCompletion p badFlit s) := by
  unfold execCompletion
  try extract_lets
  repeat' (first
    | with_reducible assumption | with_reducible intro _ | with_reducible apply arrival_keeps
    | with_reducible apply State.parityFault_keeps | with_reducible apply State.setCore_keeps
    | with_reducible apply State.statusAnswer_keeps | with_reducible apply State.countIf_keeps
    | with_reducible apply Keeps.ite)

theorem execStatusAnswer_keeps {s0 : State} (c : CoreRef) (status : BitVec 8) (job : BitVec 8) (s : State) (hk : Keeps
    s0 s) :
    KeepsO s0 (execStatusAnswer c status job s) := by
  unfold execStatusAnswer
  try extract_lets
  repeat' (first
    | with_reducible assumption | with_reducible intro _ | with_reducible apply coreEvent_keeps
    | with_reducible apply State.statusAnswer_keeps)

theorem execSpwrite_keeps {s0 : State} (h : CtlHdr) (offset : BitVec 19) (data : List Byte) (grants : List BankGrant)
    (s : State) (hk : Keeps s0 s) :
    KeepsO s0 (execSpwrite h offset data grants s) := by
  unfold execSpwrite
  try extract_lets
  repeat' (first
    | with_reducible assumption | with_reducible intro _ | with_reducible apply coreRequest_keeps
    | with_reducible apply State.spwrite_keeps)

theorem request_keeps {s0 : State} (h : CtlHdr) (mayCast : Bool) (s : State) (f : State → State) (data : State → Option
    Reg64) (hk : Keeps s0 s) (hb : ∀ (t : State), Keeps s0 t → Keeps s0 (f t)) :
    KeepsO s0 (request h mayCast s f data) := by
  unfold request
  try extract_lets
  repeat' (first
    | with_reducible assumption | with_reducible apply State.ctlAnswer_keeps | with_reducible apply KeepsO.ite
    | with_reducible apply KeepsO.next | (refine hb _ ?_))

theorem execRegwrite_keeps {s0 : State} (h : CtlHdr) (offset : BitVec 24) (value : Reg64) (s : State) (hk : Keeps s0 s)
    :
    KeepsO s0 (execRegwrite h offset value s) := by
  unfold execRegwrite
  try extract_lets
  repeat' (first
    | with_reducible assumption | with_reducible intro _ | with_reducible apply request_keeps
    | with_reducible apply State.writePanel_keeps | with_reducible apply State.writeInternal_keeps
    | with_reducible apply Keeps.ite | with_reducible apply Keeps.foldl)

theorem execRegread_keeps {s0 : State} (h : CtlHdr) (offset : BitVec 24) (s : State) (hk : Keeps s0 s) :
    KeepsO s0 (execRegread h offset s) := by
  unfold execRegread
  try extract_lets
  repeat' (first
    | with_reducible assumption | with_reducible intro _ | with_reducible apply request_keeps
    | with_reducible apply State.elapse_keeps | split)

theorem execCorectlStart_keeps {s0 : State} (h : CtlHdr) (entry : BitVec 19) (s : State) (hk : Keeps s0 s) :
    KeepsO s0 (execCorectlStart h entry s) := by
  unfold execCorectlStart
  try extract_lets
  repeat' (first
    | with_reducible assumption | with_reducible intro _ | with_reducible apply coreRequest_keeps
    | with_reducible apply State.onCore_keeps)

theorem execCorectlStop_keeps {s0 : State} (h : CtlHdr) (s : State) (hk : Keeps s0 s) :
    KeepsO s0 (execCorectlStop h s) := by
  unfold execCorectlStop
  try extract_lets
  repeat' (first
    | with_reducible assumption | with_reducible intro _ | with_reducible apply coreRequest_keeps
    | with_reducible apply State.onCore_keeps)

theorem execCorectlRelease_keeps {s0 : State} (h : CtlHdr) (s : State) (hk : Keeps s0 s) :
    KeepsO s0 (execCorectlRelease h s) := by
  unfold execCorectlRelease
  try extract_lets
  repeat' (first
    | with_reducible assumption | with_reducible intro _ | with_reducible apply coreRequest_keeps
    | with_reducible apply State.onCore_keeps)

theorem execCorectlClear_keeps {s0 : State} (h : CtlHdr) (fpmode : BitVec 2) (s : State) (hk : Keeps s0 s) :
    KeepsO s0 (execCorectlClear h fpmode s) := by
  unfold execCorectlClear
  try extract_lets
  repeat' (first
    | with_reducible assumption | with_reducible intro _ | with_reducible apply coreRequest_keeps
    | with_reducible apply State.onCore_keeps)

theorem execCorectlBind_keeps {s0 : State} (h : CtlHdr) (chan : BitVec 4) (group : BitVec 6) (s : State) (hk : Keeps s0
    s) :
    KeepsO s0 (execCorectlBind h chan group s) := by
  unfold execCorectlBind
  try extract_lets
  repeat' (first
    | with_reducible assumption | with_reducible intro _ | with_reducible apply coreRequest_keeps
    | with_reducible apply State.onCore_keeps)

theorem execCorectlDebug_keeps {s0 : State} (h : CtlHdr) (resume : Bool) (s : State) (hk : Keeps s0 s) :
    KeepsO s0 (execCorectlDebug h resume s) := by
  unfold execCorectlDebug
  try extract_lets
  repeat' (first
    | with_reducible assumption | with_reducible intro _ | with_reducible apply coreRequest_keeps
    | with_reducible apply State.debugCore_keeps | with_reducible apply Keeps.ite)

theorem execFence_keeps {s0 : State} (h : CtlHdr) (s : State) (hk : Keeps s0 s) :
    KeepsO s0 (execFence h s) := by
  exact request_keeps _ _ _ _ _ hk fun _ h => h

theorem execRecord_keeps {s0 : State} (h : CtlHdr) (r : Report) (s : State) (hk : Keeps s0 s) :
    KeepsO s0 (execRecord h r s) := by
  unfold execRecord
  try extract_lets
  repeat' (first
    | with_reducible assumption | with_reducible intro _ | with_reducible apply request_keeps
    | with_reducible apply Keeps.ite | with_reducible refine Keeps.mk ?_ rfl rfl rfl)

theorem execReply_keeps {s0 : State} (h : CtlHdr) (status : BitVec 8) (data : Option Reg64) (s : State) (hk : Keeps s0
    s) :
    KeepsO s0 (execReply h status data s) := by
  unfold execReply
  try extract_lets
  repeat' (first
    | with_reducible assumption | with_reducible apply KeepsO.next | with_reducible refine Keeps.mk ?_ rfl rfl rfl)

theorem execAck_keeps {s0 : State} (a : AckMsg) (s : State) (hk : Keeps s0 s) :
    KeepsO s0 (execAck a s) := by
  unfold execAck
  try extract_lets
  repeat' (first
    | with_reducible assumption | with_reducible intro _ | with_reducible apply coreEvent_keeps
    | with_reducible apply State.statusAnswer_keeps | with_reducible apply State.acknowledge_keeps
    | with_reducible apply KeepsO.ite | with_reducible apply KeepsO.next | with_reducible apply Keeps.ite
    | with_reducible refine Keeps.mk ?_ rfl rfl rfl)

theorem execControlTimeout_keeps {s0 : State} (h : CtlHdr) (s : State) (hk : Keeps s0 s) :
    KeepsO s0 (execControlTimeout h s) := by
  unfold execControlTimeout
  try extract_lets
  repeat' (first
    | with_reducible assumption | with_reducible apply State.report_keeps | with_reducible apply KeepsO.next | split
    | with_reducible refine Keeps.mk ?_ rfl rfl rfl)

theorem execMsdPacket_keeps {s0 : State} (m : BitVec 3) (src : Site) (p : Packet) (s : State) (hk : Keeps s0 s) :
    KeepsO s0 (execMsdPacket m src p s) := by
  unfold execMsdPacket
  try extract_lets
  repeat' (first
    | with_reducible assumption | with_reducible intro _ | with_reducible apply siteEvent_keeps
    | with_reducible apply State.tookCulvert_keeps | with_reducible apply State.msdCheck_keeps
    | with_reducible apply State.msdAnswer_keeps | split)

theorem execCopyDescriptor_keeps {s0 : State} (m : BitVec 3) (src : Site) (queue : BitVec 3) (p : Packet) (s : State)
    (hk : Keeps s0 s) :
    KeepsO s0 (execCopyDescriptor m src queue p s) := by
  unfold execCopyDescriptor
  try extract_lets
  repeat' (first
    | with_reducible assumption | with_reducible intro _ | with_reducible apply siteEvent_keeps
    | with_reducible apply State.tookCulvert_keeps | with_reducible apply State.msdAnswer_keeps
    | with_reducible apply State.setMsd_keeps | with_reducible apply Keeps.ite)

theorem execCopyPiece_keeps {s0 : State} (m : BitVec 3) (s : State) (hk : Keeps s0 s) :
    KeepsO s0 (execCopyPiece m s) := by
  unfold execCopyPiece
  try extract_lets
  repeat' (first
    | with_reducible assumption | with_reducible apply State.copyStep_keeps | with_reducible apply KeepsO.next
    | split)

theorem execHbmWriteDrain_keeps {s0 : State} (stack : BitVec 5) (s : State) (hk : Keeps s0 s) :
    KeepsO s0 (execHbmWriteDrain stack s) := by
  unfold execHbmWriteDrain
  try extract_lets
  repeat' (first
    | with_reducible assumption | with_reducible apply State.setStack_keeps | with_reducible apply KeepsO.ite
    | with_reducible apply KeepsO.next | with_reducible apply KeepsO.fault)

theorem execHbmScrub_keeps {s0 : State} (stack : BitVec 5) (wrong : BitVec 3) (s : State) (hk : Keeps s0 s) :
    KeepsO s0 (execHbmScrub stack wrong s) := by
  unfold execHbmScrub
  try extract_lets
  repeat' (first
    | with_reducible assumption | with_reducible apply checkBlock_keeps | with_reducible apply State.eraseBlock_keeps
    | with_reducible apply State.setStack_keeps | with_reducible apply State.setMsd_keeps
    | with_reducible apply KeepsO.next | with_reducible apply KeepsO.fault | with_reducible apply KeepsO.refused
    | split | with_reducible refine Keeps.mk ?_ rfl rfl rfl)

theorem execCulvertReplay_keeps {s0 : State} (d : Site) (grp : BitVec 3) (chan : BitVec 3) (attempts : BitVec 3) (s :
    State) (hk : Keeps s0 s) :
    KeepsO s0 (execCulvertReplay d grp chan attempts s) := by
  unfold execCulvertReplay
  try extract_lets
  repeat' (first
    | with_reducible assumption | with_reducible intro _ | with_reducible apply siteEvent_keeps
    | with_reducible apply State.setCulvert_keeps | with_reducible apply State.parkChannel_keeps
    | with_reducible apply Keeps.ite)

theorem execCulvertRelock_keeps {s0 : State} (d : Site) (grp : BitVec 3) (chan : BitVec 3) (s : State) (hk : Keeps s0
    s) :
    KeepsO s0 (execCulvertRelock d grp chan s) := by
  unfold execCulvertRelock
  try extract_lets
  repeat' (first
    | with_reducible assumption | with_reducible intro _ | with_reducible apply siteEvent_keeps
    | with_reducible apply State.startRelock_keeps)

theorem execCulvertRelockDone_keeps {s0 : State} (d : Site) (grp : BitVec 3) (chan : BitVec 3) (locked : Bool) (s :
    State) (hk : Keeps s0 s) :
    KeepsO s0 (execCulvertRelockDone d grp chan locked s) := by
  unfold execCulvertRelockDone
  try extract_lets
  repeat' (first
    | with_reducible assumption | with_reducible intro _ | with_reducible apply siteEvent_keeps
    | with_reducible apply State.setCulvert_keeps | with_reducible apply State.report_keeps
    | with_reducible apply State.startRelock_keeps | with_reducible apply Keeps.ite | extract_lets | split)

theorem execFaultReport_keeps {s0 : State} (r : Report) (s : State) (hk : Keeps s0 s) :
    KeepsO s0 (execFaultReport r s) := by
  unfold execFaultReport
  extract_lets s1
  have h1 : Keeps s0 s1 := State.accept_keeps _ _ (Keeps.mk hk rfl rfl rfl)
  refine KeepsO.next ?_
  cases stackOfReport r with
  | none => exact h1
  | some p => exact State.judgeStack_keeps _ _ h1

theorem execBankRequestAged_keeps {s0 : State} (c : CoreRef) (bank : BitVec 4) (port : BitVec 3) (s : State) (hk :
    Keeps s0 s) :
    KeepsO s0 (execBankRequestAged c bank port s) := by
  unfold execBankRequestAged
  try extract_lets
  repeat' (first
    | with_reducible assumption | with_reducible intro _ | with_reducible apply coreEvent_keeps
    | with_reducible apply State.setCore_keeps | with_reducible apply Keeps.ite)

theorem execHbmTemperatureReadout_keeps {s0 : State} (stack : BitVec 5) (temp : Int) (s : State) (hk : Keeps s0 s) :
    KeepsO s0 (execHbmTemperatureReadout stack temp s) := by
  unfold execHbmTemperatureReadout
  try extract_lets
  repeat' (first
    | with_reducible assumption | with_reducible apply State.setStack_keeps | with_reducible apply KeepsO.ite
    | with_reducible apply KeepsO.next | with_reducible apply KeepsO.fault)

theorem execRedundantLaserSwitch_keeps {s0 : State} (feeds : List (Site × BitVec 3 × BitVec 3)) (s : State) (hk : Keeps
    s0 s) :
    KeepsO s0 (execRedundantLaserSwitch feeds s) := by
  unfold execRedundantLaserSwitch
  try extract_lets
  repeat' (first
    | with_reducible assumption | with_reducible intro _ | with_reducible apply State.startRelock_keeps
    | with_reducible apply KeepsO.next | with_reducible apply Keeps.ite | with_reducible apply Keeps.foldl)

theorem execHbmSupplyFail_keeps {s0 : State} (stack : BitVec 5) (s : State) (hk : Keeps s0 s) :
    KeepsO s0 (execHbmSupplyFail stack s) := by
  unfold execHbmSupplyFail
  try extract_lets
  repeat' (first
    | with_reducible assumption | with_reducible apply State.retireStack_keeps | with_reducible apply KeepsO.ite
    | with_reducible apply KeepsO.next | with_reducible apply KeepsO.fault)

end Sys2Proof.Machine
end

