-- ==== Sys2Proof/Laws/KeepsPanel.lean ====
section
/-!
SUPPORT. Each operation of the model keeps the waiting commands and the canonical memories (`Keeps`), one lemma each:
the system commands, jobs, retirement, faults, link commands and security.
-/

namespace Sys2Proof.Machine

theorem State.afterDie_keeps {s0 : State} (s : State) (row : Nat) (hk : Keeps s0 s) :
    Keeps s0 (State.afterDie s row) := by
  unfold State.afterDie
  try extract_lets
  repeat' (first
    | with_reducible assumption | with_reducible apply State.onPanel_keeps
    | with_reducible apply State.rewriteRow_keeps | with_reducible apply Keeps.ite)

theorem State.arm_keeps {s0 : State} (s : State) (target : Nat) (count : Nat) (u : UnitRef) (unit : Nat) (port : Nat)
    (hk : Keeps s0 s) :
    Keeps s0 (State.arm s target count u unit port) := by
  unfold State.arm
  try extract_lets
  repeat' (first
    | with_reducible assumption | with_reducible apply State.onCore_keeps | with_reducible apply State.setStack_keeps
    | with_reducible apply State.setEdge_keeps | with_reducible apply State.setPort_keeps | split)

theorem State.authorise_keeps {s0 : State} (s : State) (number : Word) (hk : Keeps s0 s) :
    Keeps s0 (State.authorise s number) := by
  unfold State.authorise
  try extract_lets
  repeat' (first
    | with_reducible assumption | with_reducible refine Keeps.mk ?_ rfl rfl rfl)

theorem State.badField_keeps {s0 : State} (s : State) (h : Cmd) (off : Nat) (hk : Keeps s0 s) :
    Keeps s0 (State.badField s h off) := by
  unfold State.badField
  try extract_lets
  repeat' (first
    | with_reducible assumption | with_reducible apply State.answer_keeps)

theorem State.startZeroise_keeps {s0 : State} (s : State) (c : CoreRef) (hk : Keeps s0 s) :
    Keeps s0 (State.startZeroise s c) := by
  unfold State.startZeroise
  try extract_lets
  repeat' (first
    | with_reducible assumption | with_reducible apply State.onCore_keeps | with_reducible apply Keeps.ite)

theorem State.placeCores_keeps {s0 : State} (s : State) (n : Nat) (hk : Keeps s0 s) :
    Keeps s0 (State.placeCores s n) := by
  unfold State.placeCores
  try extract_lets
  repeat' (first
    | with_reducible assumption | with_reducible intro _ | with_reducible apply State.startZeroise_keeps
    | with_reducible apply State.onCore_keeps | with_reducible apply Keeps.foldl)

theorem State.drawBytes_keeps {s0 : State} (s : State) (n : Nat) (hk : Keeps s0 s) :
    Keeps s0 (State.drawBytes s n).2 := by
  unfold State.drawBytes
  try extract_lets
  repeat' (first
    | with_reducible assumption | with_reducible refine Keeps.mk ?_ rfl rfl rfl)

theorem State.loadKeys_keeps {s0 : State} (s : State) (n : Nat) (hk : Keeps s0 s) :
    Keeps s0 (State.loadKeys s n) := by
  unfold State.loadKeys
  try extract_lets
  repeat' (first
    | with_reducible assumption | with_reducible intro _ | with_reducible apply State.drawBytes_keeps
    | with_reducible apply State.setMsd_keeps | with_reducible apply Keeps.foldl | split)

theorem State.recentre_keeps {s0 : State} (s : State) (sites : Nat → Bool) (hk : Keeps s0 s) :
    Keeps s0 (State.recentre s sites) := by
  unfold State.recentre
  try extract_lets
  repeat' (first
    | with_reducible assumption | with_reducible refine Keeps.mk ?_ rfl rfl rfl)

theorem State.loadDies_keeps {s0 : State} (s : State) (n : Nat) (job : BitVec 8) (img : JobImage) (hk : Keeps s0 s) :
    Keeps s0 (State.loadDies s n job img) := by
  unfold State.loadDies
  try extract_lets
  repeat' (first
    | with_reducible assumption | with_reducible intro _ | with_reducible apply State.onDie_keeps
    | with_reducible apply State.onPanel_keeps | with_reducible apply State.recentre_keeps
    | with_reducible apply Keeps.foldl)

theorem State.reserveGroups_keeps {s0 : State} (s : State) (n : Nat) (gs : List (Nat × Nat × Nat)) (hk : Keeps s0 s) :
    Keeps s0 (State.reserveGroups s n gs) := by
  unfold State.reserveGroups
  try extract_lets
  repeat' (first
    | with_reducible assumption | with_reducible intro _ | with_reducible apply State.setGroup_keeps
    | with_reducible apply Keeps.foldl)

theorem State.beginLoad_keeps {s0 : State} (s : State) (n : Nat) (q : LoadReq) (b : List Byte) (hk : Keeps s0 s) :
    Keeps s0 (State.beginLoad s n q b) := by
  unfold State.beginLoad
  try extract_lets
  repeat' (first
    | with_reducible assumption | with_reducible apply State.onPart_keeps
    | with_reducible apply State.placeCores_keeps | with_reducible apply State.loadKeys_keeps
    | with_reducible apply State.loadDies_keeps | with_reducible apply State.reserveGroups_keeps)

theorem sealPort_keeps {s0 : State} (group : BitVec 16) (secret : List Byte) (s : State) (n : Nat) (hk : Keeps s0 s) :
    Keeps s0 (sealPort group secret s n) := by
  unfold sealPort
  try extract_lets
  repeat' (first
    | with_reducible assumption | with_reducible apply State.tick_keeps | with_reducible apply State.setPort_keeps
    | with_reducible apply Keeps.ite)

theorem State.bindGroup_keeps {s0 : State} (s : State) (h : Cmd) (b : GroupBinding) (hk : Keeps s0 s) :
    Keeps s0 (State.bindGroup s h b) := by
  unfold State.bindGroup
  try extract_lets
  repeat' (first
    | with_reducible assumption | with_reducible apply State.onPart_keeps | with_reducible apply sealPort_keeps
    | with_reducible apply State.answer_keeps | with_reducible apply Keeps.foldl | split
    | with_reducible refine Keeps.mk ?_ rfl rfl rfl)

theorem State.trainEdge_keeps {s0 : State} (s : State) (d : Nat) (edge : Nat) (guard : Nat) (hk : Keeps s0 s) :
    Keeps s0 (State.trainEdge s d edge guard) := by
  unfold State.trainEdge
  try extract_lets
  repeat' (first
    | with_reducible assumption | with_reducible apply State.setEdge_keeps | split)

theorem State.retrainRow_keeps {s0 : State} (s : State) (old : State) (row : Nat) (hk : Keeps s0 s) :
    Keeps s0 (State.retrainRow s old row) := by
  unfold State.retrainRow
  try extract_lets
  repeat' (first
    | with_reducible assumption | with_reducible intro _ | with_reducible apply State.tick_keeps
    | with_reducible apply State.trainEdge_keeps | with_reducible apply Keeps.foldl)

theorem State.dieLimits_keeps {s0 : State} (s : State) (d : Site) (source : BitVec 16) (seq : Word) (hk : Keeps s0 s) :
    Keeps s0 (State.dieLimits s d source seq) := by
  unfold State.dieLimits
  try extract_lets
  repeat' (first
    | with_reducible assumption | with_reducible apply State.decideRetire_keeps | with_reducible apply Keeps.ite)

theorem State.noteRetire_keeps {s0 : State} (s : State) (u : RetUnit) (source : BitVec 16) (seq : Word) (hk : Keeps s0
    s) :
    Keeps s0 (State.noteRetire s u source seq) := by
  unfold State.noteRetire
  try extract_lets
  repeat' (first
    | with_reducible assumption | with_reducible apply State.recordSeq_keeps | with_reducible apply State.event_keeps
    | with_reducible apply State.onDie_keeps | with_reducible refine Keeps.mk ?_ rfl rfl rfl)

theorem State.resetCores_keeps {s0 : State} (s : State) (cs : List CoreRef) (hk : Keeps s0 s) :
    Keeps s0 (State.resetCores s cs) := by
  unfold State.resetCores
  try extract_lets
  repeat' (first
    | with_reducible assumption | with_reducible intro _ | with_reducible apply State.onCore_keeps
    | with_reducible apply State.dropScratchpads_keeps | with_reducible apply Keeps.foldl)

theorem State.takeOut_keeps {s0 : State} (s : State) (u : RetUnit) (hk : Keeps s0 s) :
    Keeps s0 (State.takeOut s u) := by
  unfold State.takeOut
  try extract_lets
  repeat' (first
    | with_reducible assumption | with_reducible apply State.onDie_keeps
    | with_reducible apply State.resetCores_keeps | with_reducible apply State.setRegion_keeps
    | with_reducible apply State.regionsOff_keeps | split | with_reducible refine Keeps.mk ?_ rfl rfl rfl)

theorem State.retireUnit_keeps {s0 : State} (s : State) (u : RetUnit) (source : BitVec 16) (seq : Word) (hk : Keeps s0
    s) :
    Keeps s0 (State.retireUnit s u source seq) := by
  unfold State.retireUnit
  try extract_lets
  repeat' (first
    | with_reducible assumption | with_reducible apply State.dieLimits_keeps
    | with_reducible apply State.noteRetire_keeps | with_reducible apply State.takeOut_keeps
    | with_reducible apply State.afterDie_keeps | split)

theorem State.trainSite_keeps {s0 : State} (s : State) (d : Nat) (guard : Nat) (hk : Keeps s0 s) :
    Keeps s0 (State.trainSite s d guard) := by
  unfold State.trainSite
  try extract_lets
  repeat' (first
    | with_reducible assumption | with_reducible intro _ | with_reducible apply State.trainEdge_keeps
    | with_reducible apply Keeps.foldl)

theorem State.retrainEdge_keeps {s0 : State} (s : State) (d : Nat) (edge : Nat) (badWires : Nat) (guard : Nat) (carries
    : Bool) (hk : Keeps s0 s) :
    Keeps s0 (State.retrainEdge s d edge badWires guard carries) := by
  unfold State.retrainEdge
  try extract_lets
  repeat' (first
    | with_reducible assumption | with_reducible intro _ | with_reducible apply State.edgeFail_keeps
    | with_reducible apply State.trainEdge_keeps | with_reducible apply State.setEdge_keeps
    | with_reducible apply Keeps.ite | with_reducible apply Keeps.foldl)

theorem State.setClocks_keeps {s0 : State} (s : State) (on : Bool) (hk : Keeps s0 s) :
    Keeps s0 (State.setClocks s on) := by
  unfold State.setClocks
  try extract_lets
  repeat' (first
    | with_reducible assumption | with_reducible refine Keeps.mk ?_ rfl rfl rfl)

theorem State.checkHang_keeps {s0 : State} (s : State) (n : Nat) (hk : Keeps s0 s) :
    Keeps s0 (State.checkHang s n) := by
  unfold State.checkHang
  try extract_lets
  repeat' (first
    | with_reducible assumption | with_reducible apply State.acceptOwn_keeps
    | with_reducible apply State.onPanel_keeps | split)

theorem State.clearFault_keeps {s0 : State} (s : State) (f : FaultRec) (hk : Keeps s0 s) :
    Keeps s0 (State.clearFault s f) := by
  unfold State.clearFault
  try extract_lets
  repeat' (first
    | with_reducible assumption | with_reducible apply State.onPanel_keeps | with_reducible apply Keeps.ite
    | with_reducible refine Keeps.mk ?_ rfl rfl rfl)

theorem State.closeBypass_keeps {s0 : State} (s : State) (hk : Keeps s0 s) :
    Keeps s0 (State.closeBypass s) := by
  unfold State.closeBypass
  try extract_lets
  repeat' (first
    | with_reducible assumption | with_reducible intro _ | with_reducible apply State.answer_keeps
    | with_reducible apply Keeps.foldl | with_reducible refine Keeps.mk ?_ rfl rfl rfl)

theorem State.debugAll_keeps {s0 : State} (s : State) (h : Cmd) (resume : Bool) (l : List CoreRef) (hk : Keeps s0 s) :
    Keeps s0 (State.debugAll s h resume l) := by
  unfold State.debugAll
  try extract_lets
  repeat' (first
    | with_reducible assumption | with_reducible intro _ | with_reducible apply State.answer_keeps
    | with_reducible apply State.debugCore_keeps | with_reducible apply Keeps.foldl)

theorem State.debugFetch_keeps {s0 : State} (s : State) (c : CoreRef) (off : Nat) (len : Nat) (hk : Keeps s0 s) :
    Keeps s0 (State.debugFetch s c off len).1 := by
  unfold State.debugFetch
  try extract_lets
  repeat' (first
    | with_reducible assumption | with_reducible apply spReadOver_keeps | with_reducible apply SpOut.state_keeps
    | split)

theorem State.debugGather_keeps {s0 : State} (s : State) (l : List CoreRef) (off : Nat) (len : Nat) (hk : Keeps s0 s) :
    Keeps s0 (State.debugGather s l off len).1 := by
  unfold State.debugGather
  try extract_lets
  repeat' (first
    | with_reducible assumption | with_reducible intro _ | with_reducible apply State.debugFetch_keeps
    | with_reducible apply Keeps.foldlFst)

theorem State.deliverBytes_keeps {s0 : State} (s : State) (h : Cmd) (addr : Reg64) (len : Word) (data : List Byte) (hk
    : Keeps s0 s) :
    Keeps s0 (State.deliverBytes s h addr len data) := by
  unfold State.deliverBytes
  try extract_lets
  repeat' (first
    | with_reducible assumption | with_reducible apply State.deliver_keeps)

theorem State.endSession_keeps {s0 : State} (s : State) (number : Word) (hk : Keeps s0 s) :
    Keeps s0 (State.endSession s number) := by
  unfold State.endSession
  try extract_lets
  repeat' (first
    | with_reducible assumption | with_reducible refine Keeps.mk ?_ rfl rfl rfl)

theorem State.establish_keeps {s0 : State} (s : State) (n : Nat) (e : Nat) (hk : Keeps s0 s) :
    Keeps s0 (State.establish s n e) := by
  unfold State.establish
  try extract_lets
  repeat' (first
    | with_reducible assumption | with_reducible intro _ | with_reducible apply State.onCore_keeps
    | with_reducible apply State.setRouter_keeps | with_reducible apply Keeps.foldl)

theorem State.establishLink_keeps {s0 : State} (s : State) (n : Nat) (r : Nat) (hk : Keeps s0 s) :
    Keeps s0 (State.establishLink s n r) := by
  unfold State.establishLink
  try extract_lets
  repeat' (first
    | with_reducible assumption | with_reducible apply State.record_keeps | with_reducible apply State.onCore_keeps
    | split)

theorem State.establishAll_keeps {s0 : State} (s : State) (n : Nat) (hk : Keeps s0 s) :
    Keeps s0 (State.establishAll s n) := by
  unfold State.establishAll
  try extract_lets
  repeat' (first
    | with_reducible assumption | with_reducible intro _ | with_reducible apply State.establish_keeps
    | with_reducible apply State.establishLink_keeps | with_reducible apply Keeps.foldl)

theorem State.failLoad_keeps {s0 : State} (s : State) (n : Nat) (status : BitVec 16) (detail : List Byte) (hk : Keeps
    s0 s) :
    Keeps s0 (State.failLoad s n status detail) := by
  unfold State.failLoad
  try extract_lets
  repeat' (first
    | with_reducible assumption | with_reducible apply State.endSteps_keeps | with_reducible apply State.onPart_keeps
    | with_reducible apply State.answer_keeps | split)

theorem State.failSession_keeps {s0 : State} (s : State) (number : Word) (hk : Keeps s0 s) :
    Keeps s0 (State.failSession s number) := by
  unfold State.failSession
  try extract_lets
  repeat' (first
    | with_reducible assumption | with_reducible apply State.recordKind_keeps
    | with_reducible apply State.endSession_keeps)

theorem State.fillGroups_keeps {s0 : State} (s : State) (n : Nat) (hk : Keeps s0 s) :
    Keeps s0 (State.fillGroups s n) := by
  unfold State.fillGroups
  try extract_lets
  repeat' (first
    | with_reducible assumption | with_reducible intro _ | with_reducible apply State.setGroup_keeps
    | with_reducible apply Keeps.foldl)

theorem State.writeSegs_keeps {s0 : State} (s : State) (n : Nat) (b : List Byte) (hk : Keeps s0 s) :
    Keeps s0 (State.writeSegs s n b) := by
  unfold State.writeSegs
  try extract_lets
  repeat' (first
    | with_reducible assumption | with_reducible intro _ | with_reducible apply State.spwrite_keeps
    | with_reducible apply Keeps.foldl)

theorem State.finishLoad_keeps {s0 : State} (s : State) (n : Nat) (hk : Keeps s0 s) :
    Keeps s0 (State.finishLoad s n) := by
  unfold State.finishLoad
  try extract_lets
  repeat' (first
    | with_reducible assumption | with_reducible intro _ | with_reducible apply State.failLoad_keeps
    | with_reducible apply State.writeSegs_keeps | with_reducible apply State.onCore_keeps
    | with_reducible apply State.onPart_keeps | with_reducible apply State.establishAll_keeps
    | with_reducible apply State.fillGroups_keeps | with_reducible apply State.answer_keeps
    | with_reducible apply Keeps.foldl | split)

theorem State.flag_keeps {s0 : State} (s : State) (c : CoreRef) (k : Core) (ch : BitVec 4) (hk : Keeps s0 s) :
    Keeps s0 (State.flag s c k ch).1 := by
  unfold State.flag
  try extract_lets
  repeat' (first
    | with_reducible assumption | with_reducible apply State.onDie_keeps | split
    | with_reducible refine Keeps.mk ?_ rfl rfl rfl)

theorem State.hostAbort_keeps {s0 : State} (s : State) (n : Nat) (code : BitVec 16) (hk : Keeps s0 s) :
    Keeps s0 (State.hostAbort s n code) := by
  unfold State.hostAbort
  try extract_lets
  repeat' (first
    | with_reducible assumption | with_reducible apply State.acceptOwn_keeps)

theorem State.leaveIdle_keeps {s0 : State} (s : State) (hk : Keeps s0 s) :
    Keeps s0 (State.leaveIdle s) := by
  unfold State.leaveIdle
  try extract_lets
  repeat' (first
    | with_reducible assumption | with_reducible apply State.onPanel_keeps
    | with_reducible apply State.setClocks_keeps | with_reducible apply State.recentre_keeps
    | with_reducible apply Keeps.ite)

theorem State.tryFinish_keeps {s0 : State} (s : State) (n : Nat) (hk : Keeps s0 s) :
    Keeps s0 (State.tryFinish s n) := by
  unfold State.tryFinish
  try extract_lets
  repeat' (first
    | with_reducible assumption | with_reducible apply State.finishLoad_keeps | with_reducible apply Keeps.ite)

theorem State.load_keeps {s0 : State} (s : State) (n : Nat) (q : LoadReq) (hk : Keeps s0 s) :
    Keeps s0 (State.load s n q) := by
  unfold State.load
  try extract_lets
  repeat' (first
    | with_reducible assumption | with_reducible apply State.answer_keeps
    | with_reducible apply State.leaveIdle_keeps | with_reducible apply State.tryFinish_keeps
    | with_reducible apply State.beginLoad_keeps | with_reducible apply Keeps.ite)

theorem State.openSession_keeps {s0 : State} (s : State) (o : Origin) (rights : BitVec 16) (minutes : BitVec 16) (hk :
    Keeps s0 s) :
    Keeps s0 (State.openSession s o rights minutes).2 := by
  unfold State.openSession
  try extract_lets
  repeat' (first
    | with_reducible assumption | with_reducible apply State.drawBytes_keeps
    | with_reducible refine Keeps.snd ‹_ = (_, _)› ?_ | with_reducible refine Keeps.mk ?_ rfl rfl rfl)

theorem State.runLoads_keeps {s0 : State} (s : State) (n : Nat) (x2 : Nat) (hk : Keeps s0 s) :
    Keeps s0 (State.runLoads s n x2) := by
  induction x2 generalizing s with
  | zero => exact hk
  | succ fuel ih =>
    unfold State.runLoads
    try extract_lets
    repeat' (first
      | with_reducible assumption | with_reducible apply ih | with_reducible apply State.onPart_keeps
      | with_reducible apply State.load_keeps | split)

theorem State.resumeLoads_keeps {s0 : State} (s : State) (hk : Keeps s0 s) :
    Keeps s0 (State.resumeLoads s) := by
  unfold State.resumeLoads
  try extract_lets
  repeat' (first
    | with_reducible assumption | with_reducible intro _ | with_reducible apply State.runLoads_keeps
    | with_reducible apply Keeps.foldl)

theorem State.takeLog_keeps {s0 : State} (s : State) (n : Nat) (c : CoreRef) (l : List Word) (hk : Keeps s0 s) :
    KeepsM s0 (State.takeLog s n c l) := by
  unfold State.takeLog
  try extract_lets
  repeat' (first
    | with_reducible assumption | with_reducible apply State.answer_keeps | with_reducible apply State.onPart_keeps
    | with_reducible apply KeepsM.ofSome | with_reducible apply KeepsM.ofNone | split
    | with_reducible refine Keeps.mk ?_ rfl rfl rfl)

theorem State.takeWaitingLog_keeps {s0 : State} (s : State) (n : Nat) (hk : Keeps s0 s) :
    Keeps s0 (State.takeWaitingLog s n) := by
  unfold State.takeWaitingLog
  try extract_lets
  repeat' (first
    | with_reducible assumption | with_reducible apply State.takeLog_keeps | with_reducible apply State.onCore_keeps
    | split | with_reducible refine Keeps.some ‹_ = some _› ?_)

theorem csrIssue_keeps {s0 : State} (c : CoreRef) (op : CsrOp) (opcode : Nat) (f : FmtI) (s : State) (k : Core) (hk :
    Keeps s0 s) :
    KeepsI s0 (csrIssue c op opcode f s k) := by
  unfold csrIssue
  try extract_lets
  repeat' (first
    | with_reducible assumption | with_reducible apply State.elapse_keeps | with_reducible apply KeepsI.ofDone
    | with_reducible apply KeepsI.ofTrap | with_reducible apply Keeps.ite | split)

theorem debugOn_keeps {s0 : State} (h : Cmd) (x : BitVec 16) (y : BitVec 16) (s : State) (body : State → List CoreRef →
    State) (own : Option Nat) (hk : Keeps s0 s) (hb : ∀ (t : State) (y1 : List CoreRef), Keeps s0 t → Keeps s0 (body t
    y1)) :
    KeepsO s0 (debugOn h x y s body own) := by
  unfold debugOn
  try extract_lets
  repeat' (first
    | with_reducible assumption | with_reducible intro _ | with_reducible apply State.answer_keeps
    | with_reducible apply command_keeps | with_reducible apply KeepsO.next | split | (refine hb _ _ ?_))

theorem syncIssue_keeps {s0 : State} (f : FmtS) (op : Nat) (body : State → Core → BitVec 4 → SyncChan → Issue) (s :
    State) (k : Core) (hb : ∀ (t : State) (y1 : Core) (y2 : BitVec 4) (y3 : SyncChan), Keeps s0 t → KeepsI s0 (body t
    y1 y2 y3)) (hk : Keeps s0 s) :
    KeepsI s0 (syncIssue f op body s k) := by
  unfold syncIssue
  try extract_lets
  repeat' (first
    | with_reducible assumption | with_reducible apply KeepsI.ite | with_reducible apply KeepsI.ofTrap
    | (refine hb _ _ _ _ ?_))

theorem execFlag_keeps {s0 : State} (c : CoreRef) (f : FmtS) (s : State) (hk : Keeps s0 s) :
    KeepsO s0 (execFlag c f s) := by
  unfold execFlag
  try extract_lets
  repeat' (first
    | with_reducible assumption | with_reducible intro _ | with_reducible apply issue_keeps
    | with_reducible apply syncIssue_keeps | with_reducible apply State.flag_keeps | with_reducible apply KeepsI.ite
    | with_reducible apply KeepsI.ofDone | with_reducible apply KeepsI.ofTrap)

theorem execWaitf_keeps {s0 : State} (c : CoreRef) (f : FmtS) (s : State) (hk : Keeps s0 s) :
    KeepsO s0 (execWaitf c f s) := by
  unfold execWaitf
  try extract_lets
  repeat' (first
    | with_reducible assumption | with_reducible intro _ | with_reducible apply issue_keeps
    | with_reducible apply syncIssue_keeps | with_reducible apply KeepsI.ite | with_reducible apply KeepsI.ofDone
    | with_reducible apply KeepsI.ofTrap | with_reducible apply KeepsI.ofWait)

theorem execBarrier_keeps {s0 : State} (c : CoreRef) (f : FmtS) (s : State) (hk : Keeps s0 s) :
    KeepsO s0 (execBarrier c f s) := by
  unfold execBarrier
  try extract_lets
  repeat' (first
    | with_reducible assumption | with_reducible intro _ | with_reducible apply issue_keeps
    | with_reducible apply syncIssue_keeps | with_reducible apply State.flag_keeps | with_reducible apply KeepsI.ite
    | with_reducible apply KeepsI.ofTrap | with_reducible apply KeepsI.ofWait)

theorem execNotice_keeps {s0 : State} (c : CoreRef) (f : FmtI) (s : State) (hk : Keeps s0 s) :
    KeepsO s0 (execNotice c f s) := by
  unfold execNotice
  try extract_lets
  repeat' (first
    | with_reducible assumption | with_reducible intro _ | with_reducible apply issue_keeps
    | with_reducible apply KeepsI.ite | with_reducible apply KeepsI.ofDone | with_reducible apply KeepsI.ofTrap)

theorem execCsrr_keeps {s0 : State} (c : CoreRef) (f : FmtI) (s : State) (hk : Keeps s0 s) :
    KeepsO s0 (execCsrr c f s) := by
  unfold execCsrr
  try extract_lets
  repeat' (first
    | with_reducible assumption | with_reducible apply issue_keeps | with_reducible apply csrIssue_keeps)

theorem execCsrw_keeps {s0 : State} (c : CoreRef) (f : FmtI) (s : State) (hk : Keeps s0 s) :
    KeepsO s0 (execCsrw c f s) := by
  unfold execCsrw
  try extract_lets
  repeat' (first
    | with_reducible assumption | with_reducible apply issue_keeps | with_reducible apply csrIssue_keeps)

theorem execCsrs_keeps {s0 : State} (c : CoreRef) (f : FmtI) (s : State) (hk : Keeps s0 s) :
    KeepsO s0 (execCsrs c f s) := by
  unfold execCsrs
  try extract_lets
  repeat' (first
    | with_reducible assumption | with_reducible apply issue_keeps | with_reducible apply csrIssue_keeps)

theorem execCsrc_keeps {s0 : State} (c : CoreRef) (f : FmtI) (s : State) (hk : Keeps s0 s) :
    KeepsO s0 (execCsrc c f s) := by
  unfold execCsrc
  try extract_lets
  repeat' (first
    | with_reducible assumption | with_reducible apply issue_keeps | with_reducible apply csrIssue_keeps)

theorem trapLog_keeps {s0 : State} (c : CoreRef) (s : State) (k : Core) (hk : Keeps s0 s) :
    Keeps s0 (trapLog c s k) := by
  unfold trapLog
  try extract_lets
  repeat' (first
    | with_reducible assumption | with_reducible apply State.setCore_keeps | with_reducible apply State.takeLog_keeps
    | split | with_reducible refine Keeps.some ‹_ = some _› ?_)

theorem execTrap_keeps {s0 : State} (c : CoreRef) (f : FmtS) (s : State) (hk : Keeps s0 s) :
    KeepsO s0 (execTrap c f s) := by
  unfold execTrap
  try extract_lets
  repeat' (first
    | with_reducible assumption | with_reducible intro _ | with_reducible apply issue_keeps
    | with_reducible apply trapLog_keeps | with_reducible apply State.setCore_keeps
    | with_reducible apply State.report_keeps | with_reducible apply KeepsI.ite | with_reducible apply KeepsI.ofTrap
    | with_reducible apply KeepsI.ofOver)

theorem execHalt_keeps {s0 : State} (c : CoreRef) (f : FmtS) (s : State) (hk : Keeps s0 s) :
    KeepsO s0 (execHalt c f s) := by
  unfold execHalt
  try extract_lets
  repeat' (first
    | with_reducible assumption | with_reducible intro _ | with_reducible apply issue_keeps
    | with_reducible apply KeepsI.ite | with_reducible apply KeepsI.ofDone | with_reducible apply KeepsI.ofTrap)

theorem execHaltComplete_keeps {s0 : State} (c : CoreRef) (s : State) (hk : Keeps s0 s) :
    KeepsO s0 (execHaltComplete c s) := by
  unfold execHaltComplete
  try extract_lets
  repeat' (first
    | with_reducible assumption | with_reducible intro _ | with_reducible apply coreEvent_keeps
    | with_reducible apply State.setCore_keeps | split)

theorem execRte_keeps {s0 : State} (c : CoreRef) (f : FmtS) (s : State) (hk : Keeps s0 s) :
    KeepsO s0 (execRte c f s) := by
  unfold execRte
  try extract_lets
  repeat' (first
    | with_reducible assumption | with_reducible intro _ | with_reducible apply issue_keeps
    | with_reducible apply KeepsI.ite | with_reducible apply KeepsI.ofDone | with_reducible apply KeepsI.ofTrap)

theorem fillLine_keeps {s0 : State} (c : CoreRef) (line : Nat) (s : State) (k : Core) (hk : Keeps s0 s) :
    Keeps s0 (fillLine c line s k).s := by
  unfold fillLine
  try extract_lets
  repeat' (first
    | with_reducible assumption | with_reducible apply spReadOver_keeps | split)

theorem execIbufFill_keeps {s0 : State} (c : CoreRef) (s : State) (hk : Keeps s0 s) :
    KeepsO s0 (execIbufFill c s) := by
  unfold execIbufFill
  try extract_lets
  repeat' (first
    | with_reducible assumption | with_reducible intro _ | with_reducible apply coreEvent_keeps
    | with_reducible apply fillLine_keeps | with_reducible apply SpOut.state_keeps | with_reducible apply Keeps.ite)

theorem execStoreDrain_keeps {s0 : State} (c : CoreRef) (sameRowRead : Bool) (s : State) (hk : Keeps s0 s) :
    KeepsO s0 (execStoreDrain c sameRowRead s) := by
  unfold execStoreDrain
  try extract_lets
  repeat' (first
    | with_reducible assumption | with_reducible intro _ | with_reducible apply coreEvent_keeps
    | with_reducible apply State.setCore_keeps | with_reducible apply SpOut.state_keeps
    | with_reducible apply spWrite_keeps | with_reducible apply Keeps.ite | split)

theorem execCoreHwFault_keeps {s0 : State} (c : CoreRef) (source : BitVec 16) (detail : List Byte) (s : State) (hk :
    Keeps s0 s) :
    KeepsO s0 (execCoreHwFault c source detail s) := by
  unfold execCoreHwFault
  try extract_lets
  repeat' (first
    | with_reducible assumption | with_reducible intro _ | with_reducible apply coreEvent_keeps
    | with_reducible apply State.coreFault_keeps | with_reducible apply State.setCore_keeps
    | with_reducible apply Keeps.ite)

theorem execDebugStopTaken_keeps {s0 : State} (c : CoreRef) (word : Word) (s : State) (hk : Keeps s0 s) :
    KeepsO s0 (execDebugStopTaken c word s) := by
  unfold execDebugStopTaken
  try extract_lets
  repeat' (first
    | with_reducible assumption | with_reducible intro _ | with_reducible apply coreEvent_keeps
    | with_reducible apply State.onDie_keeps | with_reducible apply State.setCore_keeps
    | with_reducible apply Keeps.ite)

theorem execBankZeroiseDone_keeps {s0 : State} (c : CoreRef) (bank : BitVec 4) (s : State) (hk : Keeps s0 s) :
    KeepsO s0 (execBankZeroiseDone c bank s) := by
  unfold execBankZeroiseDone
  try extract_lets
  repeat' (first
    | with_reducible assumption | with_reducible intro _ | with_reducible apply coreEvent_keeps
    | with_reducible apply State.startZeroise_keeps | with_reducible apply State.setCore_keeps
    | with_reducible apply State.tryFinish_keeps | split | with_reducible refine Keeps.mkDrop ?_ rfl _ rfl rfl)

theorem execPanelIdSet_keeps {s0 : State} (h : Cmd) (id : BitVec 16) (lock : Bool) (s : State) (hk : Keeps s0 s) :
    KeepsO s0 (execPanelIdSet h id lock s) := by
  unfold execPanelIdSet
  try extract_lets
  repeat' (first
    | with_reducible assumption | with_reducible intro _ | with_reducible apply command_keeps
    | with_reducible apply State.writeId_keeps | with_reducible apply State.answer_keeps)

theorem execRouteWrite_keeps {s0 : State} (h : Cmd) (addr : Reg64) (len : Word) (s : State) (hk : Keeps s0 s) :
    KeepsO s0 (execRouteWrite h addr len s) := by
  unfold execRouteWrite
  try extract_lets
  repeat' (first
    | with_reducible assumption | with_reducible intro _ | with_reducible apply command_keeps
    | with_reducible apply State.answer_keeps | with_reducible apply State.badField_keeps
    | with_reducible apply State.onPanel_keeps | with_reducible apply Keeps.ite | split)

theorem execGroupBind_keeps {s0 : State} (h : Cmd) (group : BitVec 16) (epoch : BitVec 16) (root : BitVec 16) (tree :
    Bool) (addr : Reg64) (len : Word) (s : State) (hk : Keeps s0 s) :
    KeepsO s0 (execGroupBind h group epoch root tree addr len s) := by
  unfold execGroupBind
  try extract_lets
  repeat' (first
    | with_reducible assumption | with_reducible intro _ | with_reducible apply command_keeps
    | with_reducible apply State.answer_keeps | with_reducible apply State.badField_keeps
    | with_reducible apply State.bindGroup_keeps | with_reducible apply KeepsO.next
    | with_reducible apply KeepsO.fault | with_reducible apply Keeps.ite | split)

theorem execGroupUnbind_keeps {s0 : State} (h : Cmd) (s : State) (hk : Keeps s0 s) :
    KeepsO s0 (execGroupUnbind h s) := by
  unfold execGroupUnbind
  try extract_lets
  repeat' (first
    | with_reducible assumption | with_reducible intro _ | with_reducible apply command_keeps
    | with_reducible apply State.endSealing_keeps | with_reducible apply State.answer_keeps
    | with_reducible apply State.onPart_keeps)

theorem execRingJoin_keeps {s0 : State} (h : Cmd) (s : State) (hk : Keeps s0 s) :
    KeepsO s0 (execRingJoin h s) := by
  unfold execRingJoin
  try extract_lets
  repeat' (first
    | with_reducible assumption | with_reducible intro _ | with_reducible apply command_keeps
    | with_reducible refine Keeps.mk ?_ rfl rfl rfl)

theorem execRingJoinTimeout_keeps {s0 : State} (h : Cmd) (s : State) (hk : Keeps s0 s) :
    KeepsO s0 (execRingJoinTimeout h s) := by
  unfold execRingJoinTimeout
  try extract_lets
  repeat' (first
    | with_reducible assumption | with_reducible apply State.answer_keeps | with_reducible apply KeepsO.ite
    | with_reducible apply KeepsO.next | with_reducible refine Keeps.mk ?_ rfl rfl rfl)

theorem execRingLeave_keeps {s0 : State} (h : Cmd) (s : State) (hk : Keeps s0 s) :
    KeepsO s0 (execRingLeave h s) := by
  unfold execRingLeave
  try extract_lets
  repeat' (first
    | with_reducible assumption | with_reducible intro _ | with_reducible apply command_keeps
    | with_reducible apply State.answer_keeps | with_reducible apply State.closeBypass_keeps
    | with_reducible apply KeepsO.refused)

theorem execShadowBind_keeps {s0 : State} (h : Cmd) (role : BitVec 8) (peer : BitVec 16) (peerPart : BitVec 8)
    (mirrorPort : BitVec 8) (digestGroup : BitVec 8) (s : State) (hk : Keeps s0 s) :
    KeepsO s0 (execShadowBind h role peer peerPart mirrorPort digestGroup s) := by
  unfold execShadowBind
  try extract_lets
  repeat' (first
    | with_reducible assumption | with_reducible intro _ | with_reducible apply command_keeps
    | with_reducible apply State.answer_keeps | with_reducible apply State.setShadow_keeps
    | with_reducible refine Keeps.mk ?_ rfl rfl rfl)

theorem execPortRead_keeps {s0 : State} (h : Cmd) (addr : Reg64) (len : Word) (s : State) (hk : Keeps s0 s) :
    KeepsO s0 (execPortRead h addr len s) := by
  unfold execPortRead
  try extract_lets
  repeat' (first
    | with_reducible assumption | with_reducible intro _ | with_reducible apply command_keeps
    | with_reducible apply State.deliverBytes_keeps)

theorem execJobLoad_keeps {s0 : State} (h : Cmd) (addr : Reg64) (len : Word) (hold : Bool) (s : State) (hk : Keeps s0
    s) :
    KeepsO s0 (execJobLoad h addr len hold s) := by
  unfold execJobLoad
  try extract_lets
  repeat' (first
    | with_reducible assumption | with_reducible intro _ | with_reducible apply command_keeps
    | with_reducible apply State.runLoads_keeps | with_reducible apply State.onPart_keeps)

theorem execJobStart_keeps {s0 : State} (h : Cmd) (limit : Word) (s : State) (hk : Keeps s0 s) :
    KeepsO s0 (execJobStart h limit s) := by
  unfold execJobStart
  try extract_lets
  repeat' (first
    | with_reducible assumption | with_reducible intro _ | with_reducible apply command_keeps
    | with_reducible apply State.onDie_keeps | with_reducible apply State.onCore_keeps
    | with_reducible apply State.onPart_keeps | with_reducible apply State.answer_keeps
    | with_reducible apply State.enterPhase_keeps | with_reducible apply Keeps.foldl)

theorem execJobAbort_keeps {s0 : State} (h : Cmd) (reason : BitVec 16) (s : State) (hk : Keeps s0 s) :
    KeepsO s0 (execJobAbort h reason s) := by
  unfold execJobAbort
  try extract_lets
  repeat' (first
    | with_reducible assumption | with_reducible intro _ | with_reducible apply command_keeps
    | with_reducible apply State.answer_keeps | with_reducible apply State.hostAbort_keeps)

theorem execJobWait_keeps {s0 : State} (h : Cmd) (s : State) (hk : Keeps s0 s) :
    KeepsO s0 (execJobWait h s) := by
  unfold execJobWait
  try extract_lets
  repeat' (first
    | with_reducible assumption | with_reducible intro _ | with_reducible apply command_keeps
    | with_reducible apply State.park_keeps)

theorem execCkptWait_keeps {s0 : State} (h : Cmd) (s : State) (hk : Keeps s0 s) :
    KeepsO s0 (execCkptWait h s) := by
  unfold execCkptWait
  try extract_lets
  repeat' (first
    | with_reducible assumption | with_reducible intro _ | with_reducible apply command_keeps
    | with_reducible apply State.park_keeps)

theorem execCkptRelease_keeps {s0 : State} (h : Cmd) (s : State) (hk : Keeps s0 s) :
    KeepsO s0 (execCkptRelease h s) := by
  unfold execCkptRelease
  try extract_lets
  repeat' (first
    | with_reducible assumption | with_reducible intro _ | with_reducible apply command_keeps
    | with_reducible apply State.onCore_keeps | with_reducible apply State.answer_keeps
    | with_reducible apply State.onPart_keeps | with_reducible apply Keeps.foldl)

theorem execJobEnd_keeps {s0 : State} (h : Cmd) (s : State) (hk : Keeps s0 s) :
    KeepsO s0 (execJobEnd h s) := by
  unfold execJobEnd
  try extract_lets
  repeat' (first
    | with_reducible assumption | with_reducible intro _ | with_reducible apply command_keeps
    | with_reducible apply State.answer_keeps | with_reducible apply State.closeRecords_keeps
    | with_reducible apply State.endJob_keeps)

theorem execLogWait_keeps {s0 : State} (h : Cmd) (s : State) (hk : Keeps s0 s) :
    KeepsO s0 (execLogWait h s) := by
  unfold execLogWait
  try extract_lets
  repeat' (first
    | with_reducible assumption | with_reducible intro _ | with_reducible apply command_keeps
    | with_reducible apply State.park_keeps | with_reducible apply State.answer_keeps
    | with_reducible apply State.takeWaitingLog_keeps | with_reducible apply State.onPart_keeps | split)

theorem execJobComplete_keeps {s0 : State} (part : BitVec 4) (s : State) (hk : Keeps s0 s) :
    KeepsO s0 (execJobComplete part s) := by
  unfold execJobComplete
  try extract_lets
  repeat' (first
    | with_reducible assumption | with_reducible apply State.endJob_keeps | with_reducible apply State.onPart_keeps
    | with_reducible apply State.wake_keeps | with_reducible apply State.closeRecords_keeps
    | with_reducible apply KeepsO.ite | with_reducible apply KeepsO.next)

theorem execCheckpointEntry_keeps {s0 : State} (part : BitVec 4) (s : State) (hk : Keeps s0 s) :
    KeepsO s0 (execCheckpointEntry part s) := by
  unfold execCheckpointEntry
  try extract_lets
  repeat' (first
    | with_reducible assumption | with_reducible apply State.closeRecords_keeps
    | with_reducible apply State.endJob_keeps | with_reducible apply State.onPart_keeps
    | with_reducible apply State.wake_keeps | with_reducible apply KeepsO.ite | with_reducible apply KeepsO.next)

theorem execCkptLimitExpire_keeps {s0 : State} (part : BitVec 4) (s : State) (hk : Keeps s0 s) :
    KeepsO s0 (execCkptLimitExpire part s) := by
  unfold execCkptLimitExpire
  try extract_lets
  repeat' (first
    | with_reducible assumption | with_reducible apply State.closeRecords_keeps
    | with_reducible apply State.endJob_keeps | with_reducible apply KeepsO.ite | with_reducible apply KeepsO.next)

theorem execEdgeRetrainDue_keeps {s0 : State} (d : Site) (edge : BitVec 2) (s : State) (hk : Keeps s0 s) :
    KeepsO s0 (execEdgeRetrainDue d edge s) := by
  unfold execEdgeRetrainDue
  try extract_lets
  repeat' (first
    | with_reducible assumption | with_reducible intro _ | with_reducible apply siteEvent_keeps
    | with_reducible apply State.setEdge_keeps | with_reducible apply Keeps.ite)

theorem execEdgeRetrain_keeps {s0 : State} (d : Site) (edge : BitVec 2) (badWires : BitVec 9) (carries : Bool) (s :
    State) (hk : Keeps s0 s) :
    KeepsO s0 (execEdgeRetrain d edge badWires carries s) := by
  unfold execEdgeRetrain
  try extract_lets
  repeat' (first
    | with_reducible assumption | with_reducible intro _ | with_reducible apply siteEvent_keeps
    | with_reducible apply State.onDie_keeps | with_reducible apply State.tick_keeps
    | with_reducible apply State.retrainEdge_keeps | with_reducible apply Keeps.ite
    | with_reducible apply Keeps.foldl)

theorem execRetire_keeps {s0 : State} (h : Cmd) (d : Site) (unit : BitVec 8) (index : BitVec 16) (s : State) (hk :
    Keeps s0 s) :
    KeepsO s0 (execRetire h d unit index s) := by
  unfold execRetire
  try extract_lets
  repeat' (first
    | with_reducible assumption | with_reducible intro _ | with_reducible apply command_keeps
    | with_reducible apply State.answer_keeps | with_reducible apply State.afterDie_keeps
    | with_reducible apply State.retireUnit_keeps | with_reducible apply Keeps.ite
    | with_reducible refine Keeps.mk ?_ rfl rfl rfl)

theorem execFaultRead_keeps {s0 : State} (h : Cmd) (addr : Reg64) (len : Word) (first : Word) (uncleared : Bool) (s :
    State) (hk : Keeps s0 s) :
    KeepsO s0 (execFaultRead h addr len first uncleared s) := by
  unfold execFaultRead
  try extract_lets
  repeat' (first
    | with_reducible assumption | with_reducible intro _ | with_reducible apply command_keeps
    | with_reducible apply State.deliver_keeps)

theorem execFaultClear_keeps {s0 : State} (h : Cmd) (seq : Word) (s : State) (hk : Keeps s0 s) :
    KeepsO s0 (execFaultClear h seq s) := by
  unfold execFaultClear
  try extract_lets
  repeat' (first
    | with_reducible assumption | with_reducible intro _ | with_reducible apply command_keeps
    | with_reducible apply State.clearFault_keeps | with_reducible apply State.answer_keeps
    | with_reducible apply State.faultEdge_keeps | split)

theorem execEventWait_keeps {s0 : State} (h : Cmd) (mask : Word) (s : State) (hk : Keeps s0 s) :
    KeepsO s0 (execEventWait h mask s) := by
  unfold execEventWait
  try extract_lets
  repeat' (first
    | with_reducible assumption | with_reducible intro _ | with_reducible apply command_keeps
    | with_reducible apply State.park_keeps)

theorem execRecRead_keeps {s0 : State} (h : Cmd) (addr : Reg64) (len : Word) (area : BitVec 8) (s : State) (hk : Keeps
    s0 s) :
    KeepsO s0 (execRecRead h addr len area s) := by
  unfold execRecRead
  try extract_lets
  repeat' (first
    | with_reducible assumption | with_reducible intro _ | with_reducible apply command_keeps
    | with_reducible apply State.deliver_keeps)

theorem execRecClear_keeps {s0 : State} (h : Cmd) (s : State) (hk : Keeps s0 s) :
    KeepsO s0 (execRecClear h s) := by
  unfold execRecClear
  try extract_lets
  repeat' (first
    | with_reducible assumption | with_reducible intro _ | with_reducible apply command_keeps
    | with_reducible apply State.recordSeq_keeps | with_reducible apply State.answer_keeps
    | with_reducible refine Keeps.mk ?_ rfl rfl rfl)

theorem execInject_keeps {s0 : State} (h : Cmd) (target : BitVec 8) (count : BitVec 8) (site : BitVec 16) (unit :
    BitVec 16) (port : BitVec 8) (s : State) (hk : Keeps s0 s) :
    KeepsO s0 (execInject h target count site unit port s) := by
  unfold execInject
  try extract_lets
  repeat' (first
    | with_reducible assumption | with_reducible intro _ | with_reducible apply State.answer_keeps
    | with_reducible apply command_keeps | with_reducible apply State.record_keeps
    | with_reducible apply State.arm_keeps | with_reducible apply KeepsO.ite | with_reducible apply KeepsO.next)

theorem execHangSample_keeps {s0 : State} (s : State) (hk : Keeps s0 s) :
    KeepsO s0 (execHangSample s) := by
  unfold execHangSample
  try extract_lets
  repeat' (first
    | with_reducible assumption | with_reducible apply State.checkHang_keeps | with_reducible apply KeepsO.next
    | with_reducible apply Keeps.foldl | with_reducible refine Keeps.mk ?_ rfl rfl rfl)

theorem execUnitRetire_keeps {s0 : State} (u : RetUnit) (s : State) (hk : Keeps s0 s) :
    KeepsO s0 (execUnitRetire u s) := by
  unfold execUnitRetire
  try extract_lets
  repeat' (first
    | with_reducible assumption | with_reducible intro _ | with_reducible apply siteEvent_keeps
    | with_reducible apply State.retireUnit_keeps | split)

theorem execPostFaultTest_keeps {s0 : State} (c : CoreRef) (pass : Bool) (s : State) (hk : Keeps s0 s) :
    KeepsO s0 (execPostFaultTest c pass s) := by
  unfold execPostFaultTest
  try extract_lets
  repeat' (first
    | with_reducible assumption | with_reducible intro _ | with_reducible apply coreEvent_keeps
    | with_reducible apply State.setCore_keeps | with_reducible apply State.decideRetire_keeps
    | with_reducible apply State.resumeLoads_keeps | with_reducible apply State.closeRecords_keeps
    | with_reducible apply Keeps.ite | split)

theorem execSpareEngage_keeps {s0 : State} (row : BitVec 4) (failedWeirs : List Site) (s : State) (hk : Keeps s0 s) :
    KeepsO s0 (execSpareEngage row failedWeirs s) := by
  unfold execSpareEngage
  try extract_lets
  repeat' (first
    | with_reducible assumption | with_reducible intro _ | with_reducible apply State.onPanel_keeps
    | with_reducible apply State.resumeLoads_keeps | with_reducible apply State.weirFailed_keeps
    | with_reducible apply State.report_keeps | with_reducible apply State.retrainRow_keeps
    | with_reducible apply State.rewriteRow_keeps | with_reducible apply KeepsO.ite
    | with_reducible apply KeepsO.next | with_reducible apply Keeps.foldl)

theorem execRecorderTrigger_keeps {s0 : State} (t : RecTrig) (s : State) (hk : Keeps s0 s) :
    KeepsO s0 (execRecorderTrigger t s) := by
  unfold execRecorderTrigger
  try extract_lets
  repeat' (first
    | with_reducible assumption | with_reducible apply State.record_keeps | with_reducible apply KeepsO.ite
    | with_reducible apply KeepsO.next)

theorem execIdentity_keeps {s0 : State} (h : Cmd) (addr : Reg64) (len : Word) (s : State) (hk : Keeps s0 s) :
    KeepsO s0 (execIdentity h addr len s) := by
  unfold execIdentity
  try extract_lets
  repeat' (first
    | with_reducible assumption | with_reducible intro _ | with_reducible apply command_keeps
    | with_reducible apply State.answer_keeps | with_reducible apply State.deliver_keeps
    | with_reducible apply Keeps.ite)

theorem execAttest_keeps {s0 : State} (h : Cmd) (addr : Reg64) (len : Word) (part : BitVec 8) (nonce : List Byte) (s :
    State) (hk : Keeps s0 s) :
    KeepsO s0 (execAttest h addr len part nonce s) := by
  unfold execAttest
  try extract_lets
  repeat' (first
    | with_reducible assumption | with_reducible intro _ | with_reducible apply command_keeps
    | with_reducible apply State.deliver_keeps)

theorem execSessionOpen_keeps {s0 : State} (h : Cmd) (addr : Reg64) (rights : BitVec 16) (minutes : BitVec 16) (s :
    State) (hk : Keeps s0 s) :
    KeepsO s0 (execSessionOpen h addr rights minutes s) := by
  unfold execSessionOpen
  try extract_lets
  repeat' (first
    | with_reducible assumption | with_reducible intro _ | with_reducible apply command_keeps
    | with_reducible apply State.answer_keeps | with_reducible apply State.openSession_keeps
    | with_reducible apply State.deliver_keeps | with_reducible apply State.recordKind_keeps
    | with_reducible apply Keeps.ite)

theorem execSessionAuth_keeps {s0 : State} (h : Cmd) (addr : Reg64) (len : Word) (s : State) (hk : Keeps s0 s) :
    KeepsO s0 (execSessionAuth h addr len s) := by
  unfold execSessionAuth
  try extract_lets
  repeat' (first
    | with_reducible assumption | with_reducible intro _ | with_reducible apply command_keeps
    | with_reducible apply State.answer_keeps | with_reducible apply State.recordKind_keeps
    | with_reducible apply State.authorise_keeps | with_reducible apply State.failSession_keeps | split)

theorem execSessionAuthTimeout_keeps {s0 : State} (session : Word) (s : State) (hk : Keeps s0 s) :
    KeepsO s0 (execSessionAuthTimeout session s) := by
  unfold execSessionAuthTimeout
  try extract_lets
  repeat' (first
    | with_reducible assumption | with_reducible apply State.failSession_keeps | with_reducible apply KeepsO.ite
    | with_reducible apply KeepsO.next)

theorem execSessionClose_keeps {s0 : State} (h : Cmd) (s : State) (hk : Keeps s0 s) :
    KeepsO s0 (execSessionClose h s) := by
  unfold execSessionClose
  try extract_lets
  repeat' (first
    | with_reducible assumption | with_reducible intro _ | with_reducible apply command_keeps
    | with_reducible apply State.answer_keeps | with_reducible apply State.recordKind_keeps
    | with_reducible apply State.endSession_keeps | split)

theorem execSessionExpire_keeps {s0 : State} (session : Word) (s : State) (hk : Keeps s0 s) :
    KeepsO s0 (execSessionExpire session s) := by
  unfold execSessionExpire
  try extract_lets
  repeat' (first
    | with_reducible assumption | with_reducible apply State.recordKind_keeps
    | with_reducible apply State.endSession_keeps | with_reducible apply KeepsO.ite
    | with_reducible apply KeepsO.next)

theorem execSealOffer_keeps {s0 : State} (h : Cmd) (addr : Reg64) (len : Word) (nonce : List Byte) (s : State) (hk :
    Keeps s0 s) :
    KeepsO s0 (execSealOffer h addr len nonce s) := by
  unfold execSealOffer
  try extract_lets
  repeat' (first
    | with_reducible assumption | with_reducible intro _ | with_reducible apply command_keeps
    | with_reducible apply State.onPart_keeps | with_reducible apply State.deliver_keeps
    | with_reducible apply Keeps.ite | with_reducible refine Keeps.mk ?_ rfl rfl rfl)

theorem execSealOfferLapse_keeps {s0 : State} (part : BitVec 4) (s : State) (hk : Keeps s0 s) :
    KeepsO s0 (execSealOfferLapse part s) := by
  unfold execSealOfferLapse
  try extract_lets
  repeat' (first
    | with_reducible assumption | with_reducible apply State.onPart_keeps | with_reducible apply KeepsO.next)

theorem execSealAccept_keeps {s0 : State} (h : Cmd) (addr : Reg64) (len : Word) (s : State) (hk : Keeps s0 s) :
    KeepsO s0 (execSealAccept h addr len s) := by
  unfold execSealAccept
  try extract_lets
  repeat' (first
    | with_reducible assumption | with_reducible intro _ | with_reducible apply command_keeps
    | with_reducible apply State.answer_keeps | with_reducible apply State.onPart_keeps
    | with_reducible apply State.record_keeps | split)

theorem execDebugStop_keeps {s0 : State} (h : Cmd) (x : BitVec 16) (y : BitVec 16) (s : State) (hk : Keeps s0 s) :
    KeepsO s0 (execDebugStop h x y s) := by
  unfold execDebugStop
  try extract_lets
  repeat' (first
    | with_reducible assumption | with_reducible intro _ | with_reducible apply debugOn_keeps
    | with_reducible apply State.debugAll_keeps)

theorem execDebugResume_keeps {s0 : State} (h : Cmd) (x : BitVec 16) (y : BitVec 16) (s : State) (hk : Keeps s0 s) :
    KeepsO s0 (execDebugResume h x y s) := by
  unfold execDebugResume
  try extract_lets
  repeat' (first
    | with_reducible assumption | with_reducible intro _ | with_reducible apply debugOn_keeps
    | with_reducible apply State.debugAll_keeps)

theorem execDebugRead_keeps {s0 : State} (h : Cmd) (x : BitVec 16) (y : BitVec 16) (offset : BitVec 24) (host : Reg64)
    (len : Word) (s : State) (hk : Keeps s0 s) :
    KeepsO s0 (execDebugRead h x y offset host len s) := by
  unfold execDebugRead
  try extract_lets
  repeat' (first
    | with_reducible assumption | with_reducible intro _ | with_reducible apply debugOn_keeps
    | with_reducible apply State.answer_keeps | with_reducible apply State.debugGather_keeps
    | with_reducible apply State.answerData_keeps | with_reducible apply State.badField_keeps
    | with_reducible apply Keeps.ite | split | with_reducible refine Keeps.fst ‹_ = (_, _)› ?_)

theorem execDebugWrite_keeps {s0 : State} (h : Cmd) (x : BitVec 16) (y : BitVec 16) (offset : BitVec 24) (host : Reg64)
    (len : Word) (s : State) (hk : Keeps s0 s) :
    KeepsO s0 (execDebugWrite h x y offset host len s) := by
  unfold execDebugWrite
  try extract_lets
  repeat' (first
    | with_reducible assumption | with_reducible intro _ | with_reducible apply debugOn_keeps
    | with_reducible apply State.answer_keeps | with_reducible apply State.spwrite_keeps
    | with_reducible apply Keeps.foldl | split)

theorem execIllegalInstruction_keeps {s0 : State} (c : CoreRef) (word : Word) (s : State) (hk : Keeps s0 s) :
    KeepsO s0 (execIllegalInstruction c word s) := by
  unfold execIllegalInstruction
  try extract_lets
  repeat' (first
    | with_reducible assumption | with_reducible intro _ | with_reducible apply issue_keeps
    | with_reducible apply KeepsI.ite | with_reducible apply KeepsI.ofTrap | with_reducible apply KeepsI.ofStall)

end Sys2Proof.Machine
end

