-- ==== Sys2Proof/Laws/KeepsPower.lean ====
section
/-!
SUPPORT. Each operation of the model keeps the waiting commands and the canonical memories (`Keeps`), one lemma each:
power, resets, thermal protection and bring-up.
-/

namespace Sys2Proof.Machine

theorem State.baseRow_keeps {s0 : State} (s : State) (row : Nat) (hk : Keeps s0 s) :
    Keeps s0 (State.baseRow s row) := by
  unfold State.baseRow
  try extract_lets
  repeat' (first
    | with_reducible assumption | with_reducible apply State.setRow_keeps)

theorem State.beginLevee_keeps {s0 : State} (s : State) (n : Nat) (h : Cmd) (hk : Keeps s0 s) :
    Keeps s0 (State.beginLevee s n h) := by
  unfold State.beginLevee
  try extract_lets
  repeat' (first
    | with_reducible assumption | with_reducible intro _ | with_reducible apply State.onPart_keeps
    | with_reducible apply State.onDie_keeps | with_reducible apply Keeps.foldl
    | with_reducible refine Keeps.mk ?_ rfl rfl rfl)

theorem State.wakeDies_keeps {s0 : State} (s : State) (b : BringUp) (k : BootKind) (hk : Keeps s0 s) :
    Keeps s0 (State.wakeDies s b k) := by
  unfold State.wakeDies
  try extract_lets
  repeat' (first
    | with_reducible assumption | with_reducible intro _ | with_reducible apply State.onDie_keeps
    | with_reducible apply Keeps.foldl)

theorem State.wakeUnits_keeps {s0 : State} (s : State) (b : BringUp) (hk : Keeps s0 s) :
    Keeps s0 (State.wakeUnits s b) := by
  unfold State.wakeUnits
  try extract_lets
  repeat' (first
    | with_reducible assumption | with_reducible intro _ | with_reducible apply State.setMsd_keeps
    | with_reducible apply State.onPanel_keeps | with_reducible apply Keeps.ite | with_reducible apply Keeps.foldl)

theorem State.settleSensors_keeps {s0 : State} (s : State) (hk : Keeps s0 s) :
    Keeps s0 (State.settleSensors s) := by
  unfold State.settleSensors
  try extract_lets
  repeat' (first
    | with_reducible assumption | with_reducible intro _ | with_reducible apply State.decideRetire_keeps
    | with_reducible apply Keeps.ite | with_reducible apply Keeps.foldl
    | with_reducible refine Keeps.mk ?_ rfl rfl rfl)

theorem State.buildRows_keeps {s0 : State} (s : State) (hk : Keeps s0 s) :
    Keeps s0 (State.buildRows s) := by
  unfold State.buildRows
  try extract_lets
  repeat' (first
    | with_reducible assumption | with_reducible intro _ | with_reducible apply State.baseRow_keeps
    | with_reducible apply State.setRow_keeps | with_reducible apply Keeps.foldl)

theorem State.phasesFromFlash_keeps {s0 : State} (s : State) (hk : Keeps s0 s) :
    Keeps s0 (State.phasesFromFlash s) := by
  unfold State.phasesFromFlash
  try extract_lets
  repeat' (first
    | with_reducible assumption | with_reducible intro _ | with_reducible apply State.setRegion_keeps
    | with_reducible apply Keeps.foldl)

theorem State.diesFromFlash_keeps {s0 : State} (s : State) (hk : Keeps s0 s) :
    Keeps s0 (State.diesFromFlash s) := by
  unfold State.diesFromFlash
  try extract_lets
  repeat' (first
    | with_reducible assumption | with_reducible intro _ | with_reducible apply State.onDie_keeps
    | with_reducible apply Keeps.foldl)

theorem State.settleRows_keeps {s0 : State} (s : State) (hk : Keeps s0 s) :
    Keeps s0 (State.settleRows s) := by
  unfold State.settleRows
  try extract_lets
  repeat' (first
    | with_reducible assumption | with_reducible intro _ | with_reducible apply State.onPanel_keeps
    | with_reducible apply State.retrainRow_keeps | with_reducible apply State.rewriteRow_keeps
    | with_reducible apply Keeps.ite | with_reducible apply Keeps.foldl)

theorem State.trainWeirs_keeps {s0 : State} (s : State) (failed : List Site) (hk : Keeps s0 s) :
    Keeps s0 (State.trainWeirs s failed) := by
  unfold State.trainWeirs
  try extract_lets
  repeat' (first
    | with_reducible assumption | with_reducible intro _ | with_reducible apply State.weirFailed_keeps
    | with_reducible apply State.report_keeps | with_reducible apply Keeps.foldl)

theorem State.settleRetirements_keeps {s0 : State} (s : State) (hk : Keeps s0 s) :
    Keeps s0 (State.settleRetirements s) := by
  unfold State.settleRetirements
  try extract_lets
  repeat' (first
    | with_reducible assumption | with_reducible intro _ | with_reducible apply State.retireUnit_keeps
    | with_reducible apply Keeps.ite | with_reducible apply Keeps.foldl)

theorem State.retireSilent_keeps {s0 : State} (s : State) (silent : List Site) (hk : Keeps s0 s) :
    Keeps s0 (State.retireSilent s silent) := by
  unfold State.retireSilent
  try extract_lets
  repeat' (first
    | with_reducible assumption | with_reducible intro _ | with_reducible apply State.retireUnit_keeps
    | with_reducible apply Keeps.ite | with_reducible apply Keeps.foldl)

theorem State.foundAll_keeps {s0 : State} (s : State) (b : BringUp) (hk : Keeps s0 s) :
    Keeps s0 (State.foundAll s b) := by
  unfold State.foundAll
  try extract_lets
  repeat' (first
    | with_reducible assumption | with_reducible intro _ | with_reducible apply State.setEdge_keeps
    | with_reducible apply State.edgeFail_keeps | with_reducible apply Keeps.ite | with_reducible apply Keeps.foldl)

theorem State.trainAll_keeps {s0 : State} (s : State) (hk : Keeps s0 s) :
    Keeps s0 (State.trainAll s) := by
  unfold State.trainAll
  try extract_lets
  repeat' (first
    | with_reducible assumption | with_reducible intro _ | with_reducible apply State.setEdge_keeps
    | with_reducible apply State.trainSite_keeps | with_reducible apply Keeps.ite | with_reducible apply Keeps.foldl
    | with_reducible refine Keeps.mk ?_ rfl rfl rfl)

theorem State.exchangeAll_keeps {s0 : State} (s : State) (b : BringUp) (hk : Keeps s0 s) :
    Keeps s0 (State.exchangeAll s b) := by
  unfold State.exchangeAll
  try extract_lets
  repeat' (first
    | with_reducible assumption | with_reducible intro _ | with_reducible apply State.retrainEdge_keeps
    | with_reducible apply State.trainEdge_keeps | with_reducible apply Keeps.ite | with_reducible apply Keeps.foldl
    | split)

theorem State.trainPorts_keeps {s0 : State} (s : State) (up : List (BitVec 6 × BitVec 16 × BitVec 6)) (hk : Keeps s0 s)
    :
    Keeps s0 (State.trainPorts s up) := by
  unfold State.trainPorts
  try extract_lets
  repeat' (first
    | with_reducible assumption | with_reducible intro _ | with_reducible apply State.setPort_keeps
    | with_reducible apply State.attachPorts_keeps | with_reducible apply Keeps.ite
    | with_reducible apply Keeps.foldl)

theorem State.trainStacks_keeps {s0 : State} (s : State) (b : BringUp) (hk : Keeps s0 s) :
    Keeps s0 (State.trainStacks s b) := by
  unfold State.trainStacks
  try extract_lets
  repeat' (first
    | with_reducible assumption | with_reducible intro _ | with_reducible apply State.setStack_keeps
    | with_reducible apply State.onPanel_keeps | with_reducible apply State.retireStack_keeps
    | with_reducible apply Keeps.foldl)

theorem State.lockCulverts_keeps {s0 : State} (s : State) (dead : List (Site × BitVec 3 × BitVec 3)) (hk : Keeps s0 s) :
    Keeps s0 (State.lockCulverts s dead) := by
  unfold State.lockCulverts
  try extract_lets
  repeat' (first
    | with_reducible assumption | with_reducible intro _ | with_reducible apply State.lockSite_keeps
    | with_reducible apply Keeps.foldl)

theorem State.testRetire_keeps {s0 : State} (s : State) (c : CoreRef) (hk : Keeps s0 s) :
    Keeps s0 (State.testRetire s c) := by
  unfold State.testRetire
  try extract_lets
  repeat' (first
    | with_reducible assumption | with_reducible apply State.onPanel_keeps
    | with_reducible apply State.retireUnit_keeps | with_reducible apply Keeps.ite | split)

theorem State.msdFail_keeps {s0 : State} (s : State) (m : Nat) (hk : Keeps s0 s) :
    Keeps s0 (State.msdFail s m) := by
  unfold State.msdFail
  try extract_lets
  repeat' (first
    | with_reducible assumption | with_reducible intro _ | with_reducible apply State.setMsd_keeps
    | with_reducible apply State.retireStack_keeps | with_reducible apply State.groupDown_keeps
    | with_reducible apply State.setCulvert_keeps | with_reducible apply Keeps.ite | with_reducible apply Keeps.foldl)

theorem State.runTests_keeps {s0 : State} (s : State) (b : BringUp) (hk : Keeps s0 s) :
    Keeps s0 (State.runTests s b) := by
  unfold State.runTests
  try extract_lets
  repeat' (first
    | with_reducible assumption | with_reducible intro _ | with_reducible apply State.testRetire_keeps
    | with_reducible apply State.onPanel_keeps | with_reducible apply State.onDie_keeps
    | with_reducible apply State.setMsd_keeps | with_reducible apply State.msdFail_keeps
    | with_reducible apply Keeps.ite | with_reducible apply Keeps.foldl | split)

theorem State.bootReady_keeps {s0 : State} (s : State) (b : BringUp) (hk : Keeps s0 s) :
    Keeps s0 (State.bootReady s b) := by
  unfold State.bootReady
  try extract_lets
  repeat' (first
    | with_reducible assumption | with_reducible apply State.setClocks_keeps
    | with_reducible apply State.onPanel_keeps | with_reducible refine Keeps.mk ?_ rfl rfl rfl)

theorem State.bootPanel_keeps {s0 : State} (s : State) (b : BringUp) (k : BootKind) (hk : Keeps s0 s) :
    Keeps s0 (State.bootPanel s b k) := by
  unfold State.bootPanel
  try extract_lets
  repeat' (first
    | with_reducible assumption | with_reducible apply State.wakeDies_keeps
    | with_reducible apply State.wakeUnits_keeps | with_reducible apply State.settleSensors_keeps
    | with_reducible apply State.buildRows_keeps | with_reducible apply State.phasesFromFlash_keeps
    | with_reducible apply State.diesFromFlash_keeps | with_reducible apply State.settleRows_keeps
    | with_reducible apply State.trainWeirs_keeps | with_reducible apply State.settleRetirements_keeps
    | with_reducible apply State.retireSilent_keeps | with_reducible apply State.foundAll_keeps
    | with_reducible apply State.trainAll_keeps | with_reducible apply State.exchangeAll_keeps
    | with_reducible apply State.attachPorts_keeps | with_reducible apply State.trainPorts_keeps
    | with_reducible apply State.trainStacks_keeps | with_reducible apply State.lockCulverts_keeps
    | with_reducible apply State.runTests_keeps | with_reducible apply State.bootReady_keeps
    | with_reducible apply State.closeRecords_keeps | with_reducible apply Keeps.ite)

theorem State.bootRecovery_keeps {s0 : State} (s : State) (hk : Keeps s0 s) :
    Keeps s0 (State.bootRecovery s) := by
  unfold State.bootRecovery
  try extract_lets
  repeat' (first
    | with_reducible assumption | with_reducible apply State.onPanel_keeps)

theorem State.bootStop_keeps {s0 : State} (s : State) (hk : Keeps s0 s) :
    Keeps s0 (State.bootStop s) := by
  unfold State.bootStop
  try extract_lets
  repeat' (first
    | with_reducible assumption | with_reducible apply State.onPanel_keeps)

theorem State.warmKeys_keeps {s0 : State} (s : State) (c : Cfg) (hk : Keeps s0 s) :
    Keeps s0 (State.warmKeys s c) := by
  unfold State.warmKeys
  try extract_lets
  repeat' (first
    | with_reducible assumption | with_reducible apply State.onPanel_keeps)

theorem State.powerKeys_keeps {s0 : State} (s : State) (c : Cfg) (hk : Keeps s0 s) :
    Keeps s0 (State.powerKeys s c) := by
  unfold State.powerKeys
  try extract_lets
  repeat' (first
    | with_reducible assumption | with_reducible intro _ | with_reducible apply State.onPanel_keeps
    | with_reducible apply State.onDie_keeps | with_reducible apply State.setMsd_keeps
    | with_reducible apply Keeps.foldl)

theorem State.configure_keeps {s0 : State} (s : State) (src : BitVec 2) (c : Cfg) (power : Bool) (hk : Keeps s0 s) :
    Keeps s0 (State.configure s src c power) := by
  unfold State.configure
  try extract_lets
  repeat' (first
    | with_reducible assumption | with_reducible intro _ | with_reducible apply State.onPanel_keeps
    | with_reducible apply State.warmKeys_keeps | with_reducible apply State.powerKeys_keeps
    | with_reducible apply State.recordKind_keeps | with_reducible apply State.setHost_keeps
    | with_reducible apply Keeps.ite | with_reducible apply Keeps.foldl
    | with_reducible refine Keeps.mk ?_ rfl rfl rfl)

theorem State.bringUp_keeps {s0 : State} (s : State) (b : BringUp) (k : BootKind) (hk : Keeps s0 s) :
    Keeps s0 (State.bringUp s b k) := by
  unfold State.bringUp
  try extract_lets
  repeat' (first
    | with_reducible assumption | with_reducible apply State.bootStop_keeps
    | with_reducible apply State.bootRecovery_keeps | with_reducible apply State.configure_keeps
    | with_reducible apply State.onPanel_keeps | with_reducible apply State.bootPanel_keeps | split
    | with_reducible refine Keeps.mk ?_ rfl rfl rfl)

theorem State.coldReset_keeps {s0 : State} (s : State) (hk : Keeps s0 s) :
    Keeps s0 (State.coldReset s) := by
  exact ⟨hk.1, fun _ => rfl⟩

theorem State.coldStart_keeps {s0 : State} (s : State) (b : BringUp) (hk : Keeps s0 s) :
    Keeps s0 (State.coldStart s b) := by
  unfold State.coldStart
  try extract_lets
  repeat' (first
    | with_reducible assumption | with_reducible intro _ | with_reducible apply State.bringUp_keeps)

theorem State.coolWarnings_keeps {s0 : State} (s : State) (flow : Nat) (tin : Int) (hk : Keeps s0 s) :
    Keeps s0 (State.coolWarnings s flow tin) := by
  unfold State.coolWarnings
  try extract_lets
  repeat' (first
    | with_reducible assumption | with_reducible apply State.onPanel_keeps
    | with_reducible apply State.acceptOwn_keeps | with_reducible apply Keeps.ite)

theorem State.culvertsDown_keeps {s0 : State} (s : State) (d : Site) (hk : Keeps s0 s) :
    Keeps s0 (State.culvertsDown s d) := by
  unfold State.culvertsDown
  try extract_lets
  repeat' (first
    | with_reducible assumption | with_reducible intro _ | with_reducible apply State.groupDown_keeps
    | with_reducible apply State.setCulvert_keeps | with_reducible apply Keeps.ite | with_reducible apply Keeps.foldl)

theorem State.darken_keeps {s0 : State} (s : State) (d : Nat) (r : Nat) (hk : Keeps s0 s) :
    Keeps s0 (State.darken s d r) := by
  unfold State.darken
  try extract_lets
  repeat' (first
    | with_reducible assumption | with_reducible apply State.onPanel_keeps
    | with_reducible apply State.setRegion_keeps | with_reducible apply State.report_keeps)

theorem State.resetDies_keeps {s0 : State} (s : State) (sites : Nat → Bool) (hk : Keeps s0 s) :
    Keeps s0 (State.resetDies s sites) := by
  unfold State.resetDies
  try extract_lets
  repeat' (first
    | with_reducible assumption | with_reducible apply State.regionsOff_keeps
    | with_reducible apply State.dropScratchpads_keeps | with_reducible refine Keeps.mk ?_ rfl rfl rfl)

theorem State.ringReset_keeps {s0 : State} (s : State) (hk : Keeps s0 s) :
    Keeps s0 (State.ringReset s) := by
  unfold State.ringReset
  try extract_lets
  repeat' (first
    | with_reducible assumption | with_reducible apply State.closeBypass_keeps
    | with_reducible refine Keeps.mk ?_ rfl rfl rfl)

theorem State.exchange_keeps {s0 : State} (s : State) (k : Nat) (match_ : BitVec 4) (hk : Keeps s0 s) :
    Keeps s0 (State.exchange s k match_) := by
  unfold State.exchange
  try extract_lets
  repeat' (first
    | with_reducible assumption | with_reducible intro _ | with_reducible apply State.trainEdge_keeps
    | with_reducible apply State.retrainEdge_keeps | with_reducible apply State.tick_keeps
    | with_reducible apply State.setEdge_keeps | with_reducible apply Keeps.ite | with_reducible apply Keeps.foldl)

theorem State.dieReset_keeps {s0 : State} (s : State) (k : Nat) (match_ : BitVec 4) (hk : Keeps s0 s) :
    Keeps s0 (State.dieReset s k match_) := by
  unfold State.dieReset
  try extract_lets
  repeat' (first
    | with_reducible assumption | with_reducible intro _ | with_reducible apply State.resetDies_keeps
    | with_reducible apply State.onDie_keeps | with_reducible apply State.onCore_keeps
    | with_reducible apply State.ringReset_keeps | with_reducible apply State.tick_keeps
    | with_reducible apply State.exchange_keeps | with_reducible apply Keeps.foldl | split)

theorem State.dieThermals_keeps {s0 : State} (s : State) (d : Nat) (ok : List (List Int)) (bad : List Nat) (hk : Keeps
    s0 s) :
    Keeps s0 (State.dieThermals s d ok bad) := by
  unfold State.dieThermals
  try extract_lets
  repeat' (first
    | with_reducible assumption | with_reducible apply State.setDie_keeps | with_reducible apply State.report_keeps
    | with_reducible apply Keeps.ite)

theorem State.dropDie_keeps {s0 : State} (s : State) (d : Nat) (hk : Keeps s0 s) :
    Keeps s0 (State.dropDie s d) := by
  unfold State.dropDie
  try extract_lets
  repeat' (first
    | with_reducible assumption | with_reducible apply State.dropScratchpads_keeps)

theorem State.edgesDrop_keeps {s0 : State} (s : State) (d : Nat) (hk : Keeps s0 s) :
    Keeps s0 (State.edgesDrop s d).2 := by
  unfold State.edgesDrop
  try extract_lets
  repeat' (first
    | with_reducible assumption | with_reducible intro _ | with_reducible apply State.edgeDrop_keeps
    | with_reducible apply Keeps.foldlSnd | split)

theorem State.leveeReset_keeps {s0 : State} (s : State) (n : Nat) (hk : Keeps s0 s) :
    Keeps s0 (State.leveeReset s n) := by
  unfold State.leveeReset
  try extract_lets
  repeat' (first
    | with_reducible assumption | with_reducible apply State.resetDies_keeps
    | with_reducible apply State.ringReset_keeps | with_reducible apply State.onPart_keeps
    | with_reducible refine Keeps.mk ?_ rfl rfl rfl)

theorem State.endLevee_keeps {s0 : State} (s : State) (n : Nat) (h : Cmd) (hk : Keeps s0 s) :
    Keeps s0 (State.endLevee s n h) := by
  unfold State.endLevee
  try extract_lets
  repeat' (first
    | with_reducible assumption | with_reducible apply State.answer_keeps
    | with_reducible apply State.closeRecords_keeps | with_reducible apply State.onPart_keeps
    | with_reducible apply State.leveeReset_keeps)

theorem State.flushLife_keeps {s0 : State} (s : State) (hk : Keeps s0 s) :
    Keeps s0 (State.flushLife s) := by
  unfold State.flushLife
  try extract_lets
  repeat' (first
    | with_reducible assumption | with_reducible refine Keeps.mk ?_ rfl rfl rfl)

theorem State.enterStandby_keeps {s0 : State} (s : State) (hk : Keeps s0 s) :
    Keeps s0 (State.enterStandby s) := by
  have h1 : Keeps s0 ((((s.flushLife).setClocks false).regionsOff fun _ => true).onPanel
      fun p => { p with pstate := .standby }) :=
    State.onPanel_keeps _ _ (State.regionsOff_keeps _ _ (State.setClocks_keeps _ _ (State.flushLife_keeps _ hk)))
  exact ⟨h1.1, fun w => (memWf_iff _).2 ⟨rfl, ((memWf_iff _).1 (h1.2 w)).2⟩⟩

theorem State.failWeir_keeps {s0 : State} (s : State) (d : Site) (hk : Keeps s0 s) :
    Keeps s0 (State.failWeir s d) := by
  unfold State.failWeir
  try extract_lets
  repeat' (first
    | with_reducible assumption | with_reducible apply State.weirFailed_keeps
    | with_reducible apply State.edgeDrop_keeps | with_reducible apply State.reportParts_keeps
    | with_reducible apply State.report_keeps | split)

theorem State.shutDown_keeps {s0 : State} (s : State) (hk : Keeps s0 s) :
    Keeps s0 (State.shutDown s) := by
  unfold State.shutDown
  try extract_lets
  repeat' (first
    | with_reducible assumption | with_reducible apply State.onPanel_keeps
    | with_reducible apply State.regionsOff_keeps | with_reducible apply State.setClocks_keeps)

theorem State.fastStop_keeps {s0 : State} (s : State) (unit : Nat) (site : BitVec 16) (hk : Keeps s0 s) :
    Keeps s0 (State.fastStop s unit site) := by
  unfold State.fastStop
  try extract_lets
  repeat' (first
    | with_reducible assumption | with_reducible apply State.shutDown_keeps
    | with_reducible apply State.onPanel_keeps | with_reducible apply State.acceptOwn_keeps
    | with_reducible apply Keeps.ite)

theorem finishReset_keeps {s0 : State} (s : State) (x1 : ResetJob) (hk : Keeps s0 s) :
    Keeps s0 (finishReset s x1) := by
  unfold finishReset
  try extract_lets
  repeat' (first
    | with_reducible assumption | with_reducible apply State.endLevee_keeps | with_reducible apply State.answer_keeps
    | with_reducible apply State.dieReset_keeps | split)

theorem State.idle_keeps {s0 : State} (s : State) (hk : Keeps s0 s) :
    Keeps s0 (State.idle s) := by
  unfold State.idle
  try extract_lets
  repeat' (first
    | with_reducible assumption | with_reducible apply finishReset_keeps | split
    | with_reducible refine Keeps.mk ?_ rfl rfl rfl)

theorem State.iodFail_keeps {s0 : State} (s : State) (i : Nat) (hk : Keeps s0 s) :
    Keeps s0 (State.iodFail s i) := by
  unfold State.iodFail
  try extract_lets
  repeat' (first
    | with_reducible assumption | with_reducible intro _ | with_reducible apply State.portFail_keeps
    | with_reducible apply Keeps.ite | with_reducible apply Keeps.foldl)

theorem State.letRamp_keeps {s0 : State} (s : State) (d : Nat) (r : Nat) (hk : Keeps s0 s) :
    Keeps s0 (State.letRamp s d r) := by
  unfold State.letRamp
  try extract_lets
  repeat' (first
    | with_reducible assumption | with_reducible apply State.setRegion_keeps | with_reducible apply Keeps.ite)

theorem State.moveTo_keeps {s0 : State} (s : State) (h : Cmd) (target : Nat) (hk : Keeps s0 s) :
    KeepsM s0 (State.moveTo s h target) := by
  unfold State.moveTo
  try extract_lets
  repeat' (first
    | with_reducible assumption | with_reducible apply State.answer_keeps
    | with_reducible apply State.leaveIdle_keeps | with_reducible apply State.onPanel_keeps
    | with_reducible apply State.coldStart_keeps | with_reducible apply State.coldReset_keeps
    | with_reducible apply State.setClocks_keeps | with_reducible apply State.gatePanel_keeps
    | with_reducible apply State.enterStandby_keeps | with_reducible apply KeepsM.ofSome
    | with_reducible apply KeepsM.ofNone | split)

theorem State.orderlyStop_keeps {s0 : State} (s : State) (hk : Keeps s0 s) :
    Keeps s0 (State.orderlyStop s) := by
  unfold State.orderlyStop
  try extract_lets
  repeat' (first
    | with_reducible assumption | with_reducible apply State.flushLife_keeps
    | with_reducible apply State.onPanel_keeps | with_reducible apply State.acceptOwn_keeps
    | with_reducible apply Keeps.ite)

theorem State.powerReset_keeps {s0 : State} (s : State) (hk : Keeps s0 s) :
    Keeps s0 (State.powerReset s) := by
  exact ⟨hk.1, fun _ => rfl⟩

theorem State.regionReady_keeps {s0 : State} (s : State) (d : Nat) (r : Nat) (hk : Keeps s0 s) :
    Keeps s0 (State.regionReady s d r) := by
  unfold State.regionReady
  try extract_lets
  repeat' (first
    | with_reducible assumption | with_reducible apply State.tryFinish_keeps
    | with_reducible apply State.startZeroise_keeps | with_reducible apply Keeps.foldl | split)

theorem State.stepBudgetCaps_keeps {s0 : State} (s : State) (avgPower : Nat) (hk : Keeps s0 s) :
    Keeps s0 (State.stepBudgetCaps s avgPower) := by
  unfold State.stepBudgetCaps
  try extract_lets
  repeat' (first
    | with_reducible assumption | with_reducible refine Keeps.mk ?_ rfl rfl rfl)

theorem State.tellSpread_keeps {s0 : State} (s : State) (u : UnitRef) (h : Nat) (hk : Keeps s0 s) :
    Keeps s0 (State.tellSpread s u h) := by
  unfold State.tellSpread
  try extract_lets
  repeat' (first
    | with_reducible assumption | with_reducible apply State.report_keeps | with_reducible apply State.onPanel_keeps
    | with_reducible apply Keeps.ite)

theorem State.throttleMsd_keeps {s0 : State} (s : State) (m : Nat) (hk : Keeps s0 s) :
    Keeps s0 (State.throttleMsd s m) := by
  unfold State.throttleMsd
  try extract_lets
  repeat' (first
    | with_reducible assumption | with_reducible apply State.setMsd_keeps)

theorem State.transitFail_keeps {s0 : State} (s : State) (d : Nat) (source : BitVec 16) (reg : Reg64) (hk : Keeps s0 s)
    :
    Keeps s0 (State.transitFail s d source reg) := by
  unfold State.transitFail
  try extract_lets
  repeat' (first
    | with_reducible assumption | with_reducible apply State.edgesDrop_keeps | with_reducible apply State.onDie_keeps
    | with_reducible apply State.reportParts_keeps)

theorem State.tripAlone_keeps {s0 : State} (s : State) (u : UnitRef) (spot : BitVec 5) (which : BitVec 2) (temp : Int)
    (a : Int) (b : Int) (hk : Keeps s0 s) :
    Keeps s0 (State.tripAlone s u spot which temp a b) := by
  unfold State.tripAlone
  try extract_lets
  repeat' (first
    | with_reducible assumption | with_reducible apply Keeps.ite | with_reducible refine Keeps.mk ?_ rfl rfl rfl)

theorem State.warmReset_keeps {s0 : State} (s : State) (hk : Keeps s0 s) :
    Keeps s0 (State.warmReset s) := by
  exact ⟨hk.1, fun w => (memWf_iff _).2 ⟨rfl, ((memWf_iff _).1 (hk.2 w)).2⟩⟩

theorem execPartReset_keeps {s0 : State} (h : Cmd) (s : State) (hk : Keeps s0 s) :
    KeepsO s0 (execPartReset h s) := by
  unfold execPartReset
  try extract_lets
  repeat' (first
    | with_reducible assumption | with_reducible intro _ | with_reducible apply command_keeps
    | with_reducible apply State.hostAbort_keeps | with_reducible apply State.beginLevee_keeps
    | with_reducible apply State.dropLoads_keeps | with_reducible apply KeepsO.refused
    | with_reducible apply Keeps.ite)

theorem execPowerRead_keeps {s0 : State} (h : Cmd) (addr : Reg64) (len : Word) (s : State) (hk : Keeps s0 s) :
    KeepsO s0 (execPowerRead h addr len s) := by
  unfold execPowerRead
  try extract_lets
  repeat' (first
    | with_reducible assumption | with_reducible intro _ | with_reducible apply command_keeps
    | with_reducible apply State.deliver_keeps)

theorem execPowerLimit_keeps {s0 : State} (h : Cmd) (limit : BitVec 16) (s : State) (hk : Keeps s0 s) :
    KeepsO s0 (execPowerLimit h limit s) := by
  unfold execPowerLimit
  try extract_lets
  repeat' (first
    | with_reducible assumption | with_reducible intro _ | with_reducible apply command_keeps
    | with_reducible apply State.answer_keeps | with_reducible apply State.onPanel_keeps)

theorem execPowerMode_keeps {s0 : State} (h : Cmd) (target : BitVec 8) (s : State) (hk : Keeps s0 s) :
    KeepsO s0 (execPowerMode h target s) := by
  unfold execPowerMode
  try extract_lets
  repeat' (first
    | with_reducible assumption | with_reducible intro _ | with_reducible apply command_keeps
    | with_reducible apply State.moveTo_keeps | with_reducible apply KeepsM.getD)

theorem execThermalRead_keeps {s0 : State} (h : Cmd) (addr : Reg64) (len : Word) (s : State) (hk : Keeps s0 s) :
    KeepsO s0 (execThermalRead h addr len s) := by
  unfold execThermalRead
  try extract_lets
  repeat' (first
    | with_reducible assumption | with_reducible intro _ | with_reducible apply command_keeps
    | with_reducible apply State.deliver_keeps)

theorem execLifeRead_keeps {s0 : State} (h : Cmd) (addr : Reg64) (len : Word) (s : State) (hk : Keeps s0 s) :
    KeepsO s0 (execLifeRead h addr len s) := by
  unfold execLifeRead
  try extract_lets
  repeat' (first
    | with_reducible assumption | with_reducible intro _ | with_reducible apply command_keeps
    | with_reducible apply State.deliver_keeps)

theorem execRailFault_keeps {s0 : State} (millivolts : BitVec 12) (s : State) (hk : Keeps s0 s) :
    KeepsO s0 (execRailFault millivolts s) := by
  unfold execRailFault
  try extract_lets
  repeat' (first
    | with_reducible assumption | with_reducible apply State.shutDown_keeps
    | with_reducible apply State.onPanel_keeps | with_reducible apply State.acceptOwn_keeps
    | with_reducible apply KeepsO.ite | with_reducible apply KeepsO.next)

theorem execRailOutOfTolerance_keeps {s0 : State} (s : State) (hk : Keeps s0 s) :
    KeepsO s0 (execRailOutOfTolerance s) := by
  unfold execRailOutOfTolerance
  try extract_lets
  repeat' (first
    | with_reducible assumption | with_reducible apply State.acceptOwn_keeps
    | with_reducible apply State.onPanel_keeps | with_reducible apply KeepsO.next)

theorem execRailToleranceRestored_keeps {s0 : State} (s : State) (hk : Keeps s0 s) :
    KeepsO s0 (execRailToleranceRestored s) := by
  unfold execRailToleranceRestored
  try extract_lets
  repeat' (first
    | with_reducible assumption | with_reducible apply State.onPanel_keeps | with_reducible apply KeepsO.next)

theorem execStandbyLow_keeps {s0 : State} (s : State) (hk : Keeps s0 s) :
    KeepsO s0 (execStandbyLow s) := by
  unfold execStandbyLow
  try extract_lets
  repeat' (first
    | with_reducible assumption | with_reducible apply KeepsO.next | with_reducible refine Keeps.mk ?_ rfl rfl rfl)

theorem regionEvent_keeps {s0 : State} (d : Site) (region : BitVec 6) (s : State) (body : State → Nat → Nat → Region →
    State) (hk : Keeps s0 s) (hb : ∀ (t : State) (y1 : Nat) (y2 : Nat) (y3 : Region), Keeps s0 t → Keeps s0 (body t y1
    y2 y3)) :
    KeepsO s0 (regionEvent d region s body) := by
  unfold regionEvent
  try extract_lets
  repeat' (first
    | with_reducible assumption | with_reducible intro _ | with_reducible apply siteEvent_keeps
    | (refine hb _ _ _ _ ?_))

theorem execRegulatorNoticeStep_keeps {s0 : State} (d : Site) (region : BitVec 6) (phase : NoticePhase) (s : State) (hk
    : Keeps s0 s) :
    KeepsO s0 (execRegulatorNoticeStep d region phase s) := by
  unfold execRegulatorNoticeStep
  try extract_lets
  repeat' (first
    | with_reducible assumption | with_reducible intro _ | with_reducible apply regionEvent_keeps
    | with_reducible apply State.setRegion_keeps | split)

theorem execUnannouncedStep_keeps {s0 : State} (d : Site) (region : BitVec 6) (inMs : BitVec 16) (s : State) (hk :
    Keeps s0 s) :
    KeepsO s0 (execUnannouncedStep d region inMs s) := by
  unfold execUnannouncedStep
  try extract_lets
  repeat' (first
    | with_reducible assumption | with_reducible intro _ | with_reducible apply regionEvent_keeps
    | with_reducible apply State.onDie_keeps | with_reducible apply State.setRegion_keeps
    | with_reducible apply Keeps.ite)

theorem execRegionWave_keeps {s0 : State} (s : State) (hk : Keeps s0 s) :
    KeepsO s0 (execRegionWave s) := by
  unfold execRegionWave
  try extract_lets
  repeat' (first
    | with_reducible assumption | with_reducible intro _ | with_reducible apply State.setRegion_keeps
    | with_reducible apply State.onPanel_keeps | with_reducible apply KeepsO.ite | with_reducible apply KeepsO.next
    | with_reducible apply Keeps.foldl)

theorem execRegionAdmit_keeps {s0 : State} (d : Site) (region : BitVec 6) (avgPower : BitVec 16) (admitted : BitVec 16)
    (s : State) (hk : Keeps s0 s) :
    KeepsO s0 (execRegionAdmit d region avgPower admitted s) := by
  unfold execRegionAdmit
  try extract_lets
  repeat' (first
    | with_reducible assumption | with_reducible intro _ | with_reducible apply regionEvent_keeps
    | with_reducible apply State.onDie_keeps | with_reducible apply State.letRamp_keeps
    | with_reducible apply Keeps.ite)

theorem execNeighbourWaitExpire_keeps {s0 : State} (d : Site) (region : BitVec 6) (s : State) (hk : Keeps s0 s) :
    KeepsO s0 (execNeighbourWaitExpire d region s) := by
  unfold execNeighbourWaitExpire
  try extract_lets
  repeat' (first
    | with_reducible assumption | with_reducible intro _ | with_reducible apply regionEvent_keeps
    | with_reducible apply State.setRegion_keeps | with_reducible apply Keeps.ite)

theorem execAdmissionTimeout_keeps {s0 : State} (part : BitVec 4) (s : State) (hk : Keeps s0 s) :
    KeepsO s0 (execAdmissionTimeout part s) := by
  unfold execAdmissionTimeout
  try extract_lets
  repeat' (first
    | with_reducible assumption | with_reducible apply State.failLoad_keeps | with_reducible apply KeepsO.ite
    | with_reducible apply KeepsO.next)

theorem execBudgetCapTick_keeps {s0 : State} (avgPower : BitVec 16) (s : State) (hk : Keeps s0 s) :
    KeepsO s0 (execBudgetCapTick avgPower s) := by
  unfold execBudgetCapTick
  try extract_lets
  repeat' (first
    | with_reducible assumption | with_reducible apply State.onPanel_keeps | with_reducible apply State.tick_keeps
    | with_reducible apply State.stepBudgetCaps_keeps | with_reducible apply KeepsO.next)

theorem execVoltageAdaptTick_keeps {s0 : State} (d : Site) (region : BitVec 6) (fullDuty : Bool) (stretched : BitVec
    16) (allGreen : Bool) (s : State) (hk : Keeps s0 s) :
    KeepsO s0 (execVoltageAdaptTick d region fullDuty stretched allGreen s) := by
  unfold execVoltageAdaptTick
  try extract_lets
  repeat' (first
    | with_reducible assumption | with_reducible intro _ | with_reducible apply regionEvent_keeps
    | with_reducible apply State.setRegion_keeps | with_reducible apply Keeps.ite)

theorem execPhaseLoss_keeps {s0 : State} (d : Site) (region : BitVec 6) (phase : BitVec 3) (draw : BitVec 12) (s :
    State) (hk : Keeps s0 s) :
    KeepsO s0 (execPhaseLoss d region phase draw s) := by
  unfold execPhaseLoss
  try extract_lets
  repeat' (first
    | with_reducible assumption | with_reducible intro _ | with_reducible apply regionEvent_keeps
    | with_reducible apply State.setRegion_keeps | with_reducible apply State.report_keeps
    | with_reducible apply State.darken_keeps | with_reducible apply Keeps.ite
    | with_reducible refine Keeps.mk ?_ rfl rfl rfl)

theorem execLogicRailFail_keeps {s0 : State} (d : Site) (s : State) (hk : Keeps s0 s) :
    KeepsO s0 (execLogicRailFail d s) := by
  unfold execLogicRailFail
  try extract_lets
  repeat' (first
    | with_reducible assumption | with_reducible intro _ | with_reducible apply siteEvent_keeps
    | with_reducible apply State.onDie_keeps | with_reducible apply State.setRegion_keeps
    | with_reducible apply State.regionsOff_keeps | with_reducible apply State.report_keeps
    | with_reducible apply State.darken_keeps | with_reducible apply Keeps.ite | with_reducible apply Keeps.foldl)

theorem execSensorSample_keeps {s0 : State} (u : UnitRef) (readings : List (Int × Int × Int)) (s : State) (hk : Keeps
    s0 s) :
    KeepsO s0 (execSensorSample u readings s) := by
  unfold execSensorSample
  try extract_lets
  repeat' (first
    | with_reducible assumption | with_reducible intro _ | with_reducible apply State.onPanel_keeps
    | with_reducible apply State.tellSpread_keeps | with_reducible apply State.dieThermals_keeps
    | with_reducible apply State.throttleMsd_keeps | with_reducible apply KeepsO.ite
    | with_reducible apply KeepsO.next | with_reducible apply KeepsO.fault | with_reducible apply Keeps.ite
    | with_reducible apply Keeps.foldl)

theorem execThermalCapTick_keeps {s0 : State} (d : Site) (s : State) (hk : Keeps s0 s) :
    KeepsO s0 (execThermalCapTick d s) := by
  unfold execThermalCapTick
  try extract_lets
  repeat' (first
    | with_reducible assumption | with_reducible intro _ | with_reducible apply siteEvent_keeps
    | with_reducible apply State.setRegion_keeps | with_reducible apply State.onDie_keeps
    | with_reducible apply Keeps.foldl)

theorem execRunLimitExpire_keeps {s0 : State} (u : UnitRef) (spot : BitVec 5) (s : State) (hk : Keeps s0 s) :
    KeepsO s0 (execRunLimitExpire u spot s) := by
  unfold execRunLimitExpire
  try extract_lets
  repeat' (first
    | with_reducible assumption | with_reducible apply State.orderlyStop_keeps | with_reducible apply KeepsO.ite
    | with_reducible apply KeepsO.next | with_reducible apply KeepsO.fault)

theorem execCoolantSample_keeps {s0 : State} (flow : BitVec 16) (tin : Int) (tout : Int) (flowBefore : BitVec 16)
    (toutBefore : Int) (s : State) (hk : Keeps s0 s) :
    KeepsO s0 (execCoolantSample flow tin tout flowBefore toutBefore s) := by
  unfold execCoolantSample
  try extract_lets
  repeat' (first
    | with_reducible assumption | with_reducible apply State.throttleMsd_keeps
    | with_reducible apply State.onPanel_keeps | with_reducible apply State.fastStop_keeps
    | with_reducible apply State.orderlyStop_keeps | with_reducible apply State.coolWarnings_keeps
    | with_reducible apply KeepsO.ite | with_reducible apply KeepsO.next | with_reducible apply Keeps.foldl)

theorem execOrderlyStopStandby_keeps {s0 : State} (s : State) (hk : Keeps s0 s) :
    KeepsO s0 (execOrderlyStopStandby s) := by
  unfold execOrderlyStopStandby
  try extract_lets
  repeat' (first
    | with_reducible assumption | with_reducible apply State.enterStandby_keeps | with_reducible apply KeepsO.ite
    | with_reducible apply KeepsO.next)

theorem execFastStop_keeps {s0 : State} (cause : TripCause) (s : State) (hk : Keeps s0 s) :
    KeepsO s0 (execFastStop cause s) := by
  unfold execFastStop
  try extract_lets
  repeat' (first
    | with_reducible assumption | with_reducible apply State.fastStop_keeps
    | with_reducible apply State.tripAlone_keeps | with_reducible apply KeepsO.next
    | with_reducible apply KeepsO.fault | split)

theorem execThermalCycleSample_keeps {s0 : State} (u : UnitRef) (temp : Int) (s : State) (hk : Keeps s0 s) :
    KeepsO s0 (execThermalCycleSample u temp s) := by
  unfold execThermalCycleSample
  try extract_lets
  repeat' (first
    | with_reducible assumption | with_reducible apply KeepsO.ite | with_reducible apply KeepsO.next
    | with_reducible apply KeepsO.fault | with_reducible refine Keeps.mk ?_ rfl rfl rfl)

theorem execThermalCountFlush_keeps {s0 : State} (s : State) (hk : Keeps s0 s) :
    KeepsO s0 (execThermalCountFlush s) := by
  unfold execThermalCountFlush
  try extract_lets
  repeat' (first
    | with_reducible assumption | with_reducible apply State.flushLife_keeps | with_reducible apply KeepsO.next)

theorem execPowerOn_keeps {s0 : State} (b : BringUp) (s : State) (hk : Keeps s0 s) :
    KeepsO s0 (execPowerOn b s) := by
  unfold execPowerOn
  try extract_lets
  repeat' (first
    | with_reducible assumption | with_reducible apply State.powerReset_keeps
    | with_reducible apply State.coldStart_keeps | with_reducible apply KeepsO.ite | with_reducible apply KeepsO.next)

theorem execPanelRstN_keeps {s0 : State} (s : State) (hk : Keeps s0 s) :
    KeepsO s0 (execPanelRstN s) := by
  unfold execPanelRstN
  try extract_lets
  repeat' (first
    | with_reducible assumption | with_reducible apply State.powerReset_keeps
    | with_reducible apply State.coldReset_keeps | with_reducible apply State.onPanel_keeps
    | with_reducible apply KeepsO.next | with_reducible apply Keeps.ite)

theorem execPanelRstNRelease_keeps {s0 : State} (b : BringUp) (s : State) (hk : Keeps s0 s) :
    KeepsO s0 (execPanelRstNRelease b s) := by
  unfold execPanelRstNRelease
  try extract_lets
  repeat' (first
    | with_reducible assumption | with_reducible apply State.onPanel_keeps
    | with_reducible apply State.coldStart_keeps | with_reducible apply KeepsO.ite | with_reducible apply KeepsO.next
    | with_reducible apply Keeps.ite)

theorem execPanelResetWarm_keeps {s0 : State} (h : Cmd) (b : BringUp) (s : State) (hk : Keeps s0 s) :
    KeepsO s0 (execPanelResetWarm h b s) := by
  unfold execPanelResetWarm
  try extract_lets
  repeat' (first
    | with_reducible assumption | with_reducible intro _ | with_reducible apply command_keeps
    | with_reducible apply State.bringUp_keeps | with_reducible apply State.warmReset_keeps
    | with_reducible apply KeepsO.ite | with_reducible apply KeepsO.next | with_reducible apply KeepsO.fault
    | with_reducible apply KeepsO.refused | with_reducible apply Keeps.ite)

theorem execPanelResetCold_keeps {s0 : State} (h : Cmd) (b : BringUp) (s : State) (hk : Keeps s0 s) :
    KeepsO s0 (execPanelResetCold h b s) := by
  unfold execPanelResetCold
  try extract_lets
  repeat' (first
    | with_reducible assumption | with_reducible intro _ | with_reducible apply command_keeps
    | with_reducible apply State.coldStart_keeps | with_reducible apply State.coldReset_keeps
    | with_reducible apply Keeps.ite)

theorem execDieResetDie_keeps {s0 : State} (h : Cmd) (d : Site) (digestsMatch : BitVec 4) (s : State) (hk : Keeps s0 s)
    :
    KeepsO s0 (execDieResetDie h d digestsMatch s) := by
  unfold execDieResetDie
  try extract_lets
  repeat' (first
    | with_reducible assumption | with_reducible intro _ | with_reducible apply command_keeps
    | with_reducible apply State.onDie_keeps | with_reducible refine Keeps.mk ?_ rfl rfl rfl)

theorem execDieResetCore_keeps {s0 : State} (h : Cmd) (d : Site) (index : BitVec 16) (s : State) (hk : Keeps s0 s) :
    KeepsO s0 (execDieResetCore h d index s) := by
  unfold execDieResetCore
  try extract_lets
  repeat' (first
    | with_reducible assumption | with_reducible intro _ | with_reducible apply command_keeps
    | with_reducible apply State.answer_keeps | with_reducible apply State.resetCores_keeps)

theorem execRegionRampDone_keeps {s0 : State} (d : Site) (region : BitVec 6) (s : State) (hk : Keeps s0 s) :
    KeepsO s0 (execRegionRampDone d region s) := by
  unfold execRegionRampDone
  try extract_lets
  repeat' (first
    | with_reducible assumption | with_reducible intro _ | with_reducible apply regionEvent_keeps
    | with_reducible apply State.onDie_keeps | with_reducible apply State.onPanel_keeps
    | with_reducible apply State.regionReady_keeps | with_reducible apply State.setRegion_keeps
    | with_reducible apply State.darken_keeps | with_reducible apply Keeps.ite)

theorem execRailTransferComplete_keeps {s0 : State} (d : Site) (region : BitVec 6) (s : State) (hk : Keeps s0 s) :
    KeepsO s0 (execRailTransferComplete d region s) := by
  unfold execRailTransferComplete
  try extract_lets
  repeat' (first
    | with_reducible assumption | with_reducible intro _ | with_reducible apply regionEvent_keeps
    | with_reducible apply State.setRegion_keeps)

theorem execStackRailFail_keeps {s0 : State} (d : Site) (rail : StackRail) (s : State) (hk : Keeps s0 s) :
    KeepsO s0 (execStackRailFail d rail s) := by
  unfold execStackRailFail
  try extract_lets
  repeat' (first
    | with_reducible assumption | with_reducible intro _ | with_reducible apply siteEvent_keeps
    | with_reducible apply State.transitFail_keeps | with_reducible apply State.dropDie_keeps
    | with_reducible apply State.report_keeps | with_reducible apply State.edgesDrop_keeps
    | with_reducible apply State.failWeir_keeps | with_reducible apply State.culvertsDown_keeps
    | with_reducible apply State.reportParts_keeps | split)

theorem execDieWideRailFail_keeps {s0 : State} (u : UnitRef) (s : State) (hk : Keeps s0 s) :
    KeepsO s0 (execDieWideRailFail u s) := by
  unfold execDieWideRailFail
  try extract_lets
  repeat' (first
    | with_reducible assumption | with_reducible apply State.onPanel_keeps | with_reducible apply State.msdFail_keeps
    | with_reducible apply State.iodFail_keeps | with_reducible apply KeepsO.ite | with_reducible apply KeepsO.next
    | with_reducible apply KeepsO.fault | with_reducible apply Keeps.ite)

end Sys2Proof.Machine
end

