-- ==== Sys2Proof/Laws/KeepsCommands.lean ====
section
/-!
SUPPORT. Each operation of the model keeps the waiting commands and the canonical memories (`Keeps`), one lemma each:
the panel commands, flumes, updates and the clock.
-/

namespace Sys2Proof.Machine

theorem State.checkRange_keeps {s0 : State} (s : State) (owner : Nat) (a : Nat) (len : Nat) (hk : Keeps s0 s) :
    Keeps s0 (State.checkRange s owner a len).1 := by
  unfold State.checkRange
  try extract_lets
  repeat' (first
    | with_reducible assumption | with_reducible intro _ | with_reducible apply checkBlock_keeps
    | with_reducible apply Keeps.foldlFst | split)

theorem State.stopFlume_keeps {s0 : State} (s : State) (c : CoreRef) (part : BitVec 4) (flume : BitVec 12) (hk : Keeps
    s0 s) :
    Keeps s0 (State.stopFlume s c part flume) := by
  unfold State.stopFlume
  try extract_lets
  repeat' (first
    | with_reducible assumption | with_reducible apply State.report_keeps
    | with_reducible refine Keeps.mk ?_ rfl rfl rfl)

theorem State.toPath_keeps {s0 : State} (s : State) (c : CoreRef) (part : BitVec 4) (flume : BitVec 12) (fs : List
    FlumeFlit) (hk : Keeps s0 s) :
    KeepsM s0 (State.toPath s c part flume fs) := by
  unfold State.toPath
  try extract_lets
  repeat' (first
    | with_reducible assumption | with_reducible apply State.setRouter_keeps | with_reducible apply KeepsM.ofSome
    | with_reducible apply KeepsM.ofNone | split)

theorem State.toNext_keeps {s0 : State} (s : State) (c : CoreRef) (part : BitVec 4) (flume : BitVec 12) (e : Nat) (fs :
    List FlumeFlit) (hk : Keeps s0 s) :
    KeepsM s0 (State.toNext s c part flume e fs) := by
  unfold State.toNext
  try extract_lets
  repeat' (first
    | with_reducible assumption | with_reducible apply State.toPath_keeps | with_reducible apply KeepsM.ite
    | with_reducible apply KeepsM.ofSome | with_reducible apply KeepsM.ofNone
    | with_reducible refine Keeps.mk ?_ rfl rfl rfl)

theorem State.combine_keeps {s0 : State} (s : State) (c : CoreRef) (k : Core) (ep : BitVec 3) (e : Nat) (mismatch :
    Bool) (hk : Keeps s0 s) :
    Keeps s0 (State.combine s c k ep e mismatch) := by
  unfold State.combine
  try extract_lets
  repeat' (first
    | with_reducible assumption | with_reducible apply State.stopFlume_keeps
    | with_reducible apply State.toNext_keeps | with_reducible apply State.setCore_keeps
    | with_reducible apply KeepsM.getD | extract_lets | split)

theorem State.cutHost_keeps {s0 : State} (s : State) (host : Bool) (hk : Keeps s0 s) :
    Keeps s0 (State.cutHost s host) := by
  unfold State.cutHost
  try extract_lets
  repeat' (first
    | with_reducible assumption | with_reducible apply State.setHost_keeps | with_reducible apply State.mute_keeps
    | with_reducible refine Keeps.mk ?_ rfl rfl rfl)

theorem State.takeBlock_keeps {s0 : State} (s : State) (n : Nat) (b : Nat) (tag : Nat) (hk : Keeps s0 s) :
    Keeps s0 (State.takeBlock s n b tag) := by
  unfold State.takeBlock
  try extract_lets
  repeat' (first
    | with_reducible assumption | with_reducible apply State.store_keeps | split
    | with_reducible refine Keeps.mk ?_ rfl rfl rfl | with_reducible refine Keeps.mkDrop ?_ rfl _ rfl rfl)

theorem State.decodeUnit_keeps {s0 : State} (s : State) (n : Nat) (u : Nat) (hk : Keeps s0 s) :
    Keeps s0 (State.decodeUnit s n u) := by
  unfold State.decodeUnit
  try extract_lets
  repeat' (first
    | with_reducible assumption | with_reducible intro _ | with_reducible apply State.takeBlock_keeps
    | with_reducible apply Keeps.foldl | split | with_reducible refine Keeps.mk ?_ rfl rfl rfl)

theorem State.refuseRaw_keeps {s0 : State} (s : State) (h : Cmd) (b : List Byte) (hk : Keeps s0 s) :
    Keeps s0 (State.refuseRaw s h b) := by
  unfold State.refuseRaw
  try extract_lets
  repeat' (first
    | with_reducible assumption | with_reducible apply State.answer_keeps | split)

theorem State.fetchSome_keeps {s0 : State} (s : State) (host : Bool) (queue : BitVec 4) (x3 : Nat) (hk : Keeps s0 s) :
    Keeps s0 (State.fetchSome s host queue x3) := by
  induction x3 generalizing s with
  | zero => exact hk
  | succ fuel ih =>
    unfold State.fetchSome
    try extract_lets
    repeat' (first
      | with_reducible assumption | with_reducible apply ih | with_reducible apply State.onPair_keeps
      | with_reducible apply Keeps.ite | with_reducible refine Keeps.mk ?_ rfl rfl rfl)

theorem State.flumeLand_keeps {s0 : State} (s : State) (c : CoreRef) (k : Core) (ep : BitVec 3) (e : Nat) (off : Nat)
    (fs : List FlumeFlit) (f : FlumeFlit) (hk : Keeps s0 s) :
    Keeps s0 (State.flumeLand s c k ep e off fs f) := by
  unfold State.flumeLand
  try extract_lets
  repeat' (first
    | with_reducible assumption | with_reducible apply State.landFor_keeps)

theorem State.flumeParity_keeps {s0 : State} (s : State) (c : CoreRef) (hk : Keeps s0 s) :
    Keeps s0 (State.flumeParity s c) := by
  unfold State.flumeParity
  try extract_lets
  repeat' (first
    | with_reducible assumption | with_reducible apply State.report_keeps | with_reducible apply State.onDie_keeps
    | split)

theorem State.flushReplies_keeps {s0 : State} (s : State) (host : Bool) (queue : BitVec 4) (x3 : Nat) (hk : Keeps s0 s)
    :
    Keeps s0 (State.flushReplies s host queue x3) := by
  induction x3 generalizing s with
  | zero => exact hk
  | succ fuel ih =>
    unfold State.flushReplies
    try extract_lets
    repeat' (first
      | with_reducible assumption | with_reducible apply ih | with_reducible apply State.onPair_keeps
      | with_reducible apply State.writeReply_keeps | split)

theorem State.forgetPair_keeps {s0 : State} (s : State) (host : Bool) (q : BitVec 4) (hk : Keeps s0 s) :
    Keeps s0 (State.forgetPair s host q) := by
  unfold State.forgetPair
  try extract_lets
  repeat' (first
    | with_reducible assumption | with_reducible apply State.mute_keeps | with_reducible apply State.onPair_keeps)

theorem State.linkCombine_keeps {s0 : State} (s : State) (c : CoreRef) (part : BitVec 4) (flume : BitVec 12) (e : Nat)
    (l : CollectorLink) (mismatch : Bool) (hk : Keeps s0 s) :
    Keeps s0 (State.linkCombine s c part flume e l mismatch) := by
  unfold State.linkCombine
  try extract_lets
  repeat' (first
    | with_reducible assumption | with_reducible apply State.stopFlume_keeps
    | with_reducible apply State.toPath_keeps | with_reducible apply State.pushPort_keeps
    | with_reducible apply KeepsM.getD | split | with_reducible refine Keeps.mk ?_ rfl rfl rfl)

theorem State.loseCommands_keeps {s0 : State} (s : State) (lost : List Cmd) (hk : Keeps s0 s) :
    Keeps s0 (State.loseCommands s lost) := by
  unfold State.loseCommands
  try extract_lets
  repeat' (first
    | with_reducible assumption | with_reducible intro _ | with_reducible apply State.answer_keeps
    | with_reducible apply State.mute_keeps | with_reducible apply Keeps.foldl
    | with_reducible refine Keeps.mk ?_ rfl rfl rfl)

theorem State.loseJoins_keeps {s0 : State} (s : State) (hk : Keeps s0 s) :
    Keeps s0 (State.loseJoins s) := by
  unfold State.loseJoins
  try extract_lets
  repeat' (first
    | with_reducible assumption | with_reducible intro _ | with_reducible apply State.answer_keeps
    | with_reducible apply Keeps.foldl | with_reducible refine Keeps.mk ?_ rfl rfl rfl)

theorem State.loseLoads_keeps {s0 : State} (s : State) (hk : Keeps s0 s) :
    Keeps s0 (State.loseLoads s) := by
  unfold State.loseLoads
  try extract_lets
  repeat' (first
    | with_reducible assumption | with_reducible intro _ | with_reducible apply State.answer_keeps
    | with_reducible apply State.endSteps_keeps | with_reducible apply State.onPart_keeps
    | with_reducible apply Keeps.foldl | split)

theorem State.memStore_keeps {s0 : State} (s : State) (n : Nat) (a : Nat) (bs : List Byte) (hk : Keeps s0 s) :
    Keeps s0 (State.memStore s n a bs) := by
  unfold State.memStore
  try extract_lets
  repeat' (first
    | with_reducible assumption | with_reducible intro _ | with_reducible apply State.hbmWrite_keeps
    | with_reducible apply Keeps.foldl | split)

theorem State.writeCfg_keeps {s0 : State} (s : State) (b : List Byte) (hk : Keeps s0 s) :
    Keeps s0 (State.writeCfg s b) := by
  unfold State.writeCfg
  try extract_lets
  repeat' (first
    | with_reducible assumption | with_reducible apply Keeps.ite | with_reducible refine Keeps.mk ?_ rfl rfl rfl)

theorem State.writeFirmware_keeps {s0 : State} (s : State) (fw : Firmware) (hk : Keeps s0 s) :
    Keeps s0 (State.writeFirmware s fw) := by
  unfold State.writeFirmware
  try extract_lets
  repeat' (first
    | with_reducible assumption | with_reducible refine Keeps.mk ?_ rfl rfl rfl)

theorem State.pldmWrite_keeps {s0 : State} (s : State) (image : List Byte) (hk : Keeps s0 s) :
    Keeps s0 (State.pldmWrite s image) := by
  unfold State.pldmWrite
  try extract_lets
  repeat' (first
    | with_reducible assumption | with_reducible apply State.recordKind_keeps
    | with_reducible apply State.writeCfg_keeps | with_reducible apply State.writeFirmware_keeps | split)

theorem State.readRegs_keeps {s0 : State} (s : State) (h : Cmd) (a : Nat) (host : Nat) (len : Nat) (hk : Keeps s0 s) :
    Keeps s0 (State.readRegs s h a host len) := by
  unfold State.readRegs
  try extract_lets
  repeat' (first
    | with_reducible assumption | with_reducible apply State.sampleRegs_keeps
    | with_reducible apply State.deliver_keeps)

theorem State.recover_keeps {s0 : State} (s : State) (image : List Byte) (b : BringUp) (hk : Keeps s0 s) :
    Keeps s0 (State.recover s image b) := by
  unfold State.recover
  try extract_lets
  repeat' (first
    | with_reducible assumption | with_reducible apply State.coldStart_keeps
    | with_reducible apply State.coldReset_keeps | with_reducible apply State.writeFirmware_keeps | split)

theorem State.refuseImage_keeps {s0 : State} (s : State) (h : Cmd) (hk : Keeps s0 s) :
    Keeps s0 (State.refuseImage s h) := by
  unfold State.refuseImage
  try extract_lets
  repeat' (first
    | with_reducible assumption | with_reducible apply State.answer_keeps
    | with_reducible apply State.recordKind_keeps)

theorem State.sealedStore_keeps {s0 : State} (s : State) (n : Nat) (a : Nat) (b : List Byte) (hk : Keeps s0 s) :
    Keeps s0 (State.sealedStore s n a b) := by
  unfold State.sealedStore
  try extract_lets
  repeat' (first
    | with_reducible assumption | with_reducible apply State.setStack_keeps
    | with_reducible apply State.decodeUnit_keeps | with_reducible apply State.tick_keeps | split
    | with_reducible refine Keeps.mk ?_ rfl rfl rfl)

theorem State.takeVendor_keeps {s0 : State} (s : State) (command : List Byte) (payload : List Byte) (hk : Keeps s0 s) :
    Keeps s0 (State.takeVendor s command payload) := by
  unfold State.takeVendor
  try extract_lets
  repeat' (first
    | with_reducible assumption | with_reducible refine Keeps.mk ?_ rfl rfl rfl)

theorem State.writeAdmSq_keeps {s0 : State} (s : State) (host : Bool) (value : Reg64) (hk : Keeps s0 s) :
    Keeps s0 (State.writeAdmSq s host value) := by
  unfold State.writeAdmSq
  try extract_lets
  repeat' (first
    | with_reducible assumption | with_reducible apply State.forgetPair_keeps
    | with_reducible apply State.setHost_keeps | with_reducible apply State.onPair_keeps
    | with_reducible apply Keeps.ite)

theorem State.writeAperture_keeps {s0 : State} (s : State) (host : Bool) (off : Nat) (value : Reg64) (hk : Keeps s0 s) :
    Keeps s0 (State.writeAperture s host off value) := by
  unfold State.writeAperture
  try extract_lets
  repeat' (first
    | with_reducible assumption | with_reducible apply State.setHost_keeps
    | with_reducible apply State.writeAdmSq_keeps | with_reducible apply Keeps.ite)

theorem execReduceContrib_keeps {s0 : State} (c : CoreRef) (ep : BitVec 3) (s : State) (hk : Keeps s0 s) :
    KeepsO s0 (execReduceContrib c ep s) := by
  unfold execReduceContrib
  try extract_lets
  repeat' (first
    | with_reducible assumption | with_reducible intro _ | with_reducible apply coreEvent_keeps
    | with_reducible apply State.freeSent_keeps | with_reducible apply State.setCore_keeps
    | with_reducible apply Keeps.ite | split)

theorem execFlumeFlitDeliver_keeps {s0 : State} (c : CoreRef) (ep : BitVec 3) (parityBad : Bool) (s : State) (hk :
    Keeps s0 s) :
    KeepsO s0 (execFlumeFlitDeliver c ep parityBad s) := by
  unfold execFlumeFlitDeliver
  try extract_lets
  repeat' (first
    | with_reducible assumption | with_reducible intro _ | with_reducible apply coreEvent_keeps
    | with_reducible apply State.setCore_keeps | with_reducible apply State.flumeParity_keeps
    | with_reducible apply State.flumeLand_keeps | with_reducible apply State.report_keeps
    | with_reducible apply State.answerPacket_keeps | with_reducible apply State.discard_keeps | extract_lets | split)

theorem execCollectorCombine_keeps {s0 : State} (c : CoreRef) (ep : BitVec 3) (mismatch : Bool) (s : State) (hk : Keeps
    s0 s) :
    KeepsO s0 (execCollectorCombine c ep mismatch s) := by
  unfold execCollectorCombine
  try extract_lets
  repeat' (first
    | with_reducible assumption | with_reducible intro _ | with_reducible apply coreEvent_keeps
    | with_reducible apply State.combine_keeps | extract_lets | split)

theorem execLinkCollectorCombine_keeps {s0 : State} (c : CoreRef) (ep : BitVec 3) (mismatch : Bool) (s : State) (hk :
    Keeps s0 s) :
    KeepsO s0 (execLinkCollectorCombine c ep mismatch s) := by
  unfold execLinkCollectorCombine
  try extract_lets
  repeat' (first
    | with_reducible assumption | with_reducible intro _ | with_reducible apply coreEvent_keeps
    | with_reducible apply State.linkCombine_keeps | with_reducible apply KeepsO.ite | extract_lets | split)

theorem execPairMiscompare_keeps {s0 : State} (pair : BitVec 3) (s : State) (hk : Keeps s0 s) :
    KeepsO s0 (execPairMiscompare pair s) := by
  unfold execPairMiscompare
  try extract_lets
  repeat' (first
    | with_reducible assumption | with_reducible apply State.onPanel_keeps
    | with_reducible apply State.acceptOwn_keeps | with_reducible apply State.recordKind_keeps
    | with_reducible apply State.loseCommands_keeps | with_reducible apply State.loseLoads_keeps
    | with_reducible apply State.loseJoins_keeps | with_reducible apply KeepsO.ite | with_reducible apply KeepsO.next
    | with_reducible apply KeepsO.fault | with_reducible apply KeepsO.refused | with_reducible apply Keeps.ite)

theorem execHostLinkDegrade_keeps {s0 : State} (host : Bool) (both : Bool) (s : State) (hk : Keeps s0 s) :
    KeepsO s0 (execHostLinkDegrade host both s) := by
  unfold execHostLinkDegrade
  try extract_lets
  repeat' (first
    | with_reducible assumption | with_reducible apply State.cutHost_keeps
    | with_reducible apply State.acceptOwn_keeps | with_reducible apply State.setHost_keeps
    | with_reducible apply KeepsO.ite | with_reducible apply KeepsO.next)

theorem execAdminQueueCreate_keeps {s0 : State} (host : Bool) (value : Reg64) (s : State) (hk : Keeps s0 s) :
    KeepsO s0 (execAdminQueueCreate host value s) := by
  unfold execAdminQueueCreate
  try extract_lets
  repeat' (first
    | with_reducible assumption | with_reducible apply State.writeAdmSq_keeps | with_reducible apply KeepsO.next)

theorem execAdminQueueDelete_keeps {s0 : State} (host : Bool) (value : Reg64) (s : State) (hk : Keeps s0 s) :
    KeepsO s0 (execAdminQueueDelete host value s) := by
  unfold execAdminQueueDelete
  try extract_lets
  repeat' (first
    | with_reducible assumption | with_reducible apply State.writeAdmSq_keeps | with_reducible apply KeepsO.next)

theorem execSqDoorbell_keeps {s0 : State} (host : Bool) (queue : BitVec 4) (value : Reg64) (s : State) (hk : Keeps s0
    s) :
    KeepsO s0 (execSqDoorbell host queue value s) := by
  unfold execSqDoorbell
  try extract_lets
  repeat' (first
    | with_reducible assumption | with_reducible apply State.setHost_keeps | with_reducible apply State.onPair_keeps
    | with_reducible apply KeepsO.ite | with_reducible apply KeepsO.next)

theorem execRqDoorbell_keeps {s0 : State} (host : Bool) (queue : BitVec 4) (value : Reg64) (s : State) (hk : Keeps s0
    s) :
    KeepsO s0 (execRqDoorbell host queue value s) := by
  unfold execRqDoorbell
  try extract_lets
  repeat' (first
    | with_reducible assumption | with_reducible apply State.flushReplies_keeps
    | with_reducible apply State.onPair_keeps | with_reducible apply KeepsO.ite | with_reducible apply KeepsO.next)

theorem execCommandFetch_keeps {s0 : State} (host : Bool) (queue : BitVec 4) (s : State) (hk : Keeps s0 s) :
    KeepsO s0 (execCommandFetch host queue s) := by
  unfold execCommandFetch
  try extract_lets
  repeat' (first
    | with_reducible assumption | with_reducible apply State.fetchSome_keeps
    | with_reducible apply State.onPanel_keeps | with_reducible apply KeepsO.ite | with_reducible apply KeepsO.next)

theorem execPanelInfo_keeps {s0 : State} (h : Cmd) (addr : Reg64) (len : Word) (s : State) (hk : Keeps s0 s) :
    KeepsO s0 (execPanelInfo h addr len s) := by
  unfold execPanelInfo
  try extract_lets
  repeat' (first
    | with_reducible assumption | with_reducible intro _ | with_reducible apply command_keeps
    | with_reducible apply State.deliverBytes_keeps)

theorem execQueueCreate_keeps {s0 : State} (h : Cmd) (pair : BitVec 8) (sqLog2 : BitVec 8) (rqLog2 : BitVec 8) (sqBase
    : Reg64) (rqBase : Reg64) (s : State) (hk : Keeps s0 s) :
    KeepsO s0 (execQueueCreate h pair sqLog2 rqLog2 sqBase rqBase s) := by
  unfold execQueueCreate
  try extract_lets
  repeat' (first
    | with_reducible assumption | with_reducible intro _ | with_reducible apply command_keeps
    | with_reducible apply State.answer_keeps | with_reducible apply State.onPair_keeps
    | with_reducible apply Keeps.ite)

theorem execQueueDelete_keeps {s0 : State} (h : Cmd) (pair : BitVec 8) (s : State) (hk : Keeps s0 s) :
    KeepsO s0 (execQueueDelete h pair s) := by
  unfold execQueueDelete
  try extract_lets
  repeat' (first
    | with_reducible assumption | with_reducible intro _ | with_reducible apply command_keeps
    | with_reducible apply State.answer_keeps | with_reducible apply State.forgetPair_keeps)

theorem execPartCreate_keeps {s0 : State} (h : Cmd) (row : BitVec 8) (col : BitVec 8) (rows : BitVec 8) (cols : BitVec
    8) (s : State) (hk : Keeps s0 s) :
    KeepsO s0 (execPartCreate h row col rows cols s) := by
  unfold execPartCreate
  try extract_lets
  repeat' (first
    | with_reducible assumption | with_reducible intro _ | with_reducible apply command_keeps
    | with_reducible apply State.answer_keeps | with_reducible apply State.setPart_keeps
    | with_reducible apply State.onDie_keeps | with_reducible apply Keeps.foldl | split)

theorem execPartDestroy_keeps {s0 : State} (h : Cmd) (s : State) (hk : Keeps s0 s) :
    KeepsO s0 (execPartDestroy h s) := by
  unfold execPartDestroy
  try extract_lets
  repeat' (first
    | with_reducible assumption | with_reducible intro _ | with_reducible apply command_keeps
    | with_reducible apply State.onDie_keeps | with_reducible apply State.dropLoads_keeps
    | with_reducible apply State.endSealing_keeps | with_reducible apply State.setPart_keeps
    | with_reducible apply State.setShadow_keeps | with_reducible apply State.answer_keeps
    | with_reducible apply State.wake_keeps | with_reducible apply Keeps.foldl)

theorem execPartQuery_keeps {s0 : State} (h : Cmd) (s : State) (hk : Keeps s0 s) :
    KeepsO s0 (execPartQuery h s) := by
  unfold execPartQuery
  try extract_lets
  repeat' (first
    | with_reducible assumption | with_reducible intro _ | with_reducible apply command_keeps
    | with_reducible apply State.answer_keeps)

theorem execFlumeList_keeps {s0 : State} (h : Cmd) (addr : Reg64) (len : Word) (s : State) (hk : Keeps s0 s) :
    KeepsO s0 (execFlumeList h addr len s) := by
  unfold execFlumeList
  try extract_lets
  repeat' (first
    | with_reducible assumption | with_reducible intro _ | with_reducible apply command_keeps
    | with_reducible apply State.deliver_keeps)

theorem execFlumeStats_keeps {s0 : State} (h : Cmd) (index : BitVec 16) (s : State) (hk : Keeps s0 s) :
    KeepsO s0 (execFlumeStats h index s) := by
  unfold execFlumeStats
  try extract_lets
  repeat' (first
    | with_reducible assumption | with_reducible intro _ | with_reducible apply command_keeps
    | with_reducible apply State.answer_keeps)

theorem execMemRead_keeps {s0 : State} (h : Cmd) (hbm : Reg64) (host : Reg64) (len : Word) (s : State) (hk : Keeps s0
    s) :
    KeepsO s0 (execMemRead h hbm host len s) := by
  unfold execMemRead
  try extract_lets
  repeat' (first
    | with_reducible assumption | with_reducible intro _ | with_reducible apply command_keeps
    | with_reducible apply State.answer_keeps | with_reducible apply State.checkRange_keeps
    | with_reducible apply State.answerData_keeps | with_reducible apply State.tick_keeps
    | with_reducible apply Keeps.ite)

theorem execMemWrite_keeps {s0 : State} (h : Cmd) (hbm : Reg64) (host : Reg64) (len : Word) (s : State) (hk : Keeps s0
    s) :
    KeepsO s0 (execMemWrite h hbm host len s) := by
  unfold execMemWrite
  try extract_lets
  repeat' (first
    | with_reducible assumption | with_reducible intro _ | with_reducible apply command_keeps
    | with_reducible apply State.answer_keeps | with_reducible apply State.sealedStore_keeps
    | with_reducible apply State.memStore_keeps | with_reducible apply Keeps.foldl | extract_lets | split)

theorem execRegRead_keeps {s0 : State} (h : Cmd) (panel : Reg64) (host : Reg64) (len : Word) (s : State) (hk : Keeps s0
    s) :
    KeepsO s0 (execRegRead h panel host len s) := by
  unfold execRegRead
  try extract_lets
  repeat' (first
    | with_reducible assumption | with_reducible intro _ | with_reducible apply command_keeps
    | with_reducible apply State.readRegs_keeps)

theorem execRegWrite_keeps {s0 : State} (h : Cmd) (panel : Reg64) (value : Reg64) (s : State) (hk : Keeps s0 s) :
    KeepsO s0 (execRegWrite h panel value s) := by
  unfold execRegWrite
  try extract_lets
  repeat' (first
    | with_reducible assumption | with_reducible intro _ | with_reducible apply command_keeps
    | with_reducible apply State.answer_keeps | with_reducible apply State.writeReg_keeps)

theorem execRegisterWrite_keeps {s0 : State} (t : RegTarget) (value : Reg64) (s : State) (hk : Keeps s0 s) :
    KeepsO s0 (execRegisterWrite t value s) := by
  unfold execRegisterWrite
  try extract_lets
  repeat' (first
    | with_reducible assumption | with_reducible apply State.writeAperture_keeps
    | with_reducible apply State.recordKind_keeps | with_reducible apply State.writeReg_keeps
    | with_reducible apply KeepsO.next | split)

theorem execMctpMessage_keeps {s0 : State} (m : Mctp) (s : State) (hk : Keeps s0 s) :
    KeepsO s0 (execMctpMessage m s) := by
  unfold execMctpMessage
  try extract_lets
  repeat' (first
    | with_reducible assumption | with_reducible apply State.onPanel_keeps | with_reducible apply State.recover_keeps
    | with_reducible apply State.pldmWrite_keeps | with_reducible apply State.takeVendor_keeps
    | with_reducible apply KeepsO.next | split)

theorem execPllLockLoss_keeps {s0 : State} (d : Site) (s : State) (hk : Keeps s0 s) :
    KeepsO s0 (execPllLockLoss d s) := by
  unfold execPllLockLoss
  try extract_lets
  repeat' (first
    | with_reducible assumption | with_reducible intro _ | with_reducible apply siteEvent_keeps
    | with_reducible apply State.transitFail_keeps | with_reducible apply State.onDie_keeps
    | with_reducible apply Keeps.ite)

theorem execRefclkLoss_keeps {s0 : State} (s : State) (hk : Keeps s0 s) :
    KeepsO s0 (execRefclkLoss s) := by
  unfold execRefclkLoss
  try extract_lets
  repeat' (first
    | with_reducible assumption | with_reducible apply State.acceptOwn_keeps
    | with_reducible apply State.setClocks_keeps | with_reducible apply KeepsO.next)

theorem execCrossingSlip_keeps {s0 : State} (d : Site) (crossing : BitVec 8) (s : State) (hk : Keeps s0 s) :
    KeepsO s0 (execCrossingSlip d crossing s) := by
  unfold execCrossingSlip
  try extract_lets
  repeat' (first
    | with_reducible assumption | with_reducible intro _ | with_reducible apply siteEvent_keeps
    | with_reducible apply State.setDie_keeps | with_reducible apply Keeps.ite)

theorem execFwUpdate_keeps {s0 : State} (h : Cmd) (addr : Reg64) (len : Word) (s : State) (hk : Keeps s0 s) :
    KeepsO s0 (execFwUpdate h addr len s) := by
  unfold execFwUpdate
  try extract_lets
  repeat' (first
    | with_reducible assumption | with_reducible intro _ | with_reducible apply command_keeps
    | with_reducible apply State.answer_keeps | with_reducible apply State.refuseImage_keeps
    | with_reducible apply State.writeFirmware_keeps | split)

theorem execCfgWrite_keeps {s0 : State} (h : Cmd) (addr : Reg64) (len : Word) (s : State) (hk : Keeps s0 s) :
    KeepsO s0 (execCfgWrite h addr len s) := by
  unfold execCfgWrite
  try extract_lets
  repeat' (first
    | with_reducible assumption | with_reducible intro _ | with_reducible apply command_keeps
    | with_reducible apply State.answer_keeps | with_reducible apply State.refuseImage_keeps
    | with_reducible apply State.writeCfg_keeps | split)

theorem execCfgRead_keeps {s0 : State} (h : Cmd) (addr : Reg64) (len : Word) (defaults : Bool) (s : State) (hk : Keeps
    s0 s) :
    KeepsO s0 (execCfgRead h addr len defaults s) := by
  unfold execCfgRead
  try extract_lets
  repeat' (first
    | with_reducible assumption | with_reducible intro _ | with_reducible apply command_keeps
    | with_reducible apply State.deliverBytes_keeps)

theorem execRegReadPhys_keeps {s0 : State} (h : Cmd) (panel : Reg64) (host : Reg64) (len : Word) (s : State) (hk :
    Keeps s0 s) :
    KeepsO s0 (execRegReadPhys h panel host len s) := by
  unfold execRegReadPhys
  try extract_lets
  repeat' (first
    | with_reducible assumption | with_reducible intro _ | with_reducible apply command_keeps
    | with_reducible apply State.readRegs_keeps)

theorem execRecoveryImage_keeps {s0 : State} (image : List Byte) (b : BringUp) (s : State) (hk : Keeps s0 s) :
    KeepsO s0 (execRecoveryImage image b s) := by
  unfold execRecoveryImage
  try extract_lets
  repeat' (first
    | with_reducible assumption | with_reducible apply State.recover_keeps | with_reducible apply KeepsO.next)

theorem execStretchedCycle_keeps {s0 : State} (d : Site) (domain : BitVec 7) (margin : BitVec 7) (s : State) (hk :
    Keeps s0 s) :
    KeepsO s0 (execStretchedCycle d domain margin s) := by
  unfold execStretchedCycle
  try extract_lets
  repeat' (first
    | with_reducible assumption | with_reducible intro _ | with_reducible apply siteEvent_keeps
    | with_reducible apply State.onPanel_keeps | with_reducible apply State.onCore_keeps
    | with_reducible apply State.setRegion_keeps | with_reducible apply Keeps.ite | with_reducible apply Keeps.foldl)

end Sys2Proof.Machine
end

