-- ==== Sys2Proof/Laws/KeepsCores.lean ====
section
/-!
SUPPORT. Each operation of the model keeps the waiting commands and the canonical memories (`Keeps`), one lemma each:
what a core issues: network, scalar, tensor and vector.
-/

namespace Sys2Proof.Machine

theorem jumpTo_keeps {s0 : State} (s : State) (k : Core) (t : Word) (hk : Keeps s0 s) :
    KeepsI s0 (jumpTo s k t) := by
  unfold jumpTo
  try extract_lets
  repeat' (first
    | with_reducible assumption | with_reducible apply KeepsI.ite | with_reducible apply KeepsI.ofDone
    | with_reducible apply KeepsI.ofTrap)

theorem branchIf_keeps {s0 : State} (f : FmtB) (cond : Int → Bool) (s : State) (k : Core) (hk : Keeps s0 s) :
    KeepsI s0 (branchIf f cond s k) := by
  unfold branchIf
  try extract_lets
  repeat' (first
    | with_reducible assumption | with_reducible apply jumpTo_keeps | with_reducible apply KeepsI.ite
    | with_reducible apply KeepsI.ofDone)

theorem writeG_keeps {s0 : State} (s : State) (k : Core) (rd : BitVec 5) (v : Word) (hk : Keeps s0 s) :
    KeepsI s0 (writeG s k rd v) := by
  unfold writeG
  try extract_lets
  repeat' (first
    | with_reducible assumption | with_reducible apply KeepsI.ofDone)

theorem immOp_keeps {s0 : State} (f : FmtI) (op : Word → BitVec 16 → Word) (s : State) (k : Core) (hk : Keeps s0 s) :
    KeepsI s0 (immOp f op s k) := by
  unfold immOp
  try extract_lets
  repeat' (first
    | with_reducible assumption | with_reducible apply writeG_keeps)

theorem execAddi_keeps {s0 : State} (c : CoreRef) (f : FmtI) (s : State) (hk : Keeps s0 s) :
    KeepsO s0 (execAddi c f s) := by
  unfold execAddi
  try extract_lets
  repeat' (first
    | with_reducible assumption | with_reducible apply issue_keeps | with_reducible apply immOp_keeps)

theorem execAndi_keeps {s0 : State} (c : CoreRef) (f : FmtI) (s : State) (hk : Keeps s0 s) :
    KeepsO s0 (execAndi c f s) := by
  unfold execAndi
  try extract_lets
  repeat' (first
    | with_reducible assumption | with_reducible apply issue_keeps | with_reducible apply immOp_keeps)

theorem execOri_keeps {s0 : State} (c : CoreRef) (f : FmtI) (s : State) (hk : Keeps s0 s) :
    KeepsO s0 (execOri c f s) := by
  unfold execOri
  try extract_lets
  repeat' (first
    | with_reducible assumption | with_reducible apply issue_keeps | with_reducible apply immOp_keeps)

theorem execXori_keeps {s0 : State} (c : CoreRef) (f : FmtI) (s : State) (hk : Keeps s0 s) :
    KeepsO s0 (execXori c f s) := by
  unfold execXori
  try extract_lets
  repeat' (first
    | with_reducible assumption | with_reducible apply issue_keeps | with_reducible apply immOp_keeps)

theorem execSlti_keeps {s0 : State} (c : CoreRef) (f : FmtI) (s : State) (hk : Keeps s0 s) :
    KeepsO s0 (execSlti c f s) := by
  unfold execSlti
  try extract_lets
  repeat' (first
    | with_reducible assumption | with_reducible apply issue_keeps | with_reducible apply immOp_keeps)

theorem execSltiu_keeps {s0 : State} (c : CoreRef) (f : FmtI) (s : State) (hk : Keeps s0 s) :
    KeepsO s0 (execSltiu c f s) := by
  unfold execSltiu
  try extract_lets
  repeat' (first
    | with_reducible assumption | with_reducible apply issue_keeps | with_reducible apply immOp_keeps)

theorem execShi_keeps {s0 : State} (c : CoreRef) (f : FmtI) (s : State) (hk : Keeps s0 s) :
    KeepsO s0 (execShi c f s) := by
  unfold execShi
  try extract_lets
  repeat' (first
    | with_reducible assumption | with_reducible intro _ | with_reducible apply issue_keeps
    | with_reducible apply writeG_keeps | with_reducible apply KeepsI.ite | with_reducible apply KeepsI.ofTrap)

theorem execLui_keeps {s0 : State} (c : CoreRef) (f : FmtI) (s : State) (hk : Keeps s0 s) :
    KeepsO s0 (execLui c f s) := by
  unfold execLui
  try extract_lets
  repeat' (first
    | with_reducible assumption | with_reducible intro _ | with_reducible apply issue_keeps
    | with_reducible apply writeG_keeps | with_reducible apply KeepsI.ite | with_reducible apply KeepsI.ofTrap)

theorem execOpa_keeps {s0 : State} (c : CoreRef) (f : FmtA) (s : State) (hk : Keeps s0 s) :
    KeepsO s0 (execOpa c f s) := by
  unfold execOpa
  try extract_lets
  repeat' (first
    | with_reducible assumption | with_reducible intro _ | with_reducible apply issue_keeps
    | with_reducible apply writeG_keeps | with_reducible apply KeepsI.ofTrap | split)

theorem execBeqz_keeps {s0 : State} (c : CoreRef) (f : FmtB) (s : State) (hk : Keeps s0 s) :
    KeepsO s0 (execBeqz c f s) := by
  unfold execBeqz
  try extract_lets
  repeat' (first
    | with_reducible assumption | with_reducible apply issue_keeps | with_reducible apply branchIf_keeps)

theorem execBnez_keeps {s0 : State} (c : CoreRef) (f : FmtB) (s : State) (hk : Keeps s0 s) :
    KeepsO s0 (execBnez c f s) := by
  unfold execBnez
  try extract_lets
  repeat' (first
    | with_reducible assumption | with_reducible apply issue_keeps | with_reducible apply branchIf_keeps)

theorem execBltz_keeps {s0 : State} (c : CoreRef) (f : FmtB) (s : State) (hk : Keeps s0 s) :
    KeepsO s0 (execBltz c f s) := by
  unfold execBltz
  try extract_lets
  repeat' (first
    | with_reducible assumption | with_reducible apply issue_keeps | with_reducible apply branchIf_keeps)

theorem execBgez_keeps {s0 : State} (c : CoreRef) (f : FmtB) (s : State) (hk : Keeps s0 s) :
    KeepsO s0 (execBgez c f s) := by
  unfold execBgez
  try extract_lets
  repeat' (first
    | with_reducible assumption | with_reducible apply issue_keeps | with_reducible apply branchIf_keeps)

theorem execBlez_keeps {s0 : State} (c : CoreRef) (f : FmtB) (s : State) (hk : Keeps s0 s) :
    KeepsO s0 (execBlez c f s) := by
  unfold execBlez
  try extract_lets
  repeat' (first
    | with_reducible assumption | with_reducible apply issue_keeps | with_reducible apply branchIf_keeps)

theorem execBgtz_keeps {s0 : State} (c : CoreRef) (f : FmtB) (s : State) (hk : Keeps s0 s) :
    KeepsO s0 (execBgtz c f s) := by
  unfold execBgtz
  try extract_lets
  repeat' (first
    | with_reducible assumption | with_reducible apply issue_keeps | with_reducible apply branchIf_keeps)

theorem execJal_keeps {s0 : State} (c : CoreRef) (f : FmtB) (s : State) (hk : Keeps s0 s) :
    KeepsO s0 (execJal c f s) := by
  unfold execJal
  try extract_lets
  repeat' (first
    | with_reducible assumption | with_reducible intro _ | with_reducible apply issue_keeps
    | with_reducible apply jumpTo_keeps | with_reducible apply KeepsI.ite | with_reducible apply KeepsI.ofTrap)

theorem execJalr_keeps {s0 : State} (c : CoreRef) (f : FmtI) (s : State) (hk : Keeps s0 s) :
    KeepsO s0 (execJalr c f s) := by
  unfold execJalr
  try extract_lets
  repeat' (first
    | with_reducible assumption | with_reducible intro _ | with_reducible apply issue_keeps
    | with_reducible apply jumpTo_keeps | with_reducible apply KeepsI.ite | with_reducible apply KeepsI.ofTrap)

theorem loadOp_keeps {s0 : State} (c : CoreRef) (f : FmtI) (port : Nat) (size : Nat) (put : Core → Nat → Core) (s :
    State) (k : Core) (hk : Keeps s0 s) :
    KeepsI s0 (loadOp c f port size put s k) := by
  unfold loadOp
  try extract_lets
  repeat' (first
    | with_reducible assumption | with_reducible apply spRead_keeps | with_reducible apply SpOut.state_keeps
    | with_reducible apply KeepsI.ofDone | with_reducible apply KeepsI.ofTrap | with_reducible apply KeepsI.ofStall
    | with_reducible apply KeepsI.ofOver | split)

theorem execLw_keeps {s0 : State} (c : CoreRef) (f : FmtI) (s : State) (hk : Keeps s0 s) :
    KeepsO s0 (execLw c f s) := by
  unfold execLw
  try extract_lets
  repeat' (first
    | with_reducible assumption | with_reducible apply issue_keeps | with_reducible apply loadOp_keeps)

theorem execLh_keeps {s0 : State} (c : CoreRef) (f : FmtI) (s : State) (hk : Keeps s0 s) :
    KeepsO s0 (execLh c f s) := by
  unfold execLh
  try extract_lets
  repeat' (first
    | with_reducible assumption | with_reducible apply issue_keeps | with_reducible apply loadOp_keeps)

theorem execLhu_keeps {s0 : State} (c : CoreRef) (f : FmtI) (s : State) (hk : Keeps s0 s) :
    KeepsO s0 (execLhu c f s) := by
  unfold execLhu
  try extract_lets
  repeat' (first
    | with_reducible assumption | with_reducible apply issue_keeps | with_reducible apply loadOp_keeps)

theorem execLb_keeps {s0 : State} (c : CoreRef) (f : FmtI) (s : State) (hk : Keeps s0 s) :
    KeepsO s0 (execLb c f s) := by
  unfold execLb
  try extract_lets
  repeat' (first
    | with_reducible assumption | with_reducible apply issue_keeps | with_reducible apply loadOp_keeps)

theorem execLbu_keeps {s0 : State} (c : CoreRef) (f : FmtI) (s : State) (hk : Keeps s0 s) :
    KeepsO s0 (execLbu c f s) := by
  unfold execLbu
  try extract_lets
  repeat' (first
    | with_reducible assumption | with_reducible apply issue_keeps | with_reducible apply loadOp_keeps)

theorem storeOp_keeps {s0 : State} (f : FmtI) (size : Nat) (bs : List Byte) (s : State) (k : Core) (hk : Keeps s0 s) :
    KeepsI s0 (storeOp f size bs s k) := by
  unfold storeOp
  try extract_lets
  repeat' (first
    | with_reducible assumption | with_reducible apply KeepsI.ofDone | with_reducible apply KeepsI.ofTrap
    | with_reducible apply KeepsI.ofStall | split)

theorem execSw_keeps {s0 : State} (c : CoreRef) (f : FmtI) (s : State) (hk : Keeps s0 s) :
    KeepsO s0 (execSw c f s) := by
  unfold execSw
  try extract_lets
  repeat' (first
    | with_reducible assumption | with_reducible intro _ | with_reducible apply issue_keeps
    | with_reducible apply storeOp_keeps)

theorem execSh_keeps {s0 : State} (c : CoreRef) (f : FmtI) (s : State) (hk : Keeps s0 s) :
    KeepsO s0 (execSh c f s) := by
  unfold execSh
  try extract_lets
  repeat' (first
    | with_reducible assumption | with_reducible intro _ | with_reducible apply issue_keeps
    | with_reducible apply storeOp_keeps)

theorem execSb_keeps {s0 : State} (c : CoreRef) (f : FmtI) (s : State) (hk : Keeps s0 s) :
    KeepsO s0 (execSb c f s) := by
  unfold execSb
  try extract_lets
  repeat' (first
    | with_reducible assumption | with_reducible intro _ | with_reducible apply issue_keeps
    | with_reducible apply storeOp_keeps)

theorem execDld_keeps {s0 : State} (c : CoreRef) (f : FmtI) (s : State) (hk : Keeps s0 s) :
    KeepsO s0 (execDld c f s) := by
  unfold execDld
  try extract_lets
  repeat' (first
    | with_reducible assumption | with_reducible intro _ | with_reducible apply issue_keeps
    | with_reducible apply loadOp_keeps | with_reducible apply KeepsI.ite | with_reducible apply KeepsI.ofTrap)

theorem execDst_keeps {s0 : State} (c : CoreRef) (f : FmtI) (s : State) (hk : Keeps s0 s) :
    KeepsO s0 (execDst c f s) := by
  unfold execDst
  try extract_lets
  repeat' (first
    | with_reducible assumption | with_reducible intro _ | with_reducible apply issue_keeps
    | with_reducible apply storeOp_keeps | with_reducible apply KeepsI.ite | with_reducible apply KeepsI.ofTrap)

theorem execDmov_keeps {s0 : State} (c : CoreRef) (f : FmtA) (s : State) (hk : Keeps s0 s) :
    KeepsO s0 (execDmov c f s) := by
  unfold execDmov
  try extract_lets
  repeat' (first
    | with_reducible assumption | with_reducible intro _ | with_reducible apply issue_keeps
    | with_reducible apply writeG_keeps | with_reducible apply KeepsI.ite | with_reducible apply KeepsI.ofDone
    | with_reducible apply KeepsI.ofTrap)

theorem execVop_keeps {s0 : State} (c : CoreRef) (f : FmtA) (s : State) (hk : Keeps s0 s) :
    KeepsO s0 (execVop c f s) := by
  unfold execVop
  try extract_lets
  repeat' (first
    | with_reducible assumption | with_reducible intro _ | with_reducible apply issue_keeps
    | with_reducible apply KeepsI.ofDone | with_reducible apply KeepsI.ofTrap | split)

theorem execVld_keeps {s0 : State} (c : CoreRef) (f : FmtI) (s : State) (hk : Keeps s0 s) :
    KeepsO s0 (execVld c f s) := by
  unfold execVld
  try extract_lets
  repeat' (first
    | with_reducible assumption | with_reducible intro _ | with_reducible apply issue_keeps
    | with_reducible apply loadOp_keeps | with_reducible apply KeepsI.ite | with_reducible apply KeepsI.ofTrap)

theorem execVst_keeps {s0 : State} (c : CoreRef) (f : FmtI) (s : State) (hk : Keeps s0 s) :
    KeepsO s0 (execVst c f s) := by
  unfold execVst
  try extract_lets
  repeat' (first
    | with_reducible assumption | with_reducible intro _ | with_reducible apply issue_keeps
    | with_reducible apply spWrite_keeps | with_reducible apply KeepsI.ofDone | with_reducible apply KeepsI.ofTrap
    | with_reducible apply KeepsI.ofStall | split)

theorem tIssue_keeps {s0 : State} (c : CoreRef) (op : TOp) (f : FmtT) (word : Word) (s : State) (k : Core) (hk : Keeps
    s0 s) :
    KeepsI s0 (tIssue c op f word s k) := by
  unfold tIssue
  try extract_lets
  repeat' (first
    | with_reducible assumption | with_reducible apply State.armCounter_keeps | with_reducible apply KeepsI.ofDone
    | with_reducible apply KeepsI.ofTrap | with_reducible apply KeepsI.ofWait | split)

theorem execTload_keeps {s0 : State} (c : CoreRef) (f : FmtT) (s : State) (hk : Keeps s0 s) :
    KeepsO s0 (execTload c f s) := by
  unfold execTload
  try extract_lets
  repeat' (first
    | with_reducible assumption | with_reducible apply issue_keeps | with_reducible apply tIssue_keeps)

theorem execTmma_keeps {s0 : State} (c : CoreRef) (f : FmtT) (s : State) (hk : Keeps s0 s) :
    KeepsO s0 (execTmma c f s) := by
  unfold execTmma
  try extract_lets
  repeat' (first
    | with_reducible assumption | with_reducible apply issue_keeps | with_reducible apply tIssue_keeps)

theorem execTstore_keeps {s0 : State} (c : CoreRef) (f : FmtT) (s : State) (hk : Keeps s0 s) :
    KeepsO s0 (execTstore c f s) := by
  unfold execTstore
  try extract_lets
  repeat' (first
    | with_reducible assumption | with_reducible apply issue_keeps | with_reducible apply tIssue_keeps)

theorem execTcvt_keeps {s0 : State} (c : CoreRef) (f : FmtT) (s : State) (hk : Keeps s0 s) :
    KeepsO s0 (execTcvt c f s) := by
  unfold execTcvt
  try extract_lets
  repeat' (first
    | with_reducible assumption | with_reducible apply issue_keeps | with_reducible apply tIssue_keeps)

theorem netEnqueue_keeps {s0 : State} (c : CoreRef) (op : NOp) (f : FmtN) (loc : Nat) (remote : Nat) (s : State) (k :
    Core) (hk : Keeps s0 s) :
    Keeps s0 (netEnqueue c op f loc remote s k).1 := by
  unfold netEnqueue
  try extract_lets
  repeat' (first
    | with_reducible assumption | with_reducible apply State.armCounter_keeps | split)

theorem netIssue_keeps {s0 : State} (c : CoreRef) (op : NOp) (f : FmtN) (word : Word) (s : State) (k : Core) (hk :
    Keeps s0 s) :
    KeepsI s0 (netIssue c op f word s k) := by
  unfold netIssue
  try extract_lets
  repeat' (first
    | with_reducible assumption | with_reducible apply netEnqueue_keeps | with_reducible apply KeepsI.ofDone
    | with_reducible apply KeepsI.ofTrap | with_reducible apply KeepsI.ofWait | split)

theorem execSend_keeps {s0 : State} (c : CoreRef) (f : FmtN) (s : State) (hk : Keeps s0 s) :
    KeepsO s0 (execSend c f s) := by
  unfold execSend
  try extract_lets
  repeat' (first
    | with_reducible assumption | with_reducible apply issue_keeps | with_reducible apply netIssue_keeps)

theorem execSendm_keeps {s0 : State} (c : CoreRef) (f : FmtN) (s : State) (hk : Keeps s0 s) :
    KeepsO s0 (execSendm c f s) := by
  unfold execSendm
  try extract_lets
  repeat' (first
    | with_reducible assumption | with_reducible apply issue_keeps | with_reducible apply netIssue_keeps)

theorem execRead_keeps {s0 : State} (c : CoreRef) (f : FmtN) (s : State) (hk : Keeps s0 s) :
    KeepsO s0 (execRead c f s) := by
  unfold execRead
  try extract_lets
  repeat' (first
    | with_reducible assumption | with_reducible apply issue_keeps | with_reducible apply netIssue_keeps)

theorem execAadd_keeps {s0 : State} (c : CoreRef) (f : FmtN) (s : State) (hk : Keeps s0 s) :
    KeepsO s0 (execAadd c f s) := by
  unfold execAadd
  try extract_lets
  repeat' (first
    | with_reducible assumption | with_reducible apply issue_keeps | with_reducible apply netIssue_keeps)

theorem execCpq_keeps {s0 : State} (c : CoreRef) (f : FmtN) (s : State) (hk : Keeps s0 s) :
    KeepsO s0 (execCpq c f s) := by
  unfold execCpq
  try extract_lets
  repeat' (first
    | with_reducible assumption | with_reducible intro _ | with_reducible apply issue_keeps
    | with_reducible apply KeepsI.ofDone | with_reducible apply KeepsI.ofTrap | with_reducible apply KeepsI.ofWait
    | split)

theorem execCcopy_keeps {s0 : State} (c : CoreRef) (f : FmtN) (s : State) (hk : Keeps s0 s) :
    KeepsO s0 (execCcopy c f s) := by
  unfold execCcopy
  try extract_lets
  repeat' (first
    | with_reducible assumption | with_reducible intro _ | with_reducible apply issue_keeps
    | with_reducible apply State.armCounter_keeps | with_reducible apply KeepsI.ofDone
    | with_reducible apply KeepsI.ofTrap | with_reducible apply KeepsI.ofWait | split)

theorem execCarm_keeps {s0 : State} (c : CoreRef) (f : FmtN) (s : State) (hk : Keeps s0 s) :
    KeepsO s0 (execCarm c f s) := by
  unfold execCarm
  try extract_lets
  repeat' (first
    | with_reducible assumption | with_reducible intro _ | with_reducible apply issue_keeps
    | with_reducible apply State.armCounter_keeps | with_reducible apply KeepsI.ite
    | with_reducible apply KeepsI.ofDone | with_reducible apply KeepsI.ofTrap)

theorem execWaitc_keeps {s0 : State} (c : CoreRef) (f : FmtN) (s : State) (hk : Keeps s0 s) :
    KeepsO s0 (execWaitc c f s) := by
  unfold execWaitc
  try extract_lets
  repeat' (first
    | with_reducible assumption | with_reducible intro _ | with_reducible apply issue_keeps
    | with_reducible apply KeepsI.ite | with_reducible apply KeepsI.ofDone | with_reducible apply KeepsI.ofTrap
    | with_reducible apply KeepsI.ofWait)

theorem execWaitcComplete_keeps {s0 : State} (c : CoreRef) (s : State) (hk : Keeps s0 s) :
    KeepsO s0 (execWaitcComplete c s) := by
  unfold execWaitcComplete
  try extract_lets
  repeat' (first
    | with_reducible assumption | with_reducible intro _ | with_reducible apply coreEvent_keeps
    | with_reducible apply State.setCore_keeps | split)

theorem execTensorStart_keeps {s0 : State} (c : CoreRef) (s : State) (hk : Keeps s0 s) :
    KeepsO s0 (execTensorStart c s) := by
  unfold execTensorStart
  try extract_lets
  repeat' (first
    | with_reducible assumption | with_reducible intro _ | with_reducible apply coreEvent_keeps
    | with_reducible apply State.setCore_keeps | split)

theorem readLines_keeps {s0 : State} (c : CoreRef) (d : TDesc) (x2 : Nat) (x3 : Nat) (x4 : State) (x5 : Core) (hk :
    Keeps s0 x4) :
    Keeps s0 (readLines c d x2 x3 x4 x5).1 := by
  induction x3 generalizing x2 x4 x5 with
  | zero => exact hk
  | succ fuel ih =>
    unfold readLines
    try extract_lets
    repeat' (first
      | with_reducible assumption | with_reducible apply ih | with_reducible apply spRead_keeps | split)

theorem writeLines_keeps {s0 : State} (c : CoreRef) (d : TDesc) (x2 : Nat) (x3 : List (List Byte × List Byte ×
    FpFlags)) (x4 : State) (x5 : Core) (hk : Keeps s0 x4) :
    Keeps s0 (writeLines c d x2 x3 x4 x5).s := by
  induction x3 generalizing x2 x4 x5 with
  | nil => exact hk
  | cons e rest ih =>
    unfold writeLines
    try extract_lets
    repeat' (first
      | with_reducible assumption | with_reducible apply ih | with_reducible apply spWrite_keeps | split)

theorem tCompute_keeps {s0 : State} (c : CoreRef) (t : TInstr) (limit : Nat) (s : State) (k : Core) (hk : Keeps s0 s) :
    Keeps s0 (tCompute c t limit s k).s := by
  unfold tCompute
  try extract_lets
  repeat' (first
    | with_reducible assumption | with_reducible apply readLines_keeps | with_reducible apply writeLines_keeps
    | split | with_reducible refine Keeps.fst ‹_ = (_, _)› ?_)

theorem tComplete_keeps {s0 : State} (c : CoreRef) (i : Nat) (fail : Option ResidueFail) (s : State) (k : Core) (hk :
    Keeps s0 s) :
    Keeps s0 (tComplete c i fail s k) := by
  unfold tComplete
  try extract_lets
  repeat' (first
    | with_reducible assumption | with_reducible apply tCompute_keeps | with_reducible apply State.setCore_keeps
    | with_reducible apply State.coreFault_keeps | with_reducible apply SpOut.state_keeps
    | with_reducible apply State.countIf_keeps | with_reducible apply Keeps.ite | split)

theorem execTensorComplete_keeps {s0 : State} (c : CoreRef) (entry : BitVec 3) (fail : Option ResidueFail) (s : State)
    (hk : Keeps s0 s) :
    KeepsO s0 (execTensorComplete c entry fail s) := by
  unfold execTensorComplete
  try extract_lets
  repeat' (first
    | with_reducible assumption | with_reducible apply coreEvent_keeps | with_reducible apply tComplete_keeps)

theorem execCopyEngineMove_keeps {s0 : State} (c : CoreRef) (s : State) (hk : Keeps s0 s) :
    KeepsO s0 (execCopyEngineMove c s) := by
  unfold execCopyEngineMove
  try extract_lets
  repeat' (first
    | with_reducible assumption | with_reducible intro _ | with_reducible apply coreEvent_keeps
    | with_reducible apply spRead_keeps | with_reducible apply SpOut.state_keeps | with_reducible apply spWrite_keeps
    | with_reducible apply State.countIf_keeps | with_reducible apply State.setCore_keeps
    | with_reducible apply Keeps.ite | split)

theorem readPieces_keeps {s0 : State} (c : CoreRef) (n : NInstr) (x2 : List (Nat × Nat)) (x3 : State) (x4 : Core) (hk :
    Keeps s0 x3) :
    Keeps s0 (readPieces c n x2 x3 x4) := by
  induction x2 generalizing x3 with
  | nil => exact hk
  | cons e rest ih =>
    unfold readPieces
    try extract_lets
    repeat' (first
      | with_reducible assumption | with_reducible apply ih | with_reducible apply State.inject_keeps)

theorem sendPieces_keeps {s0 : State} (c : CoreRef) (n : NInstr) (slot : Option (BitVec 4)) (x3 : List (Nat × Nat)) (x4
    : State) (x5 : Core) (hk : Keeps s0 x4) :
    Keeps s0 (sendPieces c n slot x3 x4 x5).1 := by
  induction x3 generalizing x4 x5 with
  | nil => exact hk
  | cons e rest ih =>
    unfold sendPieces
    try extract_lets
    repeat' (first
      | with_reducible assumption | with_reducible apply ih | with_reducible apply spRead_keeps
      | with_reducible apply State.countIf_keeps | with_reducible apply State.inject_keeps | split)

theorem niInjectHead_keeps {s0 : State} (c : CoreRef) (n : NInstr) (rest : List NInstr) (s : State) (k : Core) (hk :
    Keeps s0 s) :
    Keeps s0 (niInjectHead c n rest s k) := by
  unfold niInjectHead
  try extract_lets
  repeat' (first
    | with_reducible assumption | with_reducible intro _ | with_reducible apply State.freeSent_keeps
    | with_reducible apply State.setCore_keeps | with_reducible apply State.inject_keeps
    | with_reducible apply readPieces_keeps | with_reducible apply spRead_keeps
    | with_reducible apply State.countIf_keeps | with_reducible apply sendPieces_keeps
    | with_reducible apply Keeps.ite | with_reducible apply Keeps.foldl | split)

theorem execNiInject_keeps {s0 : State} (c : CoreRef) (s : State) (hk : Keeps s0 s) :
    KeepsO s0 (execNiInject c s) := by
  unfold execNiInject
  try extract_lets
  repeat' (first
    | with_reducible assumption | with_reducible intro _ | with_reducible apply coreEvent_keeps
    | with_reducible apply State.freeSent_keeps | with_reducible apply niInjectHead_keeps | split)

end Sys2Proof.Machine
end

