-- ==== Sys2Proof/Laws/Scratchpad.lean ====
section
/-!
SUPPORT. What an access to the scratchpad can do, said once: the ECC check, a read, a write.
-/

namespace Sys2Proof.Machine

/-- Of the panel, a corrected word changes the reports and the count of free values only. -/
theorem eccCorrect_frame (c : CoreRef) (port : Nat) (o : State × Core) (e : Nat × EccErr) :
    ∃ r n b ce, eccCorrect c port o e =
      ({ o.1 with reports := r, free := n }, { o.2 with banks := b, ceCount := ce }) :=
  ⟨_, _, _, _, rfl⟩

theorem eccCorrect_foldl_frame (c : CoreRef) (port : Nat) (l : Tbl EccErr) : ∀ o : State × Core,
    ∃ r n b ce, l.foldl (eccCorrect c port) o =
      ({ o.1 with reports := r, free := n }, { o.2 with banks := b, ceCount := ce }) := by
  induction l with
  | nil => intro o; exact ⟨o.1.reports, o.1.free, o.2.banks, o.2.ceCount, rfl⟩
  | cons e l ih =>
    intro o
    obtain ⟨r, n, b, ce, h⟩ := ih (eccCorrect c port o e)
    exact ⟨r, n, b, ce, h⟩

/-- A check that finds no uncorrectable word passes; it may queue corrections and report them. -/
theorem eccCheck_clean (s : State) (c : CoreRef) (k : Core) (port off len : Nat) (h : k.noUncorrectable off len) :
    ∃ r n b ce, eccCheck s c k port off len =
      ({ s with reports := r, free := n }, { k with banks := b, ceCount := ce }, true) := by
  unfold eccCheck
  have hf : (eccHits k off len).find? (fun e => !e.2.correctable) = none := by
    rw [List.find?_eq_none]
    intro e he
    simp only [eccHits, List.mem_filter, Bool.and_eq_true, decide_eq_true_eq] at he
    simp [h e he.1 he.2.1 he.2.2]
  dsimp only
  rw [hf]
  obtain ⟨r, n, b, ce, e⟩ := eccCorrect_foldl_frame c port ((eccHits k off len).filter fun e => e.2.correctable) (s, k)
  exact ⟨r, n, b, ce, by simp only [e]⟩

/-- A read that meets no uncorrectable word answers the bytes that program order puts there. -/
theorem spRead_clean (s : State) (c : CoreRef) (k : Core) (port off len : Nat) (h : k.noUncorrectable off len) :
    ∃ r n b ce, spRead s c k port off len =
      ⟨{ s with reports := r, free := n }, { k with banks := b, ceCount := ce }, true,
        spBytes s.mem c k.stores off len⟩ := by
  unfold spRead spReadOver
  obtain ⟨r, n, b, ce, e⟩ := eccCheck_clean s c (k.granted port off len) port off len h
  exact ⟨r, n, b, ce, by rw [e]; rfl⟩

/-- The partial words of a write pass their check. -/
theorem partial_clean (c : CoreRef) (port : Nat) (l : List Nat) : ∀ (s : State) (k : Core), (∀ w ∈ l, k.noUncorrectable (8 * w) 8) →
    ∃ r n b ce, l.foldl (fun (o : State × Core × Bool) w => if o.2.2 then eccCheck o.1 c o.2.1 port (8 * w) 8 else o)
      (s, k, true) = ({ s with reports := r, free := n }, { k with banks := b, ceCount := ce }, true) := by
  induction l with
  | nil => intro s k _; exact ⟨s.reports, s.free, k.banks, k.ceCount, rfl⟩
  | cons w l ih =>
    intro s k h
    obtain ⟨r, n, b, ce, e⟩ := eccCheck_clean s c k port (8 * w) 8 (h w (List.mem_cons_self ..))
    obtain ⟨r', n', b', ce', e'⟩ := ih { s with reports := r, free := n } { k with banks := b, ceCount := ce }
      (fun v hv => h v (List.mem_cons_of_mem _ hv))
    refine ⟨r', n', b', ce', ?_⟩
    rw [List.foldl_cons, if_pos rfl, e, e']

/-- An armed injection changes the stored errors and itself only. -/
theorem Core.injectWrite_frame (k : Core) (port off free : Nat) :
    ∃ ec inj, k.injectWrite port off free = { k with ecc := ec, inject := inj } := by
  unfold Core.injectWrite
  split
  · split
    · exact ⟨_, _, rfl⟩
    · exact ⟨k.ecc, k.inject, rfl⟩
  · exact ⟨k.ecc, k.inject, rfl⟩

/-- What a write does to the core's view of the bytes that it covers. -/
theorem Core.written_frame (k : Core) (port off len : Nat) : ∃ b ib ec,
    ((k.overwritten off len).granted port off len).invalidate off len = { k with banks := b, ibuf := ib, ecc := ec } :=
  ⟨_, _, _, rfl⟩

/-- A write whose partial words hold no uncorrectable error goes through: the bytes stand in memory, and of the core only
its banks, its error counts, its buffered lines and its armed injection may change. -/
theorem spWrite_clean (s : State) (c : CoreRef) (k : Core) (port off : Nat) (bs : List Byte)
    (h : ∀ e ∈ k.ecc, e.2.correctable = true) :
    ∃ r n b ce ib ec inj, spWrite s c k port off bs =
      ⟨{ s with reports := r, free := n, mem := memWrite s.mem (spAddr c off) bs },
        { k with banks := b, ceCount := ce, ibuf := ib, ecc := ec, inject := inj }, true, []⟩ := by
  unfold spWrite
  split
  · next e => subst e; exact ⟨s.reports, s.free, k.banks, k.ceCount, k.ibuf, k.ecc, k.inject, rfl⟩
  · obtain ⟨r, n, b, ce, e⟩ := partial_clean c port (partialWords off bs.length) s k (fun w _ x hx _ _ => h x hx)
    dsimp only
    rw [e]
    obtain ⟨b', ib, ec, g⟩ := Core.written_frame (port := port) { k with banks := b, ceCount := ce } off bs.length
    obtain ⟨ec', inj, g'⟩ := Core.injectWrite_frame
      { ({ k with banks := b, ceCount := ce } : Core) with banks := b', ibuf := ib, ecc := ec } port off n
    refine ⟨r, n + 1, b', ce, ib, ec', inj, ?_⟩
    rw [if_neg (fun e => Bool.noConfusion e)]
    dsimp only
    rw [g, g']
    rfl

end Sys2Proof.Machine
end

