-- ==== Sys2Proof/Tests/Slice0.lean ====
section
/-!
SUPPORT. The checks of this model: a term that each well-formedness check refuses, the manual's worked examples, and for
every obligation that has hypotheses a state and operands that meet them. Each takes at most one step.
-/

open Sys2Proof Sys2Proof.Machine

set_option Elab.async false
set_option synthInstance.maxSize 4000
set_option synthInstance.maxHeartbeats 2000000

namespace Sys2Proof.Tests

theorem allSome {α : Type} {o : Option α} {P : α → Prop} [DecidablePred P] (h : (o.all fun a => decide (P a)) = true) :
    ∀ a, o = some a → P a := by
  intro a e; subst e; simpa using h

theorem notHbm {x : PAddr} (h : (match x with | .hbm _ => false | _ => true) = true) : ∀ a, x ≠ .hbm a := by
  rintro a rfl; cases h

/-- The first core of the first die. -/
def c0 : CoreRef := ⟨0, 0⟩

/-- A panel that is ready: the first die of partition 1, which host die 0 owns, with region 0 on. -/
def live : State :=
  { State.reset with
    panel := { State.reset.panel with ready := true, panelId := 7, liveStacks := 0xFFFFFFFF }
    dies := [(0, { alive := true, clocks := true, assigned := true, part := 1, job := 3, net := .running, ranges := [(0, 3)] })]
    regions := [(0, { state := .own })]
    parts := [(1, { img := { ranges := [(0, 3)] }, state := .running, rows := 1, cols := 1 })] }

/-- A core that runs, with every bank on and a few register values. -/
def runs : Core :=
  { mode := .run, powered := 0xFFFF, placed := true, partReg := 0x11100, g := [(1, 0x80), (2, 5), (3, 0xFFFFFFFC), (4, 0xFFFFFE00)], pc := 0x100 }

def coreIs (k : Core) : State := { live with cores := [(0, k)] }

def store1 : RowWrite := { off := 0x80, bytes := [1, 2, 3, 4] }

/-- The same with a full store buffer. -/
def full : Core := { runs with stores := [store1, { off := 0xC0, bytes := [5] }, { off := 0xC1, bytes := [6] }, { off := 0xC2, bytes := [7] }] }

/-- Descriptors of the network queue (d0; d1 with a span), of a copy (d2, d3) and of the tensor engine (d4 to d7). -/
def desc : Core :=
  { runs with d := [(0, 0x00000000040001000000800000000400), (1, 0x00010000040001000000800000000400)] ++
    [(2, 0x00010000000000000000800000000000), (3, 0x00000000000010000000000000000001)] ++
    [(4, 0x00100010000000000000004000401000), (5, 0x00100010000000000000004000402000)] ++
    [(6, 0x00100010000000000000004000603000), (7, 0x00100010000000000000004000504000)] }

def aadd0 : NInstr :=
  { op := .aadd, desc := 0, remote := 0x800000000400, local_ := 0, length := 4, ctr := 0, ce := false, route := 0, addend := 9, flow := 1 }

/-- The same core after one job's worth of full queues. -/
def busy : Core :=
  { desc with tq := List.replicate 8 ⟨.tmma, 0, 0, 0, 0, 0, false, false, 0, 0, 0, false⟩
              nq := List.replicate 16 aadd0
              cq := List.replicate 4 ⟨0x100, 0x400, 64, 0, false⟩ }

def mma0 : TInstr := ⟨.tmma, 0, 0, 0, 0, 0, false, false, 0, 0, 0, false⟩

def mma1 : TInstr := { mma0 with started := true }

def clear1 : TInstr := { mma1 with op := .tload, mode := 1, acc := 2 }

def clearing : Core := { desc with tq := [clear1], acc := [(256, { val := 5 }), (512, { val := 6 })] }

def working : Core := { desc with tq := [mma1] }

def copy0 : CInstr := ⟨0x100, 0x400, 64, 0, false⟩

/-- Descriptors whose remote address (d1) or length (d2) is not a multiple of 4. -/
def odd : Core := { runs with d := [(1, 0x00010000040001000000800000000402), (2, 0x00000000042001000000800000000400)] }

def counts : Core :=
  { runs with ccnt := [(1, { count := 3, total := 8, armed := true }), (2, { total := 0xFFFFFF }), (3, { count := 8, total := 8, armed := true })] }

def chans : Core :=
  { runs with sync := [(0, { bound := true, group := 2 }), (1, { bound := true, arrived := true })] ++
    [(15, { bound := true, released := true })] }

def store1' : RowWrite := { off := 0x40, bytes := [9] }

def banky : Core :=
  { runs with banks := [(1, { ingress := some store1' }), (2, { deferred := [store1], corrections := [0x80] })] ++
    [(15, { scrubRow := 510 })] }

def zeroed : State :=
  { coreIs { runs with powered := 0x7FFF, zeroising := 0x8000 } with parts := [], mem := [(2 ^ 47 + 0x3C0, 7), (2 ^ 47 + 0x400, 8)] }

/-- A packet of the running job to offset 0x400 of the first core, and others like it. -/
def pkt : Packet :=
  pktSeal { opcode := 1, dest := 2 ^ 47 + 0x400, len := 4, part := 1, job := 3, payload := [1, 2, 3, 4], srcX := 1, ctr := 5, ctrEn := true }

def atomic : Packet := pktSeal { pkt with opcode := 5, notify := true }

def rreq : Packet := pktSeal { pkt with opcode := 3, len := 64, payload := [] }

def done4 : Packet := pktSeal { pkt with opcode := 9, vc := 3 }

def far : Packet := pktSeal { pkt with dest := 2 ^ 47 + 2 ^ 37 + 0x400 }

def placedCore : State := coreIs runs

/-- A router with a last flit from the culvert for its core, one from the core for the next, and a packet that has just come. -/
def routed : State :=
  { placedCore with
    routers := [(0, { inb := [(8, []), (9, [⟨pkt, 0⟩]), (16, [⟨far, 1⟩]), (20, [⟨pkt, 1⟩])]
                      lock := [(4, some ⟨4, 0, far⟩), (16, some ⟨5, 0, pkt⟩)] })]
    edges := [(1, { state := 1 })] }

/-- An input that a router's output serves. -/
def cand (inp : Nat) : Cand := { rank := 4, inp, vc := 0 }

/-- A row cast of one target, the first core. -/
def cast1 : Packet := pktSeal { pkt with opcode := 6, span := 1 }

/-- Entry 7, a collector of two contributors in one row, and entry 8, a unicast flume from the first core to itself. -/
def flume7 : Nat := 7 + 2 * 2 ^ 12 + 2 * 2 ^ 102 + 2 ^ 111

def flume8 : Nat := 8

def flit1 : FlumeFlit := { data := List.replicate 64 7 }

def hop1 : FlumeHop := { part := 1, flume := 7, inp := 4, out := 5, share := 8, buf := [flit1] }

def coreIsJob (k : Core) : State :=
  { coreIs k with parts := [(1, { state := .running, rows := 1, cols := 1, img := { flumes := [7 + 2 * 2 ^ 12 + 2 * 2 ^ 102 + 2 ^ 111, 8] } })] }

def adds : Core :=
  { runs with ep := [(0, { valid := true, role := 3, flume := 7, size := 1 })], flumeOut := [(0, [flit1])], contrib := [(0, [flit1])] }

def collects : State := { coreIsJob adds with cores := [(0, adds), (1, adds)], routers := [(1, { flumes := [hop1] })] }

def lands : Core :=
  { runs with ep := [(1, { valid := true, role := 1, flume := 8, base := 0x10, size := 4, pos := 3 })], flumeIn := [(1, [flit1])] }

/-- A control request to the first core. -/
def one : CtlHdr := { endpoint := 0 }

def debugSession : Session := { number := 5, origin := .host false, rights := 0x1F, minutes := 60, authorised := true }

/-- Members of barrier group 2 on one die and on two. -/
def member : Core := { runs with sync := [(0, { bound := true, group := 2, arrived := true })] }

def oneDie : State :=
  { coreIs member with
    dies := [(0, { (live.die 0) with arrivedMembers := [(2, [c0])] })]
    groups := [(2, { valid := true, part := 1, dies := 1, pending := 1 })] }

def twoDies : State := { oneDie with cores := [(0, member), (32, member)] }

def releasing1 : State :=
  { coreIs { member with mode := .wait, wait := .sync 0 } with groups := [(2, { valid := true, part := 1, releasing := [c0] })] }

def detLost : State :=
  { live with
    dies := [(0, { (live.die 0) with detLost := true })]
    parts := [(1, { state := .running, rows := 1, cols := 1, img := { detreq := true } })] }

/-- A write of the running job to HBM, and others like it. -/
def hpkt : Packet := pktSeal { pkt with dest := 0x400, ctrEn := false }

def site0 : Site := ⟨0, 0⟩

/-- Copy jobs of one 64-byte line: a FILL of the first line of HBM, a LOAD of it to the first core. -/
def fill1 : CopyJob := { desc := 2 ^ 112 + 2 ^ 128 + 2 ^ 215 + 0xDEADBEEF, srcX := 0, srcY := 0, part := 1, job := 3, flow := 0 }

def copies (j : CopyJob) : State := live.setMsd 0 { queues := [(0, [j])] }

def stacked : State := live.setStack 3 { state := 2, wbuf := [⟨64, 4⟩, ⟨0, 1⟩] }

def culverted : State := live.setCulvert 0 0 { live := 0xFF, state := 1 }

/-- A port that carries frames with keys in force, and frames that come to it. -/
def slot1 : LinkSlot := { chan := .request, cls := 0, body := .flit pkt 1 }

def frameOf (n : Word) : TxFrame := ⟨n, [slot1], none⟩

def linkPort : Port := { state := 2, keyed := true, rxSeq := 9, txSeq := 9, replay := [frameOf 3, frameOf 8] }

def linked : State := live.setPort 0 linkPort

def frame0 : Frame := { seq := 9, ackSeq := 5, nak := false, fecOk := true, tagOk := true, corrected := 0, slots := [] }

/-- Messages of panel 9 to group 5, and a panel whose partition 1 is bound to it. -/
def msg9 : RingMsg :=
  { origin := 9, seq := 1, group := 5, epoch := 1, barrier := 0, gen := 0, sum := 77, reason := 0, panels := 2, circuit := 100 }

def ringed : State :=
  { (live.setGroup 4 { valid := true, multi := true, part := 1, pending := 1 }).setPart 1
      { (live.part 1) with bound := some { group := 5, epoch := 1, root := 7, ports := [] } } with
    ring := { state := 2, own := [(.heartbeat, { msg9 with origin := 7 })] } }

/-- A host die that is ready, with queue pair 1, and a command of its for partition 1. -/
def host0 : HostIf :=
  { ready := true, dmaSize := 1, admRq := 0x0004000000001000
    queues := [(1, { valid := true, sqBase := 0x20000, sqLog2 := 4, rqBase := 0x10000, rqLog2 := 4, head := 2, tail := 2 })] }

def hosted : State :=
  { live with
    hosts := [(0, host0)]
    hostMem := [(0x100, 5), (0x102, 1), (0x104, 3), (0x20080, 1), (0x20081, 1)] }

def hc : Cmd := { origin := .host false, queue := 1, tag := 0x55, part := 1 }

def onQueue (p : QPair) : State := { hosted with hosts := [(0, { host0 with queues := [(1, p)] })] }

/-- Partition 1 in a state, its core 0 as it is given. -/
def partIs (p : PartState) (k : Core) : State :=
  { hosted.setPart 1 { (hosted.part 1) with state := p } with cores := [(0, k)] }

def ended : Core := { runs with mode := .halted, exitValid := true }

def hooked : Core := { runs with mode := .runtime, service := .hook 4, rtPc := 0x80 }

/-- An image of one die with an empty core section: its header's digest is the SHA-512 of its first 64 bytes. -/
def image : List Byte :=
  bytesOf 4 0x4A505A41 ++ bytesOf 2 1 ++ [1, 1] ++ bytesOf 4 0 ++ bytesOf 2 1 ++ bytesOf 50 0 ++
    (bytesOf 64 0xB0A07D1AC20ABB3B49F9C211597F3BAD9A0F502416C375C92C4C6DE7461FD64BBE2DE76DE91F651C8CF62D60ECFB131289728BDD55E762CD2AAA13A1A1DA5A48).reverse ++ bytesOf 8 2 ++ bytesOf 4 512 ++ bytesOf 372 0

def loadable : State := { partIs .idle {} with hostMem := memWrite [] 0x1000 image }

def testing : State := partIs .idle { testing := true }

def session5 : Session := { number := 5, origin := .host false, rights := 0x1F, minutes := 60, authorised := true }

def authorised : State := { hosted with sec := { sessions := [session5] } }

def flumed : State :=
  { hosted.setPart 1 { (hosted.part 1) with img := { flumes := [8] } } with panel := live.panel }

/-- The first die without a partition. -/
def freed : State := hosted.setPart 1 {}

def withRegion (n : Nat) (r : Region) : State := freed.setRegion 0 n r

/-- The headworks die, and the first MSD, whose first hot spot is hot. -/
def hub : UnitRef := ⟨3, 0, 0⟩

def msd0 : UnitRef := ⟨1, 0, 0⟩

def hot : State := { hosted with panel := { hosted.panel with spots := [(32 * 256, 16 * 95)] } }

def held : State := { hosted with panel := { hosted.panel with rstLow := true } }

def fault1 : FaultRec := { seq := 9, source := 0x0509, cls := 0, classMap := 0 }

def retired0 : RetUnit := .core ⟨0, 0⟩ 7

def offered : State := hosted.setPart 1 { (hosted.part 1) with state := .idle, offer := some { seq := 1, draw := 0, bytes := [] } }

def h5 : Cmd := { hc with session := 5 }

def debugged (k : Core) : State := { authorised with cores := [(0, k)] }

/-- A word with one wrong check bit, and one with two. -/
def badWord : Core := { runs with ecc := [(16, { check := 3 })] }

/-- A bank whose correction waits. -/
def shut : Core := { runs with banks := [(2, { corrections := [0x80] })], stores := [store1] }

def nextStored : State := match exec (.sw c0 ⟨4, 1, 0⟩) (coreIs runs) with | .next t => t | _ => live

def nextLoaded : State := match exec (.lw c0 ⟨4, 1, 0⟩) nextStored with | .next t => t | _ => live

def loadsF1 : FmtI := ⟨4, 1, 0⟩

def loadTrapsF1 : FmtI := ⟨7, 2, 0⟩

def loadTrapsF2 : FmtI := ⟨4, 3, 0⟩

def loadTrapsF3 : FmtI := ⟨8, 2, 0⟩

def loadTrapsF5 : FmtI := ⟨16, 2, 0⟩

def loadTrapsF6 : FmtI := ⟨7, 0, 0x8000⟩

def storesF1 : FmtI := ⟨4, 1, 0⟩

def drainsS2 : State := coreIs { badWord with stores := [{ store1' with off := 0x80 }] }

def drainsW3 : RowWrite := { store1' with off := 0x80 }

def quartersF1 : FmtA := ⟨8, 0, 0, 0⟩

def lanesS1 : State := coreIs { runs with v := [(5, 7), (37, 0x7FC00000)] }

def vectorsF1 : FmtA := ⟨15, 0, 1, 8⟩

def vectorsF3 : FmtA := ⟨15, 0, 1, 0x35⟩

def vectorsF4 : FmtA := ⟨15, 0, 1, 0x36⟩

def loading : Core := { desc with tq := [{ mma1 with op := .tload, da := 0x00100010000000000000004000401000 }] }

def intMma : TInstr := { mma1 with da := 0x3 <<< 20, db := 0x3 <<< 20 }

def tensorIssuesF1 : FmtT := ⟨4, 5, 0, 1, 0, 0, 0, 0⟩

def tensorIssuesF2 : FmtT := ⟨4, 5, 0, 0, 0, 0, 0, 0⟩

def tensorIssuesF5 : FmtT := ⟨4, 5, 0, 2, 0, 0, 0, 0⟩

def tensorIssuesV6 : Word := wordT 0x24 ⟨4, 5, 0, 2, 0, 0, 0, 0⟩

def tensorIssuesV7 : Word := wordT 0x25 ⟨4, 5, 0, 2, 0, 0, 0, 0⟩

def tensorIssuesV8 : Word := wordT 0x26 ⟨4, 5, 0, 2, 0, 0, 0, 0⟩

def tensorIssuesV9 : Word := wordT 0x27 ⟨4, 5, 0, 2, 0, 0, 0, 0⟩

def tensorStepsQ1 : List TInstr := { mma0 with started := true } :: busy.tq.drop 1

def tensorStepsN2 : TInstr := { mma1 with op := .tload, da := 0x00100010000000000000004000401000 }

def tensorStepsS3 : State := coreIs { working with tq := [intMma] }

def tensorStepsF4 : ResidueFail := ⟨0, 0, false⟩

def netIssuesF1 : FmtN := ⟨0, 0, 0, 0, 0, 0⟩

def netIssuesF2 : FmtN := ⟨0, 0, 0, 0, 2, 1⟩

def netIssuesF3 : FmtN := ⟨1, 0, 0, 0, 0, 0⟩

def netIssuesF5 : FmtN := ⟨2, 0, 0, 0, 0, 0⟩

def netIssuesV7 : Word := wordN 0x28 ⟨0, 0, 0, 0, 2, 1⟩

def netIssuesV8 : Word := wordN 0x29 ⟨0, 0, 0, 0, 2, 1⟩

def netIssuesV9 : Word := wordN 0x2A ⟨0, 0, 0, 0, 2, 1⟩

def netIssuesV10 : Word := wordN 0x2B ⟨0, 0, 0, 0, 2, 1⟩

def netIssuesV11 : Word := wordN 0x2C ⟨0, 0, 0, 0, 2, 1⟩

def netIssuesV12 : Word := wordN 0x2D ⟨0, 0, 0, 0, 2, 1⟩

def netTrapsF1 : FmtN := ⟨0, 0, 0, 0, 3, 0⟩

def netTrapsF2 : FmtN := ⟨0, 0, 0, 2, 0, 0⟩

def netTrapsF3 : FmtN := ⟨0, 0, 0, 4, 0, 0⟩

def netTrapsF4 : FmtN := ⟨1, 0, 0, 0, 0, 0⟩

def netTrapsF5 : FmtN := ⟨2, 0, 0, 0, 0, 0⟩

def netTrapsF6 : FmtN := ⟨0, 0, 0, 0, 0, 0⟩

def netStepsS1 : State := coreIs { desc with cq := [copy0] }

def netStepsS2 : State := { coreIs { desc with nq := [aadd0], ecc := [(32, { check := 3 })], cq := [copy0] } with dies := [(0, { (live.die 0) with net := .reset })] }

def countersF1 : FmtN := ⟨0, 1, 0, 1, 0, 0⟩

def countersF2 : FmtN := ⟨0, 2, 0, 1, 0, 0⟩

def countersF3 : FmtN := ⟨0, 3, 0, 1, 0, 0⟩

def countersF5 : FmtN := ⟨0, 1, 0, 1, 0, 1⟩

def countersS6 : State := coreIs { runs with ccnt := [(1, { total := 8, decl := some ⟨0, 0, 0, 0⟩ })] }

def countersS7 : State := coreIs { counts with mode := .wait, wait := .counter 3 }

def syncsE1 : FmtS := ⟨0, 0, 16⟩

def syncsI2 : Instr := .flag c0 ⟨0, 0, 3⟩

def csrsI1 : Instr := .csrr c0 ⟨4, 0, 9⟩

def csrsF3 : FmtI := ⟨4, 0, 9⟩

def csrsI6 : Instr := .csrw c0 ⟨4, 1, 0⟩

def csrTrapsF1 : FmtI := ⟨4, 1, 5⟩

def csrTrapsF4 : FmtI := ⟨4, 1, 9⟩

def csrTrapsF5 : FmtI := ⟨3, 0, 4⟩

def csrTrapsF6 : FmtI := ⟨3, 0, 0x16⟩

def logs (n : Nat) : State := (coreIs runs).setPart 1 { (live.part 1) with logs := List.replicate n (0, 0, [0, 0, 0, 0]) }

def systemsE1 : FmtS := ⟨0, 1, 0⟩

def systemsS2 : State := { coreIs runs with parts := [] }

def systemsS3 : State := { coreIs runs with waiters := [(.log, hc)] }

def systemsS4 : State := coreIs { runs with mode := .runtime, halting := some 5 }

def systemsS5 : State := coreIs { runs with mode := .runtime }

def systemsS6 : State := coreIs { runs with halting := some 5 }

def systemsS7 : State := coreIs { busy with halting := some 5 }

def trapEntryE1 : CoreRef := ⟨1, 0⟩

def coreEventsS1 : State := coreIs { runs with pc := 0x7FFFC }

def coreEventsF3 : FmtB := ⟨2, 0x1FFFFF⟩

def coreEventsS4 : State := coreIs { runs with debugStop := true, ibuf := [4] }

def banksS1 : State := coreIs { banky with ecc := [(8, { check := 3 })] }

def banksS2 : State := coreIs { banky with ecc := [(16, { check := 3 })], banks := [(2, { deferred := [{ store1 with bytes := [1] }] })] }

def banksW3 : RowWrite := { store1 with bytes := [1] }

def banksS8 : State := coreIs { runs with banks := [(2, { corrections := [0x80] })], stores := [store1] }

def notify4 : Packet := pktSeal { pkt with opcode := 2, notify := true }

def flashed : State := { placedCore with flash := { placedCore.flash with retCores := [(⟨0, 0⟩, 0)] } }

def checksP1 : Packet := { pkt with hcrc := 1 }

def checksI2 : Instr := .write { pkt with hcrc := 1 } [] none

def checksS3 : State := coreIs { runs with testing := true }

def checksP4 : Packet := pktSeal { pkt with job := 4 }

def checksI5 : Instr := .write (pktSeal { pkt with job := 4 }) [] none

def checksP6 : Packet := pktSeal { pkt with part := 2 }

def checksI7 : Instr := .write (pktSeal { pkt with part := 2 }) [] none

def checksP8 : Packet := pktSeal { pkt with offPanel := true, dpanel := 7, part := 2 }

def checksI9 : Instr := .write (pktSeal { pkt with offPanel := true, dpanel := 7, part := 2 }) [] none

def checksS10 : State := { placedCore with parts := [(1, { (live.part 1) with bound := some { group := 5, epoch := 1, root := 7, ports := [] } })] }

def checksP11 : Packet := pktSeal { pkt with dest := 0x400 }

def checksI12 : Instr := .write (pktSeal { pkt with dest := 0x400 }) [] none

def checksP13 : Packet := pktSeal { pkt with dest := 2 ^ 46 }

def checksI14 : Instr := .write (pktSeal { pkt with dest := 2 ^ 46 }) [] none

def checksP15 : Packet := pktSeal { pkt with dest := 2 ^ 47 + 0x7FFFE }

def checksI16 : Instr := .write (pktSeal { pkt with dest := 2 ^ 47 + 0x7FFFE }) [] none

def checksS17 : State := coreIs { runs with powered := 0xFFFE }

def checksS18 : State := coreIs { runs with arrived := [pktSeal { pkt with route := 1 }, pktSeal { pkt with route := 1, payload := [9, 9, 9, 9] }] }

def checksP19 : Packet := pktSeal { pkt with route := 1, payload := [9, 9, 9, 9] }

def checksI20 : Instr := .write (pktSeal { pkt with route := 1, payload := [9, 9, 9, 9] }) [] none

def readsS1 : State := coreIs { runs with requests := List.replicate 8 rreq }

def readsS2 : State := coreIs { runs with requests := [rreq] }

def readsS3 : State := coreIs { runs with requests := [rreq], ecc := [(128, { check := 3 })] }

def readsS4 : State := coreIs { runs with requests := [rreq], stores := [store1], banks := [(0, { aged := [1] })] }

def readsS5 : State := { coreIs { runs with requests := [rreq] } with dies := [(0, { (live.die 0) with net := .reset })] }

def readsS6 : State := coreIs { runs with requests := [pktSeal { rreq with len := 8, dest := 2 ^ 47 + 2 ^ 46 + 0x400 }] }

def readsP7 : Packet := pktSeal { rreq with len := 8, dest := 2 ^ 47 + 2 ^ 46 + 0x400 }

def readsP10 : Packet := pktSeal { done4 with status := 1 }

def hop8 : FlumeHop := { part := 1, flume := 8, inp := 5, out := 4, share := 8, earned := 64, buf := [flit1] }

def passing : State := { coreIsJob runs with routers := [(0, { flumes := [hop8] })] }

/-- A packet on channel 1, and one for a core of the next die. -/
def vc1pkt : Packet := pktSeal { pkt with vc := 1 }

def beyond : Packet := pktSeal { pkt with dest := 2 ^ 47 + 40 * 2 ^ 37 + 0x400 }

def edge31 : CoreRef := ⟨31, 0⟩

def barred : State := { placedCore with routers := [(31, { inb := [(16, [⟨beyond, 0⟩])] })], edges := [(1, { state := 3 })] }

def heads : State := { placedCore with routers := [(0, { inb := [(20, [⟨pkt, 0⟩])] })], edges := [(1, { state := 1, inject := some 2 })] }

def ages : State := { placedCore with routers := [(0, { inb := [(9, [⟨vc1pkt, 0⟩])], aged := [2] })] }

def turns : State := { placedCore with routers := [(0, { inb := [(4, [⟨cast1, 0⟩])] })] }

def full4 : State := { collects with cores := [(0, { adds with contrib := [(0, [flit1, flit1, flit1, flit1])] })] }

def hubbed (n : BitVec 8) (multi : Bool) : State :=
  { twoDies with groups := [(2, { valid := true, part := 1, dies := 2, pending := n, multi, sentDies := [⟨0, 0⟩], arrivedDies := [⟨0, 1⟩] })] }

def heldOne : State := { oneDie with dies := [(0, { (oneDie.die 0) with detLost := true })], parts := [(1, { (live.part 1) with img := { (live.part 1).img with detreq := true } })] }

def forwardsF1 : Flit := ⟨pkt, 1⟩

def forwardsF2 : Flit := ⟨pkt, 0⟩

def forwardsD5 : Site := ⟨0, 0⟩

def forwardsF6 : Flit := ⟨beyond, 0⟩

def forwardsF7 : Flit := ⟨vc1pkt, 0⟩

def forwardsW8 : Cand := { rank := 2, inp := 5, vc := 2 }

def debugged1 : State := { coreIs { runs with mode := .runtime, service := .debug } with sec := { placedCore.sec with sessions := [debugSession] } }

def leg7 : FlumeHop := { part := 1, flume := 7, inp := 4, out := 1, share := 8, leg := some false }

/-- The collector's first contributor, with its leg and without. -/
def legged : State := { collects with routers := [(0, { flumes := [leg7] })] }

/-- Its end corner, linked to the next panel and from the panel before, with its own result and the upstream stream. -/
def linkedEnd (up down : Option (BitVec 6)) (col : List FlumeFlit) : State :=
  { coreIsJob adds with
    cores := [(1, adds)], routers := [(1, { flumes := [{ leg7 with out := 4 }] })], linkCol := [(4096 + 7, col)], linkIn := [(4096 + 7, [flit1])]
    parts := [(1, { state := .running, rows := 1, cols := 1, img := { flumes := [BitVec.ofNat 128 flume7], links := [⟨.collector 7 up down, none⟩] } })] }

def c1 : CoreRef := ⟨1, 0⟩

def made0 : Combined := ⟨{ adds with contrib := [(0, [])] }, [flit1]⟩

def made1 : Combined := match rowCombine flume7 0 0 adds with | some x => x | none => made0

def sent0 : State := match (legged.setCore c0 made1.k).toNext c0 1 7 flume7 made1.out with | some u => u | none => live

def landing (k : Core) : State := coreIsJob k

def flumesL1 : CollectorLink := ⟨some 2, some 3, none⟩

def flumesG2 : FlumeHop := { leg7 with out := 4 }

def flumesL3 : CollectorLink := ⟨some 2, none, none⟩

def flumesS4 : State := landing { lands with flumeSink := [(0, 0, 0)] }

def flumesS5 : State := landing { lands with powered := 0xFFFE, ep := [(1, { valid := true, role := 1, flume := 8, base := 0x10, size := 4, pos := 0 })] }

def coreControlS1 : State := { placedCore with ctlOut := [one] }

def coreControlS2 : State := { debugged1 with ctlOut := [one] }

def controlS2 : State := coreIs {}

def controlH3 : CtlHdr := { one with endpoint := 0x1F }

def controlH4 : CtlHdr := { one with bcast := 3 }

def controlS5 : State := { placedCore with ctlOut := [one] }

def controlS6 : State := coreIs { runs with slots := [(2, { used := true, ctr := 5, ce := true, left := 64 })] }

def controlA7 : AckMsg := ⟨0, 0, 2, 64, 0, 3, none, 1⟩

def controlA8 : AckMsg := ⟨0, 0, 3, 64, 0, 3, none, 1⟩

def controlA9 : AckMsg := ⟨0, 0, 2, 64, 1, 3, none, 1⟩

def controlA10 : AckMsg := ⟨0, 0, 2, 64, 0, 3, some 9, 1⟩

def barriersD1 : Site := ⟨0, 0⟩

def barriersS2 : State := { hubbed 1 false with parts := [(1, { (live.part 1) with img := { (live.part 1).img with detreq := true }, detHold := true })] }

def barriersS3 : State := { releasing1 with cores := [(0, runs)] }

def heard : State := live.setCulvert 0 0 { live := 0xFF, state := 1 }

def bindings : GroupBinding := { group := 5, epoch := 1, root := 7, ports := [] }

def bound1 : State := heard.setPart 1 { (live.part 1) with bound := some bindings }

def foreign1 : Packet := pktSeal { hpkt with offPanel := true, dpanel := 7, linkTag := 0xFFFF }

def uncorr : State := { heard with hbmErr := [(16, { bytes := 3 })] }

def hbmPacketsP1 : Packet := { hpkt with notify := true, ctrEn := true }

def hbmPacketsP2 : Packet := { hpkt with opcode := 5 }

def hbmPacketsP3 : Packet := { hpkt with opcode := 3 }

def hbmPacketsP4 : Packet := { hpkt with opcode := 8 }

def hbmPacketsP5 : Packet := { hpkt with dest := 2 ^ 41 - 64 }

def hbmPacketsP6 : Packet := { hpkt with dest := 2 ^ 40 }

def hbmPacketsP7 : Packet := { hpkt with dest := 2 ^ 46 }

def hbmPacketsP8 : Packet := { hpkt with job := 4 }

def hbmPacketsP9 : Packet := { hpkt with part := 2 }

def hbmPacketsS10 : State := heard.setMsd 0 { failed := true }

def copiesP1 : Packet := { hpkt with job := 4 }

def copiesS2 : State := heard.setMsd 0 { failed := true }

def copiesS3 : State := (copies fill1).setCulvert 0 0 { live := 0xFF, state := 1 }

def stacksS1 : State := live.setStack 3 { state := 0 }

def stacksS2 : State := { stacked with panel := { stacked.panel with liveStacks := 0 } }

def culvertsS1 : State := live.setCulvert 0 0 { live := 0xFF, state := 1, relock := some 1 }

def culvertsS2 : State := live.setCulvert 0 0 { live := 0xFB, state := 1, relock := some 2, relockWait := [3] }

def culvertsS3 : State := live.setCulvert 0 0 { live := 0xFB, state := 1, relock := some 2 }

def culvertsD4 : Site := ⟨15, 15⟩

def bg : BGroup := { valid := true, multi := true, part := 1, arrivedDies := [site0] }

def ringG (b : BGroup) (r : BitVec 16) (ports : List Byte) : State :=
  ((live.setGroup 4 b).setPart 1 { (live.part 1) with img := { detreq := false }, bound := some { group := 5, epoch := 1, root := r, ports } })

def portsS1 : State := live.setPort 3 { state := 3, half := 1 }

def portsS2 : State := live.setPort 0 { linkPort with tx := { count := 2 ^ 32 } }

def portsS3 : State := live.setPort 3 { state := 1, half := 2 }

def linkFramesF2 : Frame := { frame0 with seq := 10 }

def linkFramesF3 : Frame := { frame0 with tagOk := false }

def linkFramesS4 : State := live.setPort 0 { linkPort with fails := 7 }

def ringsS1 : State := ringG { bg with pending := 1 } 7 []

def ringsGb2 : GroupBinding := { group := 5, epoch := 1, root := 7, ports := [] }

def ringsGb3 : GroupBinding := { group := 5, epoch := 1, root := 7, ports := [0xFF, 1, 3] }

def ringsGb4 : GroupBinding := { group := 5, epoch := 1, root := 7, ports := [2, 1, 3] }

def ringsS5 : State := { ringG bg 7 [] with dies := [(0, { (live.die 0) with detLost := true })], parts := [(1, { (live.part 1) with img := { ranges := [(0, 3)], detreq := true }, bound := some { group := 5, epoch := 1, root := 7, ports := [] } })] }

def ringsS6 : State := { ringG { bg with pending := 1 } 7 [] with ring := { state := 2 }, shadows := [(1, { role := 2, closed := [(0, 77)] })] }

def ringsS7 : State := { ringG bg 7 [] with shadows := [(1, { role := 2 })] }

def ringsS8 : State := { ringed with ring := { state := 2, seen := [(9, 1)] } }

def ringsS9 : State := { ringed with ring := { state := 2, own := [(.heartbeat, { msg9 with origin := 7 })] } }

def ringsM10 : RingMsg := { msg9 with origin := 7 }

def ringsGb12 : GroupBinding := { group := 5, epoch := 1, root := 8, ports := [] }

def hm : Cmd := { hc with origin := .mgmt }

def full128 : State := { hosted with waiters := List.replicate 128 (.job, hc) }

def heldBack : State := onQueue { valid := true, rqLog2 := 4, unfreed := 16, heldReplies := [{ tag := 1, status := 0, part := 1, queue := 1, intr := false, sqHead := 0, detail := [] }] }

def member2 : State := { hosted with ring := { state := 2, joining := [hc] } }

def badCmd : Cmd := { hc with bad := some 20 }

def treed : State := { partIs .idle runs with hostMem := memWrite [] 0x1000 ([1, 255] ++ List.replicate 62 0) }

def secret : State := ((partIs .idle runs).setPart 1 { (hosted.part 1) with state := .idle, secrets := some ⟨[], [], [], 0, 9, []⟩ }).setPort 0 { linkPort with sealedGroup := some 9 } |> fun s => { s with panel := { s.panel with routes := [(9, [0])] } }

def bindable : State := (partIs .idle runs).setPart 1 { (hosted.part 1) with state := .idle, bound := some bindings }

def refusedU1 : BringUp := {}

def refusedS2 : State := { hosted with panel := { hosted.panel with stage := 0xE } }

def repliesS1 : State := onQueue { valid := true, rqLog2 := 4, rqTail := 15 }

def repliesS2 : State := onQueue {}

def linkCommandsS1 : State := { hosted with hostMem := [(0x100, 5), (0x102, 1), (0x104, 3), (0x106, 255)] }

def linkCommandsS2 : State := { hosted with panel := { hosted.panel with idLock := true } }

def linkCommandsS3 : State := (hosted.setPart 1 { (hosted.part 1) with bound := some bindings })

def heldBackF2 : State := onQueue { valid := true, rqLog2 := 4, unfreed := 9, heldReplies := [{ tag := 1, status := 0, queue := 1, part := 1, intr := false, sqHead := 0, detail := [] }] }

def asked : State := onQueue { valid := true, sqBase := 0x20000, sqLog2 := 4, rqLog2 := 4, head := 2, tail := 3 }

def ordered1 : State := { onQueue { valid := true, sqBase := 0x20000, sqLog2 := 4, rqLog2 := 4, head := 2, tail := 3, started := [(1, [])] } with hostMem := [(0x20082, 1)] }

def wide : State := { hosted with hosts := [(0, { host0 with dmaSize := 0x100 })] }

def all16 : State := { hosted with parts := (List.range 16).map fun n => (n, { (live.part 1) with state := .idle, rows := 0, cols := 0 }) }

def multi1 : State := hosted.setPart 1 { (hosted.part 1) with state := .loaded, img := { multi := true } }

def logged : State := hosted.setPart 1 { (hosted.part 1) with logs := [(1, 2, [3, 4, 5, 6])] }

def gated1 (p : PState) : State := { partIs .idle {} with panel := { live.panel with pstate := p } }

def queuesR1 : Reply := { tag := 1, status := 0, queue := 1, part := 1, intr := false, sqHead := 0, detail := [] }

def queuesS2 : State := { hosted with panel := { hosted.panel with deadPairs := [3] }, hosts := [(0, { host0 with oneMod := true })] }

def partitionsS1 : State := onQueue { valid := true, rqLog2 := 4 }

def partitionsH2 : Cmd := { hc with queue := 2 }

def partitionsS3 : State := partIs .idle {}

def jobLoadsS1 : State := partIs .idle {}

def limited : State := { hosted.setPart 1 { (hosted.part 1) with state := .checkpoint, limit := 1 } with cores := [(0, hooked)] }

def mixed : State := { partIs .running hooked with cores := [(0, hooked), (1, { hooked with service := .hook 5, placed := true })] }

def holding : State := { hosted.setPart 1 { (hosted.part 1) with hold := true } with cores := [(0, ended)] }

def sealed1 (p : PartState) : State := (partIs p runs).setPart 1 { (hosted.part 1) with state := p, img := { sealed := true, ranges := [(0, 3)] } }

def jobsEndY1 : CoreRef := ⟨1, 0⟩

def registersS1 : State := { hosted with panel := { hosted.panel with idLock := true }, hosts := [(0, { host0 with dmaLock := true })] }

/-- A region of the first die beside one at its peak or not. -/
def askedFor : State := withRegion 5 { state := .waiting }

def waved : State := { askedFor with panel := { freed.panel with wave := [(site0, 5)] } }

def peaked (r : Region) : State := { (withRegion 5 r).setRegion 0 6 { state := .own, draw := 400, cap := 8 } with panel := { freed.panel with wave := [(site0, 5)] } }

def noLogic (r : Region) : State := { withRegion 5 r with dies := [(0, { (freed.die 0) with logicFailed := true })] }

def lateLoad : State := { partIs .loading runs with regions := [], parts := [(1, { (hosted.part 1) with state := .loading, img := { cores := [] } })] }

def railsS1 : State := withRegion 5 { state := .own }

def railsS2 : State := withRegion 5 { state := .waiting, nbWaiting := true }

def railsS3 : State := withRegion 5 { state := .ramping }

def railsS4 : State := noLogic { state := .ramping, phases := 0x1F }

def railsS5 : State := withRegion 5 { state := .ramping, phases := 0x1F }

def railsS6 : State := peaked { state := .waiting, nbWaiting := true }

def railsS7 : State := peaked { state := .waiting }

def railsS8 : State := { partIs .idle {} with panel := { hosted.panel with pstate := .idle } }

def railsS10 : State := railsS1.setCore (coreXY 20 0) { notice := some ⟨1, 1, 7⟩ }

def suppliesS1 : State := withRegion 5 { state := .own, vout := 700 }

def suppliesS2 : State := withRegion 5 { state := .ramping }

def suppliesU3 : UnitRef := ⟨5, 3, 0⟩

def suppliesU4 : UnitRef := ⟨1, 7, 0⟩

def suppliesU5 : UnitRef := ⟨2, 1, 0⟩

def suppliesS6 : State := withRegion 5 { state := .own, phases := 0x3F }

def suppliesS7 : State := noLogic { state := .own, phases := 0x3F }

def suppliesS8 : State := { freed.setDie 0 { alive := true, locked := true, clocks := true, det := true } with panel := { freed.panel with failedUnits := [⟨1, 7, 0⟩] } }

def suppliesS9 : State := freed.setDie 0 { alive := true, locked := false, transitFailed := true }

def sensorsS1 : State := { hosted with panel := { hosted.panel with coolState := 3, flow := 719 } }

def sensorsS2 : State := { hosted with panel := { hosted.panel with coolState := 4 } }

def low (n : BitVec 3) (r : Bool) : State := { hosted with panel := { hosted.panel with rstLow := true, ready := r, lastReset := n } }

def bad0 : BringUp := { hwdStrap := some 0 }

def withEdge (e : Edge) : State := hosted.setEdge 0 1 e

def inMaint : State := { partIs .idle runs with panel := { hosted.panel with stage := 0xE } }

def resetting : State := { hosted with resets := [.die 0 0 hc] }

def panelResetsB1 : BringUp := {}

def panelResetsB2 : BringUp := { fusesOk := false }

def panelResetsB3 : BringUp := { imageOk := false }

def panelResetsB4 : BringUp := { coolantReady := false }

def panelResetsS5 : State := { low 1 false with panel := { (low 1 false).panel with hwdHeld := true } }

def panelResetsS6 : State := { hosted with panel := { hosted.panel with ready := false } }

def panelResetsS7 : State := { hosted with panel := { hosted.panel with coolState := 4 } }

def dieResetsD1 : Site := ⟨12, 0⟩

def dieResetsD2 : Site := ⟨0, 15⟩

def dieResetsC3 : CoreRef := ⟨31, 31⟩

def dieResetsS4 : State := withEdge { state := 1 }

def dieResetsS5 : State := withEdge { state := 1, retrainDue := true }

def dieResetsS7 : State := { hosted with panel := { hosted.panel with hwdHeld := true } }

def dieResetsS8 : State := { hosted with panel := { hosted.panel with ready := false } }

def dieResetsD10 : Site := ⟨0, 12⟩

def hung1 : State := { (partIs .running { runs with still := 20 }) with panel := { hosted.panel with thresh := 10 } }

def faulty (f : FaultRec) (st : Bool) : State := { hosted with faults := [f], panel := { hosted.panel with stopped := st } }

def tested (l : List (RetUnit × BitVec 16 × Word)) : State := { freed with cores := [(0, { testing := true })], flash := { freed.flash with pendingRet := l } }

def engaged : State := { freed with panel := { freed.panel with engage := [2] } }

/-- Row 2 with a die that is retired, and with a flit in a router of its site. -/
def shifted : State := engaged.setDie 35 { retired := true }

def shifting : State := { shifted with routers := [(64 * 512 + 96, { inb := [(4, [⟨pkt, 0⟩])] })] }

def opening : State := { hosted with sec := { sessions := [{ session5 with authorised := false }] } }

def sealed2 : State := authorised.setPart 1 { (authorised.part 1) with secrets := some ⟨[], [], [], 0, 5, []⟩ }

def faultsR1 : Report := { source := 0x0303, site := 0x0100, unit := 5 }

def faultsR2 : Report := { source := 0x0101, part := 1 }

def faultsR3 : Report := { source := 0x0509 }

def faultsR4 : Report := { source := 0x0504 }

def faultsT5 : RecTrig := { kind := 9, data := [1, 2] }

def faultsT6 : RecTrig := { kind := 0 }

def faultsS8 : State := faulty { fault1 with cls := 0, source := 0x0303, opened := true } false

def faultsR9 : Report := { source := 0x0303 }

def faultsF10 : FaultRec := { fault1 with cls := 0, source := 0x0303, opened := true }

def faultsT11 : RecTrig := { kind := 1, withinMs := true }

def faultsS12 : State := { hosted with recorder := { hosted.recorder with trig := [(0, { enable := true, kind := 1 })] } }

def faultsS14 : State := faulty { fault1 with cls := 4 } true

def faultsF15 : FaultRec := { fault1 with cls := 4 }

def faultsS16 : State := faulty { fault1 with cls := 3, source := 0x0102 } true

def faultsF17 : FaultRec := { fault1 with cls := 3, source := 0x0102 }

def faultsS18 : State := { hosted with waiters := List.replicate 128 (.job, hc) }

def faultsS19 : State := { authorised with sec := { sessions := [{ session5 with origin := .host true }] } }

def faultsH20 : Cmd := { h5 with origin := .host true }

def retirementsD1 : Site := ⟨12, 0⟩

def retirementsD2 : Site := ⟨0, 15⟩

def retirementsS3 : State := tested [(.core ⟨0, 0⟩ 0, 0, 0)]

def retirementsS4 : State := { freed with flash := { freed.flash with pendingRet := [(retired0, 0x0101, 3)] } }

def retirementsWeirs5 : List Site := [⟨2, 8⟩]

def retirementsS6 : State := { freed with flash := { freed.flash with retLog := [(.core ⟨0, 0⟩ 1023, 0, 0)] } }

def four : State := { hosted with sec := { sessions := [{ session5 with number := 1 }, { session5 with number := 2 }, { session5 with number := 3 }, { session5 with number := 4 }] } }

def wideI2 (s : State) : State := { s with hosts := [(0, { host0 with dmaSize := 0x1000 })] }

def hurt : Core := { runs with ecc := [(128, { check := 3 })] }

def askedJ : State := { hosted with fetched := [({ hc with tag := 7 }, bytesOf 2 0x0204 ++ List.replicate 62 0)] }

def stray : State := { hosted with fetched := [({ hc with tag := 7 }, bytesOf 2 0x0FFF ++ List.replicate 62 0)] }

def queued : State := { hosted with pending := [.panelRstN] }

def stepsH1 : Cmd := { hc with tag := 7 }

def stepsI2 : Instr := .partQuery { hc with tag := 7 }

/-! ### WellFormed refuses (R11, R154, R157, R161, R175, R219, R246, R280, R453) -/

theorem wf_ok : (Instr.write pkt [] none).wf = true := by decide +kernel
theorem ill_packet_length : (Instr.write { pkt with len := 2049, payload := List.replicate 2049 0 } [] none).wf = false := by decide +kernel
theorem ill_packet_payload : (Instr.write { pkt with payload := [1] } [] none).wf = false := by decide +kernel
theorem ill_write_opcode : (Instr.write { pkt with opcode := 2 } [] none).wf = false := by decide +kernel
theorem ill_notify_opcode : (Instr.writeNotify pkt [] none).wf = false := by decide +kernel
theorem ill_read_payload : (Instr.readReq { pkt with opcode := 3 } false).wf = false := by decide +kernel
theorem ill_response_opcode : (Instr.readResp pkt [] none).wf = false := by decide +kernel
theorem ill_atomic_opcode : (Instr.atomicAdd pkt [] none).wf = false := by decide +kernel
theorem ill_rowcast_opcode : (Instr.rowcast c0 pkt [] none).wf = false := by decide +kernel
theorem ill_colcast_opcode : (Instr.colcast c0 pkt [] none).wf = false := by decide +kernel
theorem ill_completion_payload : (Instr.completion { pkt with opcode := 9, payload := [1] } false).wf = false := by decide +kernel
theorem ill_site_row : (Instr.msdPacket 0 ⟨12, 0⟩ pkt).wf = false := by decide +kernel
theorem ill_copy_site : (Instr.copyDescriptor 0 ⟨15, 0⟩ 0 pkt).wf = false := by decide +kernel
theorem ill_frame_slots : (Instr.linkFrame 0 { frame0 with slots := List.replicate 17 slot1 }).wf = false := by decide +kernel
theorem ill_frame_packet : (Instr.linkFrame 0 { frame0 with slots := [⟨.request, 0, .flit { pkt with len := 2 } 0⟩] }).wf = false := by
  decide +kernel
theorem ill_spwrite : (Instr.spwrite one 0 (List.replicate 65 0) []).wf = false := by decide +kernel
theorem ill_regread_broadcast : (Instr.regread { one with bcast := 1 } 0).wf = false := by decide +kernel
theorem ill_fence_broadcast : (Instr.fence { one with bcast := 2 }).wf = false := by decide +kernel
theorem ill_record_broadcast : (Instr.record { one with bcast := 3 } { source := 0 }).wf = false := by decide +kernel
theorem ill_edge_count : (Instr.edgeCrcFail ⟨0, 0⟩ 0 0).wf = false := by decide +kernel
theorem ill_sync_count : (Instr.syncCulvertLoss ⟨0, 0⟩ 3).wf = false := by decide +kernel
theorem ill_part_info : (Instr.panelInfo { hc with part := 16 } 0 0).wf = false := by decide +kernel
theorem ill_part_create : (Instr.partCreate { hc with part := 0xFE } 0 0 1 1).wf = false := by decide +kernel
theorem ill_part_load : (Instr.jobLoad { hc with part := 16 } 0 0 false).wf = false := by decide +kernel
theorem ill_tensor_check : (Instr.tensorComplete c0 0 (some ⟨5, 0, false⟩)).wf = false := by decide +kernel

/-! ### The manual's worked examples -/

/-- A property of the next state. -/
def ran (o : Host.Outcome State Fault Refusal) (f : State → Bool) : Bool :=
  match o with
  | .next t => f t
  | _ => false

/-- An outcome that is a next state is the next state that a test names by it. -/
theorem ran_next {o : Host.Outcome State Fault Refusal} (h : ran o (fun _ => true) = true) :
    o = .next (match o with | .next t => t | _ => live) := by
  cases o <;> first | rfl | cases h

/-- Every placed core's progress is sampled (R362). -/
def sampled1 (s : State) : State := { s with cores := tmap {} (fun key k => if s.samples key k then k.sampled else k) s.cores }

/-- No row of the table gives bits, so no word spells a command. -/
theorem test_no_words : decodeTableWord 32 0x08E7FFFF = none := by decide +kernel

/-- Chapter 01, under "Panel addresses": core X = 200, Y = 75, byte offset 0x1_2340. -/
theorem test_scratchpad_address : spAddr ⟨200, 75⟩ 0x12340 = 0x9904B0012340 := by decide +kernel
theorem test_scratchpad_decode : decodeAddr 0x9904B0012340 = .sp 200 75 0x12340 := by decide +kernel

/-- Chapter 01, under "Straps": the compute stack at row 5, column 9, and MSD 3. -/
theorem test_strap_compute : strapWord 5 9 0 2 = 0x5904 := by decide +kernel
theorem test_strap_msd : strapWord 3 15 1 2 = 0x3F25 := by decide +kernel

/-- Chapter 01, under "Changing a site map": the die at column 5 of row 4 is retired and the spare is engaged. -/
theorem test_engage : ran (exec (.spareEngage 4 [])
    { freed with dies := [(69, { retired := true })], panel := { freed.panel with engage := [4] } }) (fun t =>
      decide ((t.row 4).lcol = 0xCBA987643210 ∧ (t.row 4).leftOut = 5 ∧ (t.row 4).epoch = 1)) = true := by decide +kernel

/-- Chapter 02, under R46: ADDI g7, g7, -1 and SEND d2, ctr 5, ce, gs g9, adaptive. -/
theorem test_addi_word : wordI 0x02 ⟨7, 7, 0xFFFF⟩ = 0x08E7FFFF := by decide +kernel
theorem test_send_word : wordN 0x28 ⟨2, 5, 1, 9, 0, 0⟩ = 0xA10B4800 := by decide +kernel
theorem test_addi_read : decodeSeush c0 0x08E7FFFF = .addi c0 ⟨7, 7, 0xFFFF⟩ := by decide +kernel
theorem test_send_read : decodeSeush c0 0xA10B4800 = .send c0 ⟨2, 5, 1, 9, 0, 0⟩ := by decide +kernel

/-- Chapter 06: the 2 KiB SEND to offset 0x1_2340 is cut at 0x1_2800. -/
theorem test_send_cut : cutRange 0x12340 2048 = [(0, 0x4C0), (0x4C0, 0x340)] := by decide +kernel

/-- Chapter 08, under R215: the HBM address 0x0001_8009_A800 with a granule of 16 KiB, before and after stack 3 is
retired. -/
theorem test_hbm_map_32 : live.hbmMap 1 0x18009A800 = some (6, 0x0C006800) := by decide +kernel
theorem test_hbm_map_31 : ({ live with panel := { live.panel with liveStacks := 0xFFFFFFF7 } } : State).hbmMap 1 0x18009A800 =
    some (20, 0x0C636800) := by decide +kernel

/-- Chapter 03: one K-group of eight BF16 products; products 0 and 1 differ. -/
def group8 (p : Nat × Nat) (q : Nat × Nat) : List (Fl × Fl) :=
  ([p, q, (0x3F80, 0x4000), (0x4040, 0xBF80), (0x3F00, 0x3F00), (0x3FC0, 0x4080), (0x8000, 0x40A0), (0x0001, 0x4000)] :
    List (Nat × Nat)).map fun e => (fmtBf16.decodeFlush e.1, fmtBf16.decodeFlush e.2)
theorem test_group_nan : combine 0 (group8 (0x7F00, 0x5F00) (0x7FC0, 0x3F80)) = (0x01FFE0000000, flNanSeen) := by decide +kernel
theorem test_group_cancels : combine 0 (group8 (0x7F00, 0x5F00) (0xFF00, 0x5F00)) = (0x010054000000, 0) := by decide +kernel
theorem test_group_huge : combine 0 (group8 (0x7F00, 0x5F00) (0, 0x3F80)) = (0x012F40000000, 0) := by decide +kernel
theorem test_write_huge : storeEntry 6 false 0x012F40000000 = (0x7F800000, flOverflow ||| flInexact) := by decide +kernel
theorem test_write_huge_sat : storeEntry 6 true 0x012F40000000 = (0x7F7FFFFF, flOverflow ||| flInexact) := by decide +kernel

/-- Chapter 03: the scale pairs 0xF0, 0xF8 and 0x01, 0x02 of FP8-A ones. -/
theorem test_scale_high : combine 0 [(applyScale 0xF0 (fmtFp8A.decode 0x38), applyScale 0xF8 (fmtFp8A.decode 0x38))] =
    (0x013A40000000, 0) := by decide +kernel
theorem test_scale_low : combine 0 [(applyScale 0x01 (fmtFp8A.decode 0x38), applyScale 0x02 (fmtFp8A.decode 0x38))] =
    (0x00C100000000, 0) := by decide +kernel

/-- Chapter 03: FP4-S scale selection for 13, -5, 7, 2.625, -0.3125 and +0. -/
theorem test_fp4_scale : fmtFp4.writeScaled false
    [.fin false 13 0, .fin true 5 0, .fin false 7 0, .fin false 21 (-3), .fin true 5 (-4), .zero false] =
    (0x81, [5, 0xA, 4, 1, 0, 0], flInexact ||| flUnderflow) := by decide +kernel

/-- Chapter 07: 2^24 + 1 + 1 in either order, and 1 + 2^-8 + 2^-8 from BF16. -/
theorem test_order_first : vfadd false false 0x4B800000 0x3F800000 = (0x4B800000, flInexact) := by decide +kernel
theorem test_order_last : vfadd false false 0x40000000 0x4B800000 = (0x4B800001, 0) := by decide +kernel
theorem test_bf16_partial : vfadd false false 0x3F808000 0x3B800000 = (0x3F810000, 0) := by decide +kernel
theorem test_bf16_delivered : (toBf16 false false 0x3F810000).1 = 0x3F81 := by decide +kernel

/-- Chapter 09, under R258: a block that begins with these four BF16 elements, over the link as FP8-B and as FP4-S. -/
def block4 : List Byte := [0x7A, 0x44, 0x8D, 0xBF, 0xC0, 0x3A, 0x00, 0x80] ++ List.replicate 56 0
theorem test_link_fp8 : ((encodeBlock ⟨.fp8b, false⟩ block4).1.take 3 = [0x7A, 0x78, 0xD0]) ∧
    (decodeBlockOf ⟨.fp8b, false⟩ false (encodeBlock ⟨.fp8b, false⟩ block4).1).1.take 4 = [0x80, 0x44, 0x80, 0xBF] := by
  decide +kernel
theorem test_link_fp4 : (encodeBlock ⟨.fp4s, false⟩ block4).1.take 2 = [0x87, 0x06] ∧
    (decodeBlockOf ⟨.fp4s, false⟩ false (encodeBlock ⟨.fp4s, false⟩ block4).1).1.take 4 = [0x80, 0x44, 0, 0] := by
  decide +kernel

/-- Chapter 06, under R172 and R173: a REGWRITE of 4 bytes to the die of region (2, 1), as its flits read. -/
def regwrite1 : CtlHdr := { endpoint := 0x10, destRow := 2, destCol := 1, tag := 5, part := 1 }
theorem test_control_read : ctlHdrOf (ctlWord 2 false 2 regwrite1) = regwrite1 := by decide +kernel

/-- R48: ADDI adds the sign-extended immediate modulo 2^32. -/
theorem test_addi_wraps : ran (exec (.addi c0 ⟨5, 2, 0xFFFA⟩) (coreIs runs)) (fun t =>
    (t.core c0).getG 5 == 0xFFFFFFFF && (t.core c0).pc == 0x104) = true := by decide +kernel


/-! ### Witnesses -/

/-- Meets the hypotheses of Obligations.IntegerInstructionResults. -/
theorem witness_integers :
    ((coreIs runs).ready c0 ∧ ((coreIs runs).core c0).pc.toNat + 4 < 2 ^ 19 ∧ ((3 : BitVec 2) = (3 : BitVec 2) ∨ (0 :
    BitVec 9) ≠ (0 : BitVec 9)) ∧ (1 : BitVec 5) ≠ (0 : BitVec 5) ∧ (0 : BitVec 5) = (0 : BitVec 5) ∧ 18 < 19) := by
  try unfold State.ready
  decide +kernel

/-- Meets the hypotheses of Obligations.BranchesAndJumps. -/
theorem witness_branches :
    ((coreIs runs).ready c0 ∧ ((coreIs runs).core c0).pc.toNat + 4 < 2 ^ 19) := by
  try unfold State.ready
  decide +kernel

/-- Meets the hypotheses of Obligations.LoadsReadTheScratchpad. -/
theorem witness_loads :
    ((coreIs runs).ready c0 ∧ (BitVec.toNat (((coreIs runs).core c0).getG loadsF1.rs1 + BitVec.signExtend 32
    loadsF1.imm) % 4 = 0 ∧ BitVec.toNat (((coreIs runs).core c0).getG loadsF1.rs1 + BitVec.signExtend 32 loadsF1.imm)
    < 2 ^ 19 ∧ ((coreIs runs).core c0).rangeOn (BitVec.toNat (((coreIs runs).core c0).getG loadsF1.rs1 +
    BitVec.signExtend 32 loadsF1.imm)) 4 = true) ∧ ((coreIs runs).core c0).opens 0 (BitVec.toNat (((coreIs runs).core
    c0).getG loadsF1.rs1 + BitVec.signExtend 32 loadsF1.imm)) 4 = true ∧ ((coreIs runs).core c0).noUncorrectable
    (BitVec.toNat (((coreIs runs).core c0).getG loadsF1.rs1 + BitVec.signExtend 32 loadsF1.imm)) 4 ∧ (BitVec.toNat
    (((coreIs runs).core c0).getG loadsF1.rs1 + BitVec.signExtend 32 loadsF1.imm) % 2 = 0 ∧ BitVec.toNat (((coreIs
    runs).core c0).getG loadsF1.rs1 + BitVec.signExtend 32 loadsF1.imm) < 2 ^ 19 ∧ ((coreIs runs).core c0).rangeOn
    (BitVec.toNat (((coreIs runs).core c0).getG loadsF1.rs1 + BitVec.signExtend 32 loadsF1.imm)) 2 = true) ∧ ((coreIs
    runs).core c0).opens 0 (BitVec.toNat (((coreIs runs).core c0).getG loadsF1.rs1 + BitVec.signExtend 32
    loadsF1.imm)) 2 = true ∧ ((coreIs runs).core c0).noUncorrectable (BitVec.toNat (((coreIs runs).core c0).getG
    loadsF1.rs1 + BitVec.signExtend 32 loadsF1.imm)) 2 ∧ (BitVec.toNat (((coreIs runs).core c0).getG loadsF1.rs1 +
    BitVec.signExtend 32 loadsF1.imm) % 1 = 0 ∧ BitVec.toNat (((coreIs runs).core c0).getG loadsF1.rs1 +
    BitVec.signExtend 32 loadsF1.imm) < 2 ^ 19 ∧ ((coreIs runs).core c0).rangeOn (BitVec.toNat (((coreIs runs).core
    c0).getG loadsF1.rs1 + BitVec.signExtend 32 loadsF1.imm)) 1 = true) ∧ ((coreIs runs).core c0).opens 0
    (BitVec.toNat (((coreIs runs).core c0).getG loadsF1.rs1 + BitVec.signExtend 32 loadsF1.imm)) 1 = true ∧ ((coreIs
    runs).core c0).noUncorrectable (BitVec.toNat (((coreIs runs).core c0).getG loadsF1.rs1 + BitVec.signExtend 32
    loadsF1.imm)) 1 ∧ (BitVec.toNat (((coreIs runs).core c0).getG loadsF1.rs1 + BitVec.signExtend 32 loadsF1.imm) % 16
    = 0 ∧ BitVec.toNat (((coreIs runs).core c0).getG loadsF1.rs1 + BitVec.signExtend 32 loadsF1.imm) < 2 ^ 19 ∧
    ((coreIs runs).core c0).rangeOn (BitVec.toNat (((coreIs runs).core c0).getG loadsF1.rs1 + BitVec.signExtend 32
    loadsF1.imm)) 16 = true) ∧ ((coreIs runs).core c0).opens 0 (BitVec.toNat (((coreIs runs).core c0).getG loadsF1.rs1
    + BitVec.signExtend 32 loadsF1.imm)) 16 = true ∧ ((coreIs runs).core c0).noUncorrectable (BitVec.toNat (((coreIs
    runs).core c0).getG loadsF1.rs1 + BitVec.signExtend 32 loadsF1.imm)) 16 ∧ loadsF1.rd.toNat < 8 ∧ (BitVec.toNat
    (((coreIs runs).core c0).getG loadsF1.rs1 + BitVec.signExtend 32 loadsF1.imm) % 128 = 0 ∧ BitVec.toNat (((coreIs
    runs).core c0).getG loadsF1.rs1 + BitVec.signExtend 32 loadsF1.imm) < 2 ^ 19 ∧ ((coreIs runs).core c0).rangeOn
    (BitVec.toNat (((coreIs runs).core c0).getG loadsF1.rs1 + BitVec.signExtend 32 loadsF1.imm)) 128 = true) ∧
    ((coreIs runs).core c0).opens 1 (BitVec.toNat (((coreIs runs).core c0).getG loadsF1.rs1 + BitVec.signExtend 32
    loadsF1.imm)) 128 = true ∧ ((coreIs runs).core c0).noUncorrectable (BitVec.toNat (((coreIs runs).core c0).getG
    loadsF1.rs1 + BitVec.signExtend 32 loadsF1.imm)) 128 ∧ loadsF1.rd.toNat < 16) ∧ ((coreIs badWord).ready c0 ∧
    BitVec.toNat (((coreIs badWord).core c0).getG loadsF1.rs1 + BitVec.signExtend 32 loadsF1.imm) % 4 = 0 ∧
    BitVec.toNat (((coreIs badWord).core c0).getG loadsF1.rs1 + BitVec.signExtend 32 loadsF1.imm) < 2 ^ 19 ∧ ((coreIs
    badWord).core c0).rangeOn (BitVec.toNat (((coreIs badWord).core c0).getG loadsF1.rs1 + BitVec.signExtend 32
    loadsF1.imm)) 4 = true ∧ ((coreIs badWord).core c0).opens 0 (BitVec.toNat (((coreIs badWord).core c0).getG
    loadsF1.rs1 + BitVec.signExtend 32 loadsF1.imm)) 4 = true ∧ ¬((coreIs badWord).core c0).noUncorrectable
    (BitVec.toNat (((coreIs badWord).core c0).getG loadsF1.rs1 + BitVec.signExtend 32 loadsF1.imm)) 4 ∧ BitVec.toNat
    (((coreIs badWord).core c0).getG loadsF1.rs1 + BitVec.signExtend 32 loadsF1.imm) % 2 = 0 ∧ BitVec.toNat (((coreIs
    badWord).core c0).getG loadsF1.rs1 + BitVec.signExtend 32 loadsF1.imm) < 2 ^ 19 ∧ ((coreIs badWord).core
    c0).rangeOn (BitVec.toNat (((coreIs badWord).core c0).getG loadsF1.rs1 + BitVec.signExtend 32 loadsF1.imm)) 2 =
    true ∧ ((coreIs badWord).core c0).opens 0 (BitVec.toNat (((coreIs badWord).core c0).getG loadsF1.rs1 +
    BitVec.signExtend 32 loadsF1.imm)) 2 = true ∧ ¬((coreIs badWord).core c0).noUncorrectable (BitVec.toNat (((coreIs
    badWord).core c0).getG loadsF1.rs1 + BitVec.signExtend 32 loadsF1.imm)) 2 ∧ BitVec.toNat (((coreIs badWord).core
    c0).getG loadsF1.rs1 + BitVec.signExtend 32 loadsF1.imm) % 1 = 0 ∧ BitVec.toNat (((coreIs badWord).core c0).getG
    loadsF1.rs1 + BitVec.signExtend 32 loadsF1.imm) < 2 ^ 19 ∧ ((coreIs badWord).core c0).rangeOn (BitVec.toNat
    (((coreIs badWord).core c0).getG loadsF1.rs1 + BitVec.signExtend 32 loadsF1.imm)) 1 = true ∧ ((coreIs
    badWord).core c0).opens 0 (BitVec.toNat (((coreIs badWord).core c0).getG loadsF1.rs1 + BitVec.signExtend 32
    loadsF1.imm)) 1 = true ∧ ¬((coreIs badWord).core c0).noUncorrectable (BitVec.toNat (((coreIs badWord).core
    c0).getG loadsF1.rs1 + BitVec.signExtend 32 loadsF1.imm)) 1 ∧ loadsF1.rd.toNat < 8 ∧ BitVec.toNat (((coreIs
    badWord).core c0).getG loadsF1.rs1 + BitVec.signExtend 32 loadsF1.imm) % 16 = 0 ∧ BitVec.toNat (((coreIs
    badWord).core c0).getG loadsF1.rs1 + BitVec.signExtend 32 loadsF1.imm) < 2 ^ 19 ∧ ((coreIs badWord).core
    c0).rangeOn (BitVec.toNat (((coreIs badWord).core c0).getG loadsF1.rs1 + BitVec.signExtend 32 loadsF1.imm)) 16 =
    true ∧ ((coreIs badWord).core c0).opens 0 (BitVec.toNat (((coreIs badWord).core c0).getG loadsF1.rs1 +
    BitVec.signExtend 32 loadsF1.imm)) 16 = true ∧ ¬((coreIs badWord).core c0).noUncorrectable (BitVec.toNat (((coreIs
    badWord).core c0).getG loadsF1.rs1 + BitVec.signExtend 32 loadsF1.imm)) 16 ∧ loadsF1.rd.toNat < 16 ∧ BitVec.toNat
    (((coreIs badWord).core c0).getG loadsF1.rs1 + BitVec.signExtend 32 loadsF1.imm) % 128 = 0 ∧ BitVec.toNat
    (((coreIs badWord).core c0).getG loadsF1.rs1 + BitVec.signExtend 32 loadsF1.imm) < 2 ^ 19 ∧ ((coreIs badWord).core
    c0).rangeOn (BitVec.toNat (((coreIs badWord).core c0).getG loadsF1.rs1 + BitVec.signExtend 32 loadsF1.imm)) 128 =
    true ∧ ((coreIs badWord).core c0).opens 1 (BitVec.toNat (((coreIs badWord).core c0).getG loadsF1.rs1 +
    BitVec.signExtend 32 loadsF1.imm)) 128 = true ∧ ¬((coreIs badWord).core c0).noUncorrectable (BitVec.toNat
    (((coreIs badWord).core c0).getG loadsF1.rs1 + BitVec.signExtend 32 loadsF1.imm)) 128) ∧ ((coreIs shut).ready c0 ∧
    BitVec.toNat (((coreIs shut).core c0).getG loadsF1.rs1 + BitVec.signExtend 32 loadsF1.imm) % 4 = 0 ∧ BitVec.toNat
    (((coreIs shut).core c0).getG loadsF1.rs1 + BitVec.signExtend 32 loadsF1.imm) < 2 ^ 19 ∧ ((coreIs shut).core
    c0).rangeOn (BitVec.toNat (((coreIs shut).core c0).getG loadsF1.rs1 + BitVec.signExtend 32 loadsF1.imm)) 4 = true
    ∧ ((coreIs shut).core c0).opens 0 (BitVec.toNat (((coreIs shut).core c0).getG loadsF1.rs1 + BitVec.signExtend 32
    loadsF1.imm)) 4 = false ∧ BitVec.toNat (((coreIs shut).core c0).getG loadsF1.rs1 + BitVec.signExtend 32
    loadsF1.imm) % 2 = 0 ∧ BitVec.toNat (((coreIs shut).core c0).getG loadsF1.rs1 + BitVec.signExtend 32 loadsF1.imm)
    < 2 ^ 19 ∧ ((coreIs shut).core c0).rangeOn (BitVec.toNat (((coreIs shut).core c0).getG loadsF1.rs1 +
    BitVec.signExtend 32 loadsF1.imm)) 2 = true ∧ ((coreIs shut).core c0).opens 0 (BitVec.toNat (((coreIs shut).core
    c0).getG loadsF1.rs1 + BitVec.signExtend 32 loadsF1.imm)) 2 = false ∧ BitVec.toNat (((coreIs shut).core c0).getG
    loadsF1.rs1 + BitVec.signExtend 32 loadsF1.imm) % 1 = 0 ∧ BitVec.toNat (((coreIs shut).core c0).getG loadsF1.rs1 +
    BitVec.signExtend 32 loadsF1.imm) < 2 ^ 19 ∧ ((coreIs shut).core c0).rangeOn (BitVec.toNat (((coreIs shut).core
    c0).getG loadsF1.rs1 + BitVec.signExtend 32 loadsF1.imm)) 1 = true ∧ ((coreIs shut).core c0).opens 0 (BitVec.toNat
    (((coreIs shut).core c0).getG loadsF1.rs1 + BitVec.signExtend 32 loadsF1.imm)) 1 = false ∧ loadsF1.rd.toNat < 8 ∧
    BitVec.toNat (((coreIs shut).core c0).getG loadsF1.rs1 + BitVec.signExtend 32 loadsF1.imm) % 16 = 0 ∧ BitVec.toNat
    (((coreIs shut).core c0).getG loadsF1.rs1 + BitVec.signExtend 32 loadsF1.imm) < 2 ^ 19 ∧ ((coreIs shut).core
    c0).rangeOn (BitVec.toNat (((coreIs shut).core c0).getG loadsF1.rs1 + BitVec.signExtend 32 loadsF1.imm)) 16 = true
    ∧ ((coreIs shut).core c0).opens 0 (BitVec.toNat (((coreIs shut).core c0).getG loadsF1.rs1 + BitVec.signExtend 32
    loadsF1.imm)) 16 = false ∧ loadsF1.rd.toNat < 16 ∧ BitVec.toNat (((coreIs shut).core c0).getG loadsF1.rs1 +
    BitVec.signExtend 32 loadsF1.imm) % 128 = 0 ∧ BitVec.toNat (((coreIs shut).core c0).getG loadsF1.rs1 +
    BitVec.signExtend 32 loadsF1.imm) < 2 ^ 19 ∧ ((coreIs shut).core c0).rangeOn (BitVec.toNat (((coreIs shut).core
    c0).getG loadsF1.rs1 + BitVec.signExtend 32 loadsF1.imm)) 128 = true ∧ ((coreIs shut).core c0).opens 1
    (BitVec.toNat (((coreIs shut).core c0).getG loadsF1.rs1 + BitVec.signExtend 32 loadsF1.imm)) 128 = false) := by
  try unfold State.ready
  try unfold Core.noUncorrectable
  decide +kernel

/-- Meets the hypotheses of Obligations.LoadAndStoreTraps. -/
theorem witness_loadTraps :
    ((coreIs runs).ready c0 ∧ BitVec.toNat (((coreIs runs).core c0).getG loadTrapsF1.rs1 + BitVec.signExtend 32
    loadTrapsF1.imm) % 4 ≠ 0 ∧ BitVec.toNat (((coreIs runs).core c0).getG loadTrapsF1.rs1 + BitVec.signExtend 32
    loadTrapsF1.imm) % 2 ≠ 0 ∧ loadTrapsF1.rd.toNat < 8 ∧ BitVec.toNat (((coreIs runs).core c0).getG loadTrapsF1.rs1 +
    BitVec.signExtend 32 loadTrapsF1.imm) % 16 ≠ 0 ∧ loadTrapsF1.rd.toNat < 16 ∧ BitVec.toNat (((coreIs runs).core
    c0).getG loadTrapsF1.rs1 + BitVec.signExtend 32 loadTrapsF1.imm) % 128 ≠ 0) ∧ ((coreIs runs).ready c0 ∧
    BitVec.toNat (((coreIs runs).core c0).getG loadTrapsF2.rs1 + BitVec.signExtend 32 loadTrapsF2.imm) % 4 = 0 ∧ (2 ^
    19 ≤ BitVec.toNat (((coreIs runs).core c0).getG loadTrapsF2.rs1 + BitVec.signExtend 32 loadTrapsF2.imm) ∨ ((coreIs
    runs).core c0).rangeOn (BitVec.toNat (((coreIs runs).core c0).getG loadTrapsF2.rs1 + BitVec.signExtend 32
    loadTrapsF2.imm)) 4 = false) ∧ BitVec.toNat (((coreIs runs).core c0).getG loadTrapsF2.rs1 + BitVec.signExtend 32
    loadTrapsF2.imm) % 2 = 0 ∧ (2 ^ 19 ≤ BitVec.toNat (((coreIs runs).core c0).getG loadTrapsF2.rs1 +
    BitVec.signExtend 32 loadTrapsF2.imm) ∨ ((coreIs runs).core c0).rangeOn (BitVec.toNat (((coreIs runs).core
    c0).getG loadTrapsF2.rs1 + BitVec.signExtend 32 loadTrapsF2.imm)) 2 = false) ∧ (2 ^ 19 ≤ BitVec.toNat (((coreIs
    runs).core c0).getG loadTrapsF2.rs1 + BitVec.signExtend 32 loadTrapsF2.imm) ∨ ((coreIs runs).core c0).rangeOn
    (BitVec.toNat (((coreIs runs).core c0).getG loadTrapsF2.rs1 + BitVec.signExtend 32 loadTrapsF2.imm)) 1 = false)) ∧
    ((coreIs runs).ready c0 ∧ 8 ≤ loadTrapsF3.rd.toNat) ∧ ((coreIs runs).ready c0 ∧ 16 ≤ loadTrapsF5.rd.toNat) ∧
    ((coreIs runs).ready c0 ∧ loadTrapsF6.rd.toNat < 8 ∧ BitVec.toNat (((coreIs runs).core c0).getG loadTrapsF6.rs1 +
    BitVec.signExtend 32 loadTrapsF6.imm) % 16 = 0 ∧ (2 ^ 19 ≤ BitVec.toNat (((coreIs runs).core c0).getG
    loadTrapsF6.rs1 + BitVec.signExtend 32 loadTrapsF6.imm) ∨ ((coreIs runs).core c0).rangeOn (BitVec.toNat (((coreIs
    runs).core c0).getG loadTrapsF6.rs1 + BitVec.signExtend 32 loadTrapsF6.imm)) 16 = false) ∧ loadTrapsF6.rd.toNat <
    16 ∧ BitVec.toNat (((coreIs runs).core c0).getG loadTrapsF6.rs1 + BitVec.signExtend 32 loadTrapsF6.imm) % 128 = 0
    ∧ (2 ^ 19 ≤ BitVec.toNat (((coreIs runs).core c0).getG loadTrapsF6.rs1 + BitVec.signExtend 32 loadTrapsF6.imm) ∨
    ((coreIs runs).core c0).rangeOn (BitVec.toNat (((coreIs runs).core c0).getG loadTrapsF6.rs1 + BitVec.signExtend 32
    loadTrapsF6.imm)) 128 = false)) := by
  try unfold State.ready
  decide +kernel

/-- Meets the hypotheses of Obligations.StoresEnterTheBuffer. -/
theorem witness_stores :
    ((coreIs runs).ready c0 ∧ BitVec.toNat (((coreIs runs).core c0).getG storesF1.rs1 + BitVec.signExtend 32
    storesF1.imm) % 4 = 0 ∧ BitVec.toNat (((coreIs runs).core c0).getG storesF1.rs1 + BitVec.signExtend 32
    storesF1.imm) < 2 ^ 19 ∧ ((coreIs runs).core c0).rangeOn (BitVec.toNat (((coreIs runs).core c0).getG storesF1.rs1
    + BitVec.signExtend 32 storesF1.imm)) 4 = true ∧ ((coreIs runs).core c0).stores.length < 4 ∧ BitVec.toNat
    (((coreIs runs).core c0).getG storesF1.rs1 + BitVec.signExtend 32 storesF1.imm) % 2 = 0 ∧ ((coreIs runs).core
    c0).rangeOn (BitVec.toNat (((coreIs runs).core c0).getG storesF1.rs1 + BitVec.signExtend 32 storesF1.imm)) 2 =
    true ∧ BitVec.toNat (((coreIs runs).core c0).getG storesF1.rs1 + BitVec.signExtend 32 storesF1.imm) % 1 = 0 ∧
    ((coreIs runs).core c0).rangeOn (BitVec.toNat (((coreIs runs).core c0).getG storesF1.rs1 + BitVec.signExtend 32
    storesF1.imm)) 1 = true ∧ storesF1.rd.toNat < 8 ∧ BitVec.toNat (((coreIs runs).core c0).getG storesF1.rs1 +
    BitVec.signExtend 32 storesF1.imm) % 16 = 0 ∧ ((coreIs runs).core c0).rangeOn (BitVec.toNat (((coreIs runs).core
    c0).getG storesF1.rs1 + BitVec.signExtend 32 storesF1.imm)) 16 = true ∧ storesF1.rd.toNat < 16 ∧ BitVec.toNat
    (((coreIs runs).core c0).getG storesF1.rs1 + BitVec.signExtend 32 storesF1.imm) % 128 = 0 ∧ ((coreIs runs).core
    c0).rangeOn (BitVec.toNat (((coreIs runs).core c0).getG storesF1.rs1 + BitVec.signExtend 32 storesF1.imm)) 128 =
    true ∧ (¬(((coreIs runs).core c0).stores ≠ [] ∨ (∃ e, e ∈ ((coreIs runs).core c0).banks ∧ ∃ w, w ∈ e.snd.deferred
    ∧ w.port = (0 : BitVec 3)) ∨ ((coreIs runs).core c0).opens 1 (BitVec.toNat (((coreIs runs).core c0).getG
    storesF1.rs1 + BitVec.signExtend 32 storesF1.imm)) 128 = false))) ∧ ((coreIs full).ready c0 ∧ BitVec.toNat
    (((coreIs full).core c0).getG storesF1.rs1 + BitVec.signExtend 32 storesF1.imm) % 4 = 0 ∧ BitVec.toNat (((coreIs
    full).core c0).getG storesF1.rs1 + BitVec.signExtend 32 storesF1.imm) < 2 ^ 19 ∧ ((coreIs full).core c0).rangeOn
    (BitVec.toNat (((coreIs full).core c0).getG storesF1.rs1 + BitVec.signExtend 32 storesF1.imm)) 4 = true ∧ 4 ≤
    ((coreIs full).core c0).stores.length ∧ BitVec.toNat (((coreIs full).core c0).getG storesF1.rs1 +
    BitVec.signExtend 32 storesF1.imm) % 2 = 0 ∧ ((coreIs full).core c0).rangeOn (BitVec.toNat (((coreIs full).core
    c0).getG storesF1.rs1 + BitVec.signExtend 32 storesF1.imm)) 2 = true ∧ BitVec.toNat (((coreIs full).core c0).getG
    storesF1.rs1 + BitVec.signExtend 32 storesF1.imm) % 1 = 0 ∧ ((coreIs full).core c0).rangeOn (BitVec.toNat
    (((coreIs full).core c0).getG storesF1.rs1 + BitVec.signExtend 32 storesF1.imm)) 1 = true ∧ storesF1.rd.toNat < 8
    ∧ BitVec.toNat (((coreIs full).core c0).getG storesF1.rs1 + BitVec.signExtend 32 storesF1.imm) % 16 = 0 ∧ ((coreIs
    full).core c0).rangeOn (BitVec.toNat (((coreIs full).core c0).getG storesF1.rs1 + BitVec.signExtend 32
    storesF1.imm)) 16 = true ∧ storesF1.rd.toNat < 16 ∧ BitVec.toNat (((coreIs full).core c0).getG storesF1.rs1 +
    BitVec.signExtend 32 storesF1.imm) % 128 = 0 ∧ ((coreIs full).core c0).rangeOn (BitVec.toNat (((coreIs full).core
    c0).getG storesF1.rs1 + BitVec.signExtend 32 storesF1.imm)) 128 = true ∧ (((coreIs full).core c0).stores ≠ [] ∨ (∃
    e, e ∈ ((coreIs full).core c0).banks ∧ ∃ w, w ∈ e.snd.deferred ∧ w.port = (0 : BitVec 3)) ∨ ((coreIs full).core
    c0).opens 1 (BitVec.toNat (((coreIs full).core c0).getG storesF1.rs1 + BitVec.signExtend 32 storesF1.imm)) 128 =
    false)) := by
  try unfold State.ready
  decide +kernel

/-- Meets the hypotheses of Obligations.StoreBufferDrains. -/
theorem witness_drains :
    ((coreIs full).coreOk c0 = true ∧ (coreIs full).clocked c0 = true ∧ ((coreIs full).core c0).stores = store1 ::
    List.drop 1 full.stores ∧ (((coreIs full).core c0).bank (store1.off.toNat / 64 % 16)).opens 0 = true ∧ ((coreIs
    full).core c0).bankOn store1.off.toNat = true ∧ (∀ (i : Nat), i ∈ partialWords store1.off.toNat
    store1.bytes.length → ((coreIs full).core c0).noUncorrectable (8 * i) 8)) ∧ ((coreIs runs).coreOk c0 = true ∧
    ((coreIs runs).core c0).stores = []) ∧ (drainsS2.coreOk c0 = true ∧ drainsS2.clocked c0 = true ∧ (drainsS2.core
    c0).stores = [drainsW3] ∧ ((drainsS2.core c0).bank (drainsW3.off.toNat / 64 % 16)).opens 0 = true ∧ (drainsS2.core
    c0).bankOn drainsW3.off.toNat = true ∧ (¬∀ (i : Nat), i ∈ partialWords drainsW3.off.toNat drainsW3.bytes.length →
    (drainsS2.core c0).noUncorrectable (8 * i) 8) ∧ drainsW3.bytes ≠ []) ∧ ((coreIs shut).coreOk c0 = true ∧ (coreIs
    shut).clocked c0 = true ∧ ((coreIs shut).core c0).stores = [store1] ∧ (((coreIs shut).core c0).bank
    (store1.off.toNat / 64 % 16)).opens 0 = false) := by
  try unfold Core.noUncorrectable
  decide +kernel

/-- Meets the hypotheses of Obligations.StoreThenLoadInProgramOrder. -/
theorem witness_storeLoad :
    ((coreIs runs).ready c0 ∧ nextStored.ready c0 ∧ BitVec.toNat (((coreIs runs).core c0).getG (1 : BitVec 5) +
    BitVec.signExtend 32 (0 : BitVec 16)) % 4 = 0 ∧ BitVec.toNat (((coreIs runs).core c0).getG (1 : BitVec 5) +
    BitVec.signExtend 32 (0 : BitVec 16)) < 2 ^ 19 ∧ ((coreIs runs).core c0).rangeOn (BitVec.toNat (((coreIs
    runs).core c0).getG (1 : BitVec 5) + BitVec.signExtend 32 (0 : BitVec 16))) 4 = true ∧ ((coreIs runs).core
    c0).stores.length < 4 ∧ ((coreIs runs).core c0).opens 0 (BitVec.toNat (((coreIs runs).core c0).getG (1 : BitVec 5)
    + BitVec.signExtend 32 (0 : BitVec 16))) 4 = true ∧ ((coreIs runs).core c0).noUncorrectable (BitVec.toNat
    (((coreIs runs).core c0).getG (1 : BitVec 5) + BitVec.signExtend 32 (0 : BitVec 16))) 4 ∧ exec (Instr.sw c0
    { rd := (4 : BitVec 5), rs1 := (1 : BitVec 5), imm := (0 : BitVec 16) : FmtI }) (coreIs runs) = Host.Outcome.next
    nextStored ∧ exec (Instr.lw c0 { rd := (4 : BitVec 5), rs1 := (1 : BitVec 5), imm := (0 : BitVec 16) : FmtI })
    nextStored = Host.Outcome.next nextLoaded) := by
  try unfold State.ready
  try unfold Core.noUncorrectable
  and_intros
  all_goals first | decide +kernel | exact ran_next (by decide +kernel)

/-- Meets the hypotheses of Obligations.DescriptorQuarterMoves. -/
theorem witness_quarters :
    ((coreIs runs).ready c0 ∧ 3 < 4 ∧ 7 < 8 ∧ 1 < 8 ∧ (quartersF1.rs2 ≠ (0 : BitVec 5) ∨ 8 ≤ quartersF1.func.toNat ∨
    quartersF1.func.toNat < 4 ∧ 8 ≤ quartersF1.rd.toNat ∨ 4 ≤ quartersF1.func.toNat ∧ 8 ≤ quartersF1.rs1.toNat)) := by
  try unfold State.ready
  decide +kernel

/-- Meets the hypotheses of Obligations.VectorLaneResults. -/
theorem witness_lanes :
    (lanesS1.ready c0 ∧ 15 < 16 ∧ 0 < 16 ∧ 1 < 16) := by
  try unfold State.ready
  decide +kernel

/-- Meets the hypotheses of Obligations.VectorOperationsComplete. -/
theorem witness_vectors :
    ((coreIs runs).ready c0 ∧ vectorsF1.rd.toNat < 16 ∧ vectorsF1.rs1.toNat < 16 ∧ (vectorsF1.func.toNat ≤ 8 ∧
    vectorsF1.rs2.toNat < 16 ∨ (vectorsF1.func.toNat = 9 ∨ vectorsF1.func.toNat = 10 ∨ 36 ≤ vectorsF1.func.toNat ∧
    vectorsF1.func.toNat ≤ 38 ∨ 48 ≤ vectorsF1.func.toNat ∧ vectorsF1.func.toNat ≤ 53) ∧ vectorsF1.rs2 = (0 : BitVec
    5))) ∧ ((coreIs runs).ready c0 ∧ (vectorsF3.func.toNat = 9 ∨ vectorsF3.func.toNat = 10 ∨ 36 ≤ vectorsF3.func.toNat
    ∧ vectorsF3.func.toNat ≤ 38 ∨ 48 ≤ vectorsF3.func.toNat ∧ vectorsF3.func.toNat ≤ 53) ∧ vectorsF3.rs2 ≠ (0 : BitVec
    5)) ∧ ((coreIs runs).ready c0 ∧ (11 ≤ vectorsF4.func.toNat ∧ vectorsF4.func.toNat ≤ 15 ∨ 27 ≤ vectorsF4.func.toNat
    ∧ vectorsF4.func.toNat ≤ 31 ∨ 39 ≤ vectorsF4.func.toNat ∧ vectorsF4.func.toNat ≤ 47 ∨ 54 ≤ vectorsF4.func.toNat)) := by
  try unfold State.ready
  decide +kernel

/-- Meets the hypotheses of Obligations.TensorInstructionsIssue. -/
theorem witness_tensorIssues :
    ((coreIs desc).ready c0 ∧ tCheck ((coreIs desc).core c0) TOp.tload tensorIssuesF1 (wordT 36 tensorIssuesF1) = none
    ∧ ((coreIs desc).core c0).tq.length < 8 ∧ (1 ≤ tensorIssuesF1.mode.toNat ∨ tensorIssuesF1.zero ≠ (0 : BitVec 4)) ∧
    tCheck ((coreIs desc).core c0) TOp.tstore tensorIssuesF1 (wordT 38 tensorIssuesF1) = none ∧ tensorIssuesF1.mode =
    (1 : BitVec 2) ∧ tensorIssuesF1.zero = (0 : BitVec 4)) ∧ ((coreIs desc).ready c0 ∧ tCheck ((coreIs desc).core c0)
    TOp.tmma tensorIssuesF2 (wordT 37 tensorIssuesF2) = none ∧ ((coreIs desc).core c0).tq.length < 8 ∧ tCheck ((coreIs
    desc).core c0) TOp.tcvt tensorIssuesF2 (wordT 39 tensorIssuesF2) = none) ∧ ((coreIs busy).ready c0 ∧ tCheck
    ((coreIs busy).core c0) TOp.tload tensorIssuesF2 (wordT 36 tensorIssuesF2) = none ∧ 8 ≤ ((coreIs busy).core
    c0).tq.length ∧ tCheck ((coreIs busy).core c0) TOp.tmma tensorIssuesF2 (wordT 37 tensorIssuesF2) = none ∧ tCheck
    ((coreIs busy).core c0) TOp.tstore tensorIssuesF2 (wordT 38 tensorIssuesF2) = none ∧ tCheck ((coreIs busy).core
    c0) TOp.tcvt tensorIssuesF2 (wordT 39 tensorIssuesF2) = none) ∧ ((coreIs desc).ready c0 ∧ tCheck ((coreIs
    desc).core c0) TOp.tload tensorIssuesF5 (wordT 36 tensorIssuesF5) = some ((1 : BitVec 6), tensorIssuesV6) ∧ (2 ≤
    tensorIssuesF5.mode.toNat ∨ tensorIssuesF5.zero ≠ (0 : BitVec 4)) ∧ tCheck ((coreIs desc).core c0) TOp.tmma
    tensorIssuesF5 (wordT 37 tensorIssuesF5) = some ((1 : BitVec 6), tensorIssuesV7) ∧ tCheck ((coreIs desc).core c0)
    TOp.tstore tensorIssuesF5 (wordT 38 tensorIssuesF5) = some ((1 : BitVec 6), tensorIssuesV8) ∧ tCheck ((coreIs
    desc).core c0) TOp.tcvt tensorIssuesF5 (wordT 39 tensorIssuesF5) = some ((1 : BitVec 6), tensorIssuesV9)) := by
  try unfold State.ready
  decide +kernel

/-- Meets the hypotheses of Obligations.TensorEngineSteps. -/
theorem witness_tensorSteps :
    ((coreIs busy).coreOk c0 = true ∧ (coreIs busy).clocked c0 = true ∧ ((coreIs busy).core c0).mode ≠
    CoreMode.faulted ∧ ((coreIs busy).core c0).tq = mma0 :: List.drop 1 busy.tq ∧ mma0.started = false ∧ startNext []
    ((coreIs busy).core c0).tq = some tensorStepsQ1) ∧ ((coreIs clearing).coreOk c0 = true ∧ (coreIs clearing).clocked
    c0 = true ∧ ((coreIs clearing).core c0).mode ≠ CoreMode.faulted ∧ startNext [] ((coreIs clearing).core c0).tq =
    none ∧ ((coreIs clearing).core c0).tq[0]? = some clear1 ∧ clear1.started = true ∧ (∀ (e : TInstr), e ∈ List.take
    (0) ((coreIs clearing).core c0).tq → tAfter e clear1 = false) ∧ tOpens ((coreIs clearing).core c0) clear1 = true ∧
    staleEntry ((coreIs clearing).core c0) clear1 = none ∧ (tCompute c0 clear1 4096 (coreIs clearing) ((coreIs
    clearing).core c0)).ok = true ∧ clear1.op = TOp.tload ∧ clear1.mode = (1 : BitVec 2)) ∧ ((coreIs loading).coreOk
    c0 = true ∧ ((coreIs loading).core c0).tq[0]? = some tensorStepsN2 ∧ tensorStepsN2.started = true ∧ (∀ (e :
    TInstr), e ∈ List.take (0) ((coreIs loading).core c0).tq → tAfter e tensorStepsN2 = false) ∧ tOpens ((coreIs
    loading).core c0) tensorStepsN2 = true ∧ tensorStepsN2.op = TOp.tload ∧ tensorStepsN2.mode ≠ (1 : BitVec 2) ∧ (∀
    (e : Nat × EccErr), e ∈ ((coreIs loading).core c0).ecc → e.snd.correctable = true)) ∧ (tensorStepsS3.coreOk c0 =
    true ∧ (tensorStepsS3.core c0).tq[0]? = some intMma ∧ intMma.started = true ∧ (∀ (e : TInstr), e ∈ List.take (0)
    (tensorStepsS3.core c0).tq → tAfter e intMma = false) ∧ tOpens (tensorStepsS3.core c0) intMma = true ∧ intMma.op =
    TOp.tmma ∧ (tensorDesc intMma.da).fmt = 3 ∧ staleEntry (tensorStepsS3.core c0) intMma = none ∧ (∀ (e : Nat ×
    EccErr), e ∈ (tensorStepsS3.core c0).ecc → e.snd.correctable = true) ∧ (staleEntry (tensorStepsS3.core c0) intMma
    = some tensorStepsF4 ∨ staleEntry (tensorStepsS3.core c0) intMma = none ∧ checkRuns intMma
    tensorStepsF4.check.toNat = true)) ∧ ((coreIs desc).coreOk c0 = true ∧ ((coreIs desc).core c0).tq[0]? = none) := by
  decide +kernel

/-- Meets the hypotheses of Obligations.NetworkInstructionsIssue. -/
theorem witness_netIssues :
    ((coreIs desc).ready c0 ∧ (coreIs desc).netCheck c0 ((coreIs desc).core c0) NOp.send netIssuesF1 (wordN 40
    netIssuesF1) = Sum.inr (256, 140737488356352) ∧ ((coreIs desc).core c0).nq.length < 16 ∧ (coreIs desc).netCheck c0
    ((coreIs desc).core c0) NOp.read netIssuesF1 (wordN 42 netIssuesF1) = Sum.inr (256, 140737488356352) ∧ (coreIs
    desc).netCheck c0 ((coreIs desc).core c0) NOp.aadd netIssuesF1 (wordN 43 netIssuesF1) = Sum.inr (0,
    140737488356352) ∧ (coreIs desc).copyCheck c0 ((coreIs desc).core c0) netIssuesF1 (wordN 45 netIssuesF1) = Sum.inr
    (256, 1024) ∧ ((coreIs desc).core c0).cq.length < 4 ∧ (coreIs desc).netCheck c0 ((coreIs desc).core c0) NOp.send
    netIssuesF2 (wordN 40 netIssuesF2) = Sum.inl ((1 : BitVec 6), netIssuesV7) ∧ (netIssuesF2.route = (3 : BitVec 2) ∨
    netIssuesF2.zero ≠ (0 : BitVec 9)) ∧ (coreIs desc).netCheck c0 ((coreIs desc).core c0) NOp.sendm netIssuesF2
    (wordN 41 netIssuesF2) = Sum.inl ((1 : BitVec 6), netIssuesV8) ∧ (coreIs desc).netCheck c0 ((coreIs desc).core c0)
    NOp.read netIssuesF2 (wordN 42 netIssuesF2) = Sum.inl ((1 : BitVec 6), netIssuesV9) ∧ (coreIs desc).netCheck c0
    ((coreIs desc).core c0) NOp.aadd netIssuesF2 (wordN 43 netIssuesF2) = Sum.inl ((1 : BitVec 6), netIssuesV10) ∧
    (coreIs desc).cpqCheck c0 ((coreIs desc).core c0) netIssuesF2 (wordN 44 netIssuesF2) = Sum.inl ((1 : BitVec 6),
    netIssuesV11) ∧ (coreIs desc).copyCheck c0 ((coreIs desc).core c0) netIssuesF2 (wordN 45 netIssuesF2) = Sum.inl
    ((1 : BitVec 6), netIssuesV12) ∧ (coreIs desc).netCheck c0 ((coreIs desc).core c0) NOp.sendm netIssuesF3 (wordN 41
    netIssuesF3) = Sum.inr (256, 140737488356352) ∧ (coreIs desc).cpqCheck c0 ((coreIs desc).core c0) netIssuesF5
    (wordN 44 netIssuesF5) = Sum.inr (desc.getD 3 ++ desc.getD 2)) ∧ ((coreIs busy).ready c0 ∧ (coreIs busy).netCheck
    c0 ((coreIs busy).core c0) NOp.send netIssuesF1 (wordN 40 netIssuesF1) = Sum.inr (256, 140737488356352) ∧ 16 ≤
    ((coreIs busy).core c0).nq.length ∧ (coreIs busy).netCheck c0 ((coreIs busy).core c0) NOp.read netIssuesF1 (wordN
    42 netIssuesF1) = Sum.inr (256, 140737488356352) ∧ (coreIs busy).netCheck c0 ((coreIs busy).core c0) NOp.aadd
    netIssuesF1 (wordN 43 netIssuesF1) = Sum.inr (0, 140737488356352) ∧ (coreIs busy).copyCheck c0 ((coreIs busy).core
    c0) netIssuesF1 (wordN 45 netIssuesF1) = Sum.inr (256, 1024) ∧ 4 ≤ ((coreIs busy).core c0).cq.length ∧ (coreIs
    busy).netCheck c0 ((coreIs busy).core c0) NOp.sendm netIssuesF3 (wordN 41 netIssuesF3) = Sum.inr (256,
    140737488356352) ∧ (coreIs busy).cpqCheck c0 ((coreIs busy).core c0) netIssuesF5 (wordN 44 netIssuesF5) = Sum.inr
    (desc.getD 3 ++ desc.getD 2)) := by
  try unfold State.ready
  decide +kernel

/-- Meets the hypotheses of Obligations.NetworkTrapOrder. -/
theorem witness_netTraps :
    ((coreIs desc).ready c0 ∧ (netTrapsF1.route = (3 : BitVec 2) ∨ netTrapsF1.zero ≠ (0 : BitVec 9)) ∧
    (¬(netTrapsF2.route = (3 : BitVec 2) ∨ netTrapsF2.zero ≠ (0 : BitVec 9))) ∧ (¬((netDesc (((coreIs desc).core
    c0).getD netTrapsF2.d.toNat)).reserved = true ∨ (netDesc (((coreIs desc).core c0).getD netTrapsF2.d.toNat)).length
    = 0 ∨ 524288 < (netDesc (((coreIs desc).core c0).getD netTrapsF2.d.toNat)).length ∨ netTrapsF2.route = (2 : BitVec
    2) ∧ 64 < (netDesc (((coreIs desc).core c0).getD netTrapsF2.d.toNat)).length ∨ netTrapsF2.ce = (1 : BitVec 1) ∧ 2
    ^ 24 ≤ (((coreIs desc).core c0).counter netTrapsF2.ctr).total.toNat + (netDesc (((coreIs desc).core c0).getD
    netTrapsF2.d.toNat)).length)) ∧ (BitVec.ofNat 32 (netDesc (((coreIs desc).core c0).getD
    netTrapsF2.d.toNat)).local_ + ((coreIs desc).core c0).getG netTrapsF2.gs).toNat % 4 ≠ 0 ∧ (¬(netTrapsF3.route = (3
    : BitVec 2) ∨ netTrapsF3.zero ≠ (0 : BitVec 9))) ∧ (¬((netDesc (((coreIs desc).core c0).getD
    netTrapsF3.d.toNat)).reserved = true ∨ (netDesc (((coreIs desc).core c0).getD netTrapsF3.d.toNat)).length = 0 ∨
    524288 < (netDesc (((coreIs desc).core c0).getD netTrapsF3.d.toNat)).length ∨ netTrapsF3.route = (2 : BitVec 2) ∧
    64 < (netDesc (((coreIs desc).core c0).getD netTrapsF3.d.toNat)).length ∨ netTrapsF3.ce = (1 : BitVec 1) ∧ 2 ^ 24
    ≤ (((coreIs desc).core c0).counter netTrapsF3.ctr).total.toNat + (netDesc (((coreIs desc).core c0).getD
    netTrapsF3.d.toNat)).length)) ∧ (BitVec.ofNat 32 (netDesc (((coreIs desc).core c0).getD
    netTrapsF3.d.toNat)).local_ + ((coreIs desc).core c0).getG netTrapsF3.gs).toNat % 4 = 0 ∧ (BitVec.ofNat 32
    (netDesc (((coreIs desc).core c0).getD netTrapsF3.d.toNat)).remote + ((coreIs desc).core c0).getG
    netTrapsF3.gs).toNat % 4 = 0 ∧ (netDesc (((coreIs desc).core c0).getD netTrapsF3.d.toNat)).length % 4 = 0 ∧ addOff
    (netDesc (((coreIs desc).core c0).getD netTrapsF3.d.toNat)).local_ (((coreIs desc).core c0).getG netTrapsF3.gs) (2
    ^ 19) = none) ∧ ((coreIs odd).ready c0 ∧ (¬(netTrapsF4.route = (3 : BitVec 2) ∨ netTrapsF4.zero ≠ (0 : BitVec 9)))
    ∧ (¬((netDesc (((coreIs odd).core c0).getD netTrapsF4.d.toNat)).reserved = true ∨ (netDesc (((coreIs odd).core
    c0).getD netTrapsF4.d.toNat)).length = 0 ∨ 524288 < (netDesc (((coreIs odd).core c0).getD
    netTrapsF4.d.toNat)).length ∨ netTrapsF4.route = (2 : BitVec 2) ∧ 64 < (netDesc (((coreIs odd).core c0).getD
    netTrapsF4.d.toNat)).length ∨ netTrapsF4.ce = (1 : BitVec 1) ∧ 2 ^ 24 ≤ (((coreIs odd).core c0).counter
    netTrapsF4.ctr).total.toNat + (netDesc (((coreIs odd).core c0).getD netTrapsF4.d.toNat)).length)) ∧ (BitVec.ofNat
    32 (netDesc (((coreIs odd).core c0).getD netTrapsF4.d.toNat)).local_ + ((coreIs odd).core c0).getG
    netTrapsF4.gs).toNat % 4 = 0 ∧ (BitVec.ofNat 32 (netDesc (((coreIs odd).core c0).getD netTrapsF4.d.toNat)).remote
    + ((coreIs odd).core c0).getG netTrapsF4.gs).toNat % 4 ≠ 0 ∧ (¬(netTrapsF5.route = (3 : BitVec 2) ∨
    netTrapsF5.zero ≠ (0 : BitVec 9))) ∧ (¬((netDesc (((coreIs odd).core c0).getD netTrapsF5.d.toNat)).reserved = true
    ∨ (netDesc (((coreIs odd).core c0).getD netTrapsF5.d.toNat)).length = 0 ∨ 524288 < (netDesc (((coreIs odd).core
    c0).getD netTrapsF5.d.toNat)).length ∨ netTrapsF5.route = (2 : BitVec 2) ∧ 64 < (netDesc (((coreIs odd).core
    c0).getD netTrapsF5.d.toNat)).length ∨ netTrapsF5.ce = (1 : BitVec 1) ∧ 2 ^ 24 ≤ (((coreIs odd).core c0).counter
    netTrapsF5.ctr).total.toNat + (netDesc (((coreIs odd).core c0).getD netTrapsF5.d.toNat)).length)) ∧ (BitVec.ofNat
    32 (netDesc (((coreIs odd).core c0).getD netTrapsF5.d.toNat)).local_ + ((coreIs odd).core c0).getG
    netTrapsF5.gs).toNat % 4 = 0 ∧ (BitVec.ofNat 32 (netDesc (((coreIs odd).core c0).getD netTrapsF5.d.toNat)).remote
    + ((coreIs odd).core c0).getG netTrapsF5.gs).toNat % 4 = 0 ∧ (netDesc (((coreIs odd).core c0).getD
    netTrapsF5.d.toNat)).length % 4 ≠ 0) ∧ ((coreIs runs).ready c0 ∧ (¬(netTrapsF6.route = (3 : BitVec 2) ∨
    netTrapsF6.zero ≠ (0 : BitVec 9))) ∧ ((netDesc (((coreIs runs).core c0).getD netTrapsF6.d.toNat)).reserved = true
    ∨ (netDesc (((coreIs runs).core c0).getD netTrapsF6.d.toNat)).length = 0 ∨ 524288 < (netDesc (((coreIs runs).core
    c0).getD netTrapsF6.d.toNat)).length ∨ netTrapsF6.route = (2 : BitVec 2) ∧ 64 < (netDesc (((coreIs runs).core
    c0).getD netTrapsF6.d.toNat)).length ∨ netTrapsF6.ce = (1 : BitVec 1) ∧ 2 ^ 24 ≤ (((coreIs runs).core c0).counter
    netTrapsF6.ctr).total.toNat + (netDesc (((coreIs runs).core c0).getD netTrapsF6.d.toNat)).length)) := by
  try unfold State.ready
  decide +kernel

/-- Meets the hypotheses of Obligations.NetworkEnginesSteps. -/
theorem witness_netSteps :
    ((coreIs busy).coreOk c0 = true ∧ (coreIs busy).clocked c0 = true ∧ ((coreIs busy).core c0).nq = aadd0 ::
    List.drop 1 busy.nq ∧ (coreIs busy).dieOf c0 = some 0 ∧ ((coreIs busy).die 0).net ≠ NetState.reset ∧ aadd0.sent =
    false ∧ ((coreIs busy).core c0).headReady aadd0 = true ∧ (aadd0.op = NOp.send ∨ aadd0.op = NOp.sendm → ((coreIs
    busy).core c0).opens 6 aadd0.local_.toNat aadd0.length = true) ∧ aadd0.op = NOp.aadd ∧ ((coreIs busy).router
    c0).wait = [] ∧ (((coreIs busy).router c0).buf 4 (routeVc (5 : BitVec 4) aadd0.route).toNat).length + 2 ≤ vcSpace
    (routeVc (5 : BitVec 4) aadd0.route).toNat false) ∧ (netStepsS1.coreOk c0 = true ∧ netStepsS1.clocked c0 = true ∧
    (netStepsS1.core c0).nq = [] ∧ (netStepsS1.core c0).cq = [copy0] ∧ (netStepsS1.core c0).opens 4 copy0.src.toNat
    copy0.length = true ∧ (netStepsS1.core c0).opens 4 copy0.dst.toNat copy0.length = true ∧ (netStepsS1.core
    c0).noUncorrectable copy0.src.toNat copy0.length ∧ (∀ (i : Nat), i ∈ partialWords copy0.dst.toNat copy0.length →
    (netStepsS1.core c0).noUncorrectable (8 * i) 8)) ∧ (netStepsS2.coreOk c0 = true ∧ netStepsS2.clocked c0 = true ∧
    (netStepsS2.core c0).nq = [aadd0] ∧ netStepsS2.dieOf c0 = some 0 ∧ ((netStepsS2.die 0).net = NetState.reset ∨
    (netStepsS2.core c0).headReady aadd0 = false ∧ aadd0.sent = false) ∧ (netStepsS2.core c0).cq = [copy0] ∧
    (netStepsS2.core c0).opens 4 copy0.src.toNat copy0.length = true ∧ (netStepsS2.core c0).opens 4 copy0.dst.toNat
    copy0.length = true ∧ ¬(netStepsS2.core c0).noUncorrectable copy0.src.toNat copy0.length) ∧ ((coreIs runs).coreOk
    c0 = true ∧ (coreIs runs).clocked c0 = true ∧ ((coreIs runs).core c0).cq = []) := by
  try unfold Core.noUncorrectable
  decide +kernel

/-- Meets the hypotheses of Obligations.CompletionCounters. -/
theorem witness_counters :
    ((coreIs counts).ready c0 ∧ countersF1.zero = (0 : BitVec 9) ∧ (((coreIs counts).core c0).counter
    countersF1.ctr).decl = none ∧ (((coreIs counts).core c0).counter countersF1.ctr).total.toNat + BitVec.toNat
    (((coreIs counts).core c0).getG countersF1.gs) % 2 ^ 24 < 2 ^ 24 ∧ (((coreIs counts).core c0).counter
    countersF1.ctr).count.toNat ≤ (((coreIs counts).core c0).counter countersF1.ctr).total.toNat + BitVec.toNat
    (((coreIs counts).core c0).getG countersF1.gs) % 2 ^ 24 ∧ ((((coreIs counts).core c0).counter
    countersF1.ctr).armed && !(((coreIs counts).core c0).counter countersF1.ctr).overrun && decide ((((coreIs
    counts).core c0).counter countersF1.ctr).count = (((coreIs counts).core c0).counter countersF1.ctr).total) &&
    decide ((((coreIs counts).core c0).counter countersF1.ctr).holds = 0)) = false ∧ (coreIs counts).coreOk c0 = true
    ∧ (((coreIs counts).core c0).mode ≠ CoreMode.wait ∨ (∀ (m : BitVec 6), ((coreIs counts).core c0).wait ≠
    WaitOn.counter m) ∨ ((coreIs counts).core c0).wait = WaitOn.counter countersF1.ctr ∧ ((((coreIs counts).core
    c0).counter countersF1.ctr).armed && !(((coreIs counts).core c0).counter countersF1.ctr).overrun && decide
    ((((coreIs counts).core c0).counter countersF1.ctr).count = (((coreIs counts).core c0).counter
    countersF1.ctr).total) && decide ((((coreIs counts).core c0).counter countersF1.ctr).holds = 0)) = false) ∧
    countersF2.zero = (0 : BitVec 9) ∧ 2 ^ 24 ≤ (((coreIs counts).core c0).counter countersF2.ctr).total.toNat +
    BitVec.toNat (((coreIs counts).core c0).getG countersF2.gs) % 2 ^ 24 ∧ countersF3.zero = (0 : BitVec 9) ∧
    ((((coreIs counts).core c0).counter countersF3.ctr).armed && !(((coreIs counts).core c0).counter
    countersF3.ctr).overrun && decide ((((coreIs counts).core c0).counter countersF3.ctr).count = (((coreIs
    counts).core c0).counter countersF3.ctr).total) && decide ((((coreIs counts).core c0).counter
    countersF3.ctr).holds = 0)) = true ∧ countersF5.zero ≠ (0 : BitVec 9)) ∧ (countersS6.ready c0 ∧ countersF1.zero =
    (0 : BitVec 9) ∧ ((countersS6.core c0).counter countersF1.ctr).total.toNat + BitVec.toNat ((countersS6.core
    c0).getG countersF1.gs) % 2 ^ 24 < 2 ^ 24 ∧ (((countersS6.core c0).counter countersF1.ctr).decl ≠ none ∨
    ((countersS6.core c0).counter countersF1.ctr).total.toNat + BitVec.toNat ((countersS6.core c0).getG countersF1.gs)
    % 2 ^ 24 < ((countersS6.core c0).counter countersF1.ctr).count.toNat)) ∧ (countersS7.coreOk c0 = true ∧
    countersS7.clocked c0 = true ∧ (countersS7.core c0).mode = CoreMode.wait ∧ (countersS7.core c0).wait =
    WaitOn.counter countersF3.ctr ∧ (((countersS7.core c0).counter countersF3.ctr).armed && !((countersS7.core
    c0).counter countersF3.ctr).overrun && decide (((countersS7.core c0).counter countersF3.ctr).count =
    ((countersS7.core c0).counter countersF3.ctr).total) && decide (((countersS7.core c0).counter
    countersF3.ctr).holds = 0)) = true) := by
  try unfold State.ready
  decide +kernel

/-- Meets the hypotheses of Obligations.SyncChannelInstructions. -/
theorem witness_syncs :
    ((coreIs chans).ready c0 ∧ (((coreIs chans).core c0).chan (0 : BitVec 4)).bound = true ∧ (((coreIs chans).core
    c0).chan (0 : BitVec 4)).arrived = false ∧ (((coreIs chans).core c0).chan (0 : BitVec 4)).released = false ∧
    (syncsE1.rs ≠ (0 : BitVec 5) ∨ syncsE1.zero ≠ (0 : BitVec 5) ∨ 16 ≤ syncsE1.imm.toNat) ∧ (((coreIs chans).core
    c0).chan (1 : BitVec 4)).bound = true ∧ (((coreIs chans).core c0).chan (1 : BitVec 4)).arrived = true ∧ (((coreIs
    chans).core c0).chan (1 : BitVec 4)).released = false ∧ (((coreIs chans).core c0).chan (15 : BitVec 4)).bound =
    true ∧ (((coreIs chans).core c0).chan (15 : BitVec 4)).released = true ∧ (((coreIs chans).core c0).chan (3 :
    BitVec 4)).bound = false ∧ syncsI2 ∈ [Instr.flag c0
    { rs := (0 : BitVec 5), zero := (0 : BitVec 5), imm := BitVec.setWidth 16 (3 : BitVec 4) : FmtS }, Instr.waitf c0
    { rs := (0 : BitVec 5), zero := (0 : BitVec 5), imm := BitVec.setWidth 16 (3 : BitVec 4) : FmtS }, Instr.barrier
    c0 { rs := (0 : BitVec 5), zero := (0 : BitVec 5), imm := BitVec.setWidth 16 (3 : BitVec 4) : FmtS }]) := by
  try unfold State.ready
  decide +kernel

/-- Meets the hypotheses of Obligations.NoticeAndCsrInstructions. -/
theorem witness_csrs :
    ((coreIs runs).ready c0 ∧ (1 : BitVec 8) ≠ (0 : BitVec 8) ∧ (csrsF3.rd ≠ (0 : BitVec 5) ∨ csrsF3.rs1 ≠ (0 : BitVec
    5)) ∧ (CsrOp.read, csrsI1) ∈ [(CsrOp.read, Instr.csrr c0 csrsF3), (CsrOp.write, Instr.csrw c0 csrsF3), (CsrOp.set,
    Instr.csrs c0 csrsF3), (CsrOp.clear, Instr.csrc c0 csrsF3)] ∧ csrIllegal CsrOp.read csrsF3 = false ∧
    (csrRuntimeOnly (csrsF3.imm.toNat % 2 ^ 11) = true → ((coreIs runs).core c0).mode = CoreMode.runtime) ∧
    csrsF3.imm.toNat % 2 ^ 11 ≠ 4 ∧ (4 : BitVec 5) ≠ (0 : BitVec 5) ∧ BitVec.getLsbD (4 : BitVec 5) 0 = false) ∧
    ((coreIs runs).ready c0 ∧ csrsI6 ∈ [Instr.csrw c0
    { rd := (4 : BitVec 5), rs1 := (1 : BitVec 5), imm := BitVec.setWidth 16 (0 : BitVec 11) : FmtI }, Instr.csrs c0
    { rd := (4 : BitVec 5), rs1 := (1 : BitVec 5), imm := BitVec.setWidth 16 (0 : BitVec 11) : FmtI }, Instr.csrc c0
    { rd := (4 : BitVec 5), rs1 := (1 : BitVec 5), imm := BitVec.setWidth 16 (0 : BitVec 11) : FmtI }, Instr.csrr c0
    { rd := (4 : BitVec 5), rs1 := (0 : BitVec 5), imm := (0 : BitVec 16) : FmtI }]) := by
  try unfold State.ready
  decide +kernel

/-- Meets the hypotheses of Obligations.CsrTraps. -/
theorem witness_csrTraps :
    ((coreIs runs).ready c0 ∧ (¬(csrTrapsF1.imm.toNat ≤ 4 ∨ csrTrapsF1.imm.toNat = 8 ∨ csrTrapsF1.imm.toNat = 9 ∨
    csrTrapsF1.imm.toNat = 12 ∨ 16 ≤ csrTrapsF1.imm.toNat ∧ csrTrapsF1.imm.toNat ≤ 22 ∨ 32 ≤ csrTrapsF1.imm.toNat ∧
    csrTrapsF1.imm.toNat ≤ 47 ∨ 64 ≤ csrTrapsF1.imm.toNat ∧ csrTrapsF1.imm.toNat ≤ 191)) ∧ csrTrapsF1.rs1 ≠ (0 :
    BitVec 5) ∧ csrTrapsF4.imm.toNat = 9 ∧ csrTrapsF5.imm.toNat = 4 ∧ (csrTrapsF5.rd = (0 : BitVec 5) ∨
    csrTrapsF5.rd.getLsbD 0 = true) ∧ 16 ≤ csrTrapsF6.imm.toNat ∧ csrTrapsF6.imm.toNat ≤ 22 ∧ ((coreIs runs).core
    c0).mode ≠ CoreMode.runtime ∧ csrTrapsF6.rs1 = (0 : BitVec 5)) := by
  try unfold State.ready
  decide +kernel

/-- Meets the hypotheses of Obligations.SystemInstructions. -/
theorem witness_systems :
    ((coreIs runs).ready c0 ∧ ((0 : BitVec 16) = (0 : BitVec 16) ∨ 3 ≤ 0 ∧ 0 < 32768) ∧ ((coreIs runs).core c0).mode ≠
    CoreMode.runtime ∧ (systemsE1.rs ≠ (0 : BitVec 5) ∨ systemsE1.zero ≠ (0 : BitVec 5)) ∧ (1 : BitVec 16) = (1 :
    BitVec 16) ∧ (coreIs runs).partOfDie (c0.y.toNat / 32) (c0.x.toNat / 32) = some 1 ∧ List.find? (isLogWait 1)
    (coreIs runs).waiters = none ∧ ((coreIs runs).part 1).logs.length < 1024 ∧ (1 : BitVec 16) ≠ (0 : BitVec 16) ∧ (2
    : BitVec 16) = (2 : BitVec 16) ∧ 32768 ≤ 32768) ∧ (systemsS2.ready c0 ∧ (1 : BitVec 16) = (1 : BitVec 16) ∧
    systemsS2.partOfDie (c0.y.toNat / 32) (c0.x.toNat / 32) = none) ∧ ((logs 1024).ready c0 ∧ (1 : BitVec 16) = (1 :
    BitVec 16) ∧ (logs 1024).partOfDie (c0.y.toNat / 32) (c0.x.toNat / 32) = some 1 ∧ List.find? (isLogWait 1) (logs
    1024).waiters = none ∧ 1024 ≤ ((logs 1024).part 1).logs.length) ∧ (systemsS3.ready c0 ∧ (1 : BitVec 16) = (1 :
    BitVec 16) ∧ systemsS3.partOfDie (c0.y.toNat / 32) (c0.x.toNat / 32) = some 1 ∧ List.find? (isLogWait 1)
    systemsS3.waiters = some (WaitKind.log, hc)) ∧ (systemsS4.coreOk c0 = true ∧ systemsS4.clocked c0 = true ∧
    (systemsS4.core c0).halting = some (5 : BitVec 16) ∧ (systemsS4.core c0).tq = [] ∧ (systemsS4.core c0).nq = [] ∧
    (systemsS4.core c0).cq = [] ∧ (systemsS4.core c0).reads = 0 ∧ (systemsS4.core c0).mode = CoreMode.runtime) ∧
    (systemsS5.ready c0 ∧ (systemsS5.core c0).mode = CoreMode.runtime) ∧ (systemsS6.coreOk c0 = true ∧
    systemsS6.clocked c0 = true ∧ (systemsS6.core c0).halting = some (5 : BitVec 16) ∧ (systemsS6.core c0).tq = [] ∧
    (systemsS6.core c0).nq = [] ∧ (systemsS6.core c0).cq = [] ∧ (systemsS6.core c0).reads = 0 ∧ (systemsS6.core
    c0).mode = CoreMode.run) ∧ (systemsS7.coreOk c0 = true ∧ systemsS7.clocked c0 = true ∧ (systemsS7.core c0).halting
    = some (5 : BitVec 16) ∧ ((systemsS7.core c0).tq ≠ [] ∨ (systemsS7.core c0).nq ≠ [] ∨ (systemsS7.core c0).cq ≠ []
    ∨ (systemsS7.core c0).reads ≠ 0)) := by
  try unfold State.ready
  decide +kernel

/-- Meets the hypotheses of Obligations.CoreEvents. -/
theorem witness_coreEvents :
    ((coreIs runs).ready c0 ∧ (BitVec.extractLsb' 26 6 (4227858432 : Word)).toNat ∈ [0, 10, 11, 12, 13, 14, 15, 35,
    55, 63] ∧ (coreIs runs).coreOk c0 = true ∧ (coreIs runs).clocked c0 = true ∧ ((coreIs runs).core c0).mode =
    CoreMode.run ∧ ((coreIs runs).core c0).ibuf.contains (BitVec.ofNat 13 (((coreIs runs).core c0).pc.toNat / 64)) =
    false ∧ ((coreIs runs).core c0).bankOn (64 * (((coreIs runs).core c0).pc.toNat / 64)) = true ∧ ((coreIs runs).core
    c0).opens 0 (64 * (((coreIs runs).core c0).pc.toNat / 64)) 64 = true ∧ (∀ (e : Nat × EccErr), e ∈ ((coreIs
    runs).core c0).ecc → e.snd.correctable = true) ∧ ((257 : BitVec 16) = (257 : BitVec 16) ∨ (257 : BitVec 16) = (258
    : BitVec 16)) ∧ ((coreIs runs).core c0).debugStop = false) ∧ (coreEventsS1.ready c0 ∧ (coreEventsS1.core c0).pc =
    (524284 : BitVec 19) ∧ (coreEventsS1.core c0).getG coreEventsF3.r ≠ (0 : Word)) ∧ (coreEventsS4.coreOk c0 = true ∧
    ((coreEventsS4.core c0).mode ≠ CoreMode.run ∨ (coreEventsS4.core c0).ibuf.contains (BitVec.ofNat 13
    ((coreEventsS4.core c0).pc.toNat / 64)) = true) ∧ (coreEventsS4.core c0).debugStop = true ∧ (coreEventsS4.core
    c0).halting = none ∧ ((coreEventsS4.core c0).mode = CoreMode.run ∨ (coreEventsS4.core c0).mode = CoreMode.wait)) := by
  try unfold State.ready
  decide +kernel

/-- Meets the hypotheses of Obligations.ScratchpadBankEvents. -/
theorem witness_banks :
    ((coreIs banky).coreOk c0 = true ∧ (((coreIs banky).core c0).bank (1)).ingress = some store1' ∧ (∀ (i : Nat), i ∈
    partialWords store1'.off.toNat (store1'.stored c0 (coreIs banky).mem).length → ((coreIs banky).core
    c0).noUncorrectable (8 * i) 8) ∧ (((coreIs banky).core c0).bank (1)).deferred = [] ∧ ((((coreIs banky).core
    c0).bank (1)).corrections = [] ∨ (((coreIs banky).core c0).bank (1)).deferred ≠ []) ∧ ((coreIs banky).core
    c0).powered.getLsbD (1) = true ∧ ((coreIs banky).core c0).zeroising.getLsbD (1) = false ∧ ((((coreIs banky).core
    c0).bank (1)).forced = true ∨ (((coreIs banky).core c0).bank (1)).opens 7 = true) ∧ ((coreIs banky).core
    c0).wantsBank (1) (5) = true ∧ ¬(5 : BitVec 3) ∈ (((coreIs banky).core c0).bank (1)).aged ∧ (((coreIs banky).core
    c0).bank (2)).ingress = none ∧ (((coreIs banky).core c0).bank (2)).deferred = [store1] ∧ (∀ (i : Nat), i ∈
    partialWords store1.off.toNat (store1.stored c0 (coreIs banky).mem).length → ((coreIs banky).core
    c0).noUncorrectable (8 * i) 8)) ∧ (banksS1.coreOk c0 = true ∧ ((banksS1.core c0).bank (1)).ingress = some store1'
    ∧ (¬∀ (i : Nat), i ∈ partialWords store1'.off.toNat (store1'.stored c0 banksS1.mem).length → (banksS1.core
    c0).noUncorrectable (8 * i) 8) ∧ store1'.stored c0 banksS1.mem ≠ []) ∧ (banksS2.coreOk c0 = true ∧ ((banksS2.core
    c0).bank (2)).deferred = [banksW3] ∧ (¬∀ (i : Nat), i ∈ partialWords banksW3.off.toNat (banksW3.stored c0
    banksS2.mem).length → (banksS2.core c0).noUncorrectable (8 * i) 8) ∧ banksW3.stored c0 banksS2.mem ≠ []) ∧
    (banksS8.coreOk c0 = true ∧ ((banksS8.core c0).bank (2)).corrections = [(128 : BitVec 19)] ∧ ((banksS8.core
    c0).bank (2)).deferred = [] ∧ (∀ (i : Nat), i ∈ partialWords (128) 8 → (banksS8.core c0).noUncorrectable (8 * i)
    8)) ∧ (zeroed.coreOk c0 = true ∧ (zeroed.core c0).zeroising.getLsbD (15) = true) := by
  try unfold Core.noUncorrectable
  decide +kernel

/-- Meets the hypotheses of Obligations.ArrivingPacketsWrite. -/
theorem witness_arrivals :
    (placedCore.coreOk c0 = true ∧ (placedCore.core c0).overtakes notify4 = false ∧ placedCore.ejectCheck c0
    (placedCore.core c0) notify4 = Eject.perform ∧ 0 < notify4.payload.length ∧ notify4.dest.toNat % 2 ^ 19 +
    notify4.payload.length ≤ 2 ^ 19 ∧ (∀ (m : Nat), m < 16 → ((placedCore.core c0).bank m).ingress = none) ∧ (∀ (e :
    Nat × EccErr), e ∈ (placedCore.core c0).ecc → e.snd.correctable = true) ∧ (∀ (m : Nat), m < 16 → ((placedCore.core
    c0).bank m).opens 5 = true) ∧ destCore notify4 = c0 ∧ notify4.opcode ≠ (5 : BitVec 4) ∧ notify4.status = (0 :
    BitVec 8) ∧ 64 * 0 < notify4.payload.length ∧ Instr.write notify4 [] (some (0 : BitVec 6)) ∈ [Instr.write notify4
    [] (some (0 : BitVec 6)), Instr.writeNotify notify4 [] (some (0 : BitVec 6)), Instr.rowcast c0 notify4 [] (some (0
    : BitVec 6)), Instr.colcast c0 notify4 [] (some (0 : BitVec 6))] ∧ notify4.dest.toNat % 2 ^ 19 / 64 =
    (notify4.dest.toNat % 2 ^ 19 + notify4.payload.length - 1) / 64 ∧ ((placedCore.core c0).bank (notify4.dest.toNat %
    2 ^ 19 / 64 % 16)).deferred = [] ∧ (placedCore.core c0).overtakes atomic = false ∧ placedCore.ejectCheck c0
    (placedCore.core c0) atomic = Eject.perform ∧ 0 < atomic.payload.length ∧ atomic.dest.toNat % 2 ^ 19 +
    atomic.payload.length ≤ 2 ^ 19 ∧ destCore atomic = c0 ∧ atomic.opcode = (5 : BitVec 4) ∧ atomic.dest.toNat % 2 ^
    19 % 4 = 0 ∧ 4 ≤ atomic.payload.length) := by
  decide +kernel

/-- Meets the hypotheses of Obligations.ArrivalChecksInOrder. -/
theorem witness_checks :
    ((destCore checksP1 = c0 ∧ checksI2 ∈ [Instr.write checksP1 [] none, Instr.writeNotify checksP1 [] none,
    Instr.atomicAdd checksP1 [] none, Instr.readResp checksP1 [] none, Instr.completion checksP1 true] ∨ destCore
    checksP1 = c0 ∧ checksI2 = Instr.readReq checksP1 true ∧ (placedCore.core c0).requests.length ≠ 8 ∨ checksI2 ∈
    [Instr.rowcast c0 checksP1 [] none, Instr.colcast c0 checksP1 [] none]) ∧ placedCore.coreOk c0 = true ∧
    placedCore.dieOf c0 = some 0 ∧ (placedCore.core c0).overtakes checksP1 = false ∧ ¬(checksP1.hcrc = pktCrc checksP1
    ∧ 1 ≤ checksP1.opcode.toNat ∧ checksP1.opcode.toNat ≤ 9)) ∧ ((destCore pkt = c0 ∧ Instr.write pkt [] none ∈
    [Instr.write pkt [] none, Instr.writeNotify pkt [] none, Instr.atomicAdd pkt [] none, Instr.readResp pkt [] none,
    Instr.completion pkt true] ∨ destCore pkt = c0 ∧ Instr.write pkt [] none = Instr.readReq pkt true ∧ (checksS3.core
    c0).requests.length ≠ 8 ∨ Instr.write pkt [] none ∈ [Instr.rowcast c0 pkt [] none, Instr.colcast c0 pkt [] none])
    ∧ checksS3.coreOk c0 = true ∧ checksS3.dieOf c0 = some 0 ∧ (checksS3.core c0).overtakes pkt = false ∧ pkt.hcrc =
    pktCrc pkt ∧ 1 ≤ pkt.opcode.toNat ∧ pkt.opcode.toNat ≤ 9 ∧ ¬((checksS3.die 0).net ≠ NetState.reset ∧
    (checksS3.core c0).testing = false)) ∧ ((destCore checksP4 = c0 ∧ checksI5 ∈ [Instr.write checksP4 [] none,
    Instr.writeNotify checksP4 [] none, Instr.atomicAdd checksP4 [] none, Instr.readResp checksP4 [] none,
    Instr.completion checksP4 true] ∨ destCore checksP4 = c0 ∧ checksI5 = Instr.readReq checksP4 true ∧
    (placedCore.core c0).requests.length ≠ 8 ∨ checksI5 ∈ [Instr.rowcast c0 checksP4 [] none, Instr.colcast c0
    checksP4 [] none]) ∧ placedCore.coreOk c0 = true ∧ placedCore.dieOf c0 = some 0 ∧ (placedCore.core c0).overtakes
    checksP4 = false ∧ checksP4.hcrc = pktCrc checksP4 ∧ 1 ≤ checksP4.opcode.toNat ∧ checksP4.opcode.toNat ≤ 9 ∧
    (placedCore.die 0).net ≠ NetState.reset ∧ (placedCore.core c0).testing = false ∧ (¬((placedCore.die 0).net =
    NetState.running ∧ (checksP4.offPanel = true ∧ checksP4.dpanel = placedCore.panel.panelId → (placedCore.part
    (placedCore.die 0).part.toNat).bound.isSome = true) ∧ (¬(checksP4.offPanel = true ∧ checksP4.dpanel =
    placedCore.panel.panelId) → (placedCore.die 0).assigned = true ∧ checksP4.job = (placedCore.die 0).job)))) ∧
    ((destCore checksP6 = c0 ∧ checksI7 ∈ [Instr.write checksP6 [] none, Instr.writeNotify checksP6 [] none,
    Instr.atomicAdd checksP6 [] none, Instr.readResp checksP6 [] none, Instr.completion checksP6 true] ∨ destCore
    checksP6 = c0 ∧ checksI7 = Instr.readReq checksP6 true ∧ (placedCore.core c0).requests.length ≠ 8 ∨ checksI7 ∈
    [Instr.rowcast c0 checksP6 [] none, Instr.colcast c0 checksP6 [] none]) ∧ placedCore.coreOk c0 = true ∧
    placedCore.dieOf c0 = some 0 ∧ (placedCore.core c0).overtakes checksP6 = false ∧ checksP6.hcrc = pktCrc checksP6 ∧
    1 ≤ checksP6.opcode.toNat ∧ checksP6.opcode.toNat ≤ 9 ∧ (placedCore.die 0).net ≠ NetState.reset ∧ (placedCore.core
    c0).testing = false ∧ ((placedCore.die 0).net = NetState.running ∧ (checksP6.offPanel = true ∧ checksP6.dpanel =
    placedCore.panel.panelId → (placedCore.part (placedCore.die 0).part.toNat).bound.isSome = true) ∧
    (¬(checksP6.offPanel = true ∧ checksP6.dpanel = placedCore.panel.panelId) → (placedCore.die 0).assigned = true ∧
    checksP6.job = (placedCore.die 0).job)) ∧ ¬(checksP6.offPanel = true ∧ checksP6.dpanel = placedCore.panel.panelId)
    ∧ checksP6.part ≠ (placedCore.die 0).part) ∧ ((destCore checksP8 = c0 ∧ checksI9 ∈ [Instr.write checksP8 [] none,
    Instr.writeNotify checksP8 [] none, Instr.atomicAdd checksP8 [] none, Instr.readResp checksP8 [] none,
    Instr.completion checksP8 true] ∨ destCore checksP8 = c0 ∧ checksI9 = Instr.readReq checksP8 true ∧
    (checksS10.core c0).requests.length ≠ 8 ∨ checksI9 ∈ [Instr.rowcast c0 checksP8 [] none, Instr.colcast c0 checksP8
    [] none]) ∧ checksS10.coreOk c0 = true ∧ checksS10.dieOf c0 = some 0 ∧ (checksS10.core c0).overtakes checksP8 =
    false ∧ checksP8.hcrc = pktCrc checksP8 ∧ 1 ≤ checksP8.opcode.toNat ∧ checksP8.opcode.toNat ≤ 9 ∧ (checksS10.die
    0).net ≠ NetState.reset ∧ (checksS10.core c0).testing = false ∧ ((checksS10.die 0).net = NetState.running ∧
    (checksP8.offPanel = true ∧ checksP8.dpanel = checksS10.panel.panelId → (checksS10.part (checksS10.die
    0).part.toNat).bound.isSome = true) ∧ (¬(checksP8.offPanel = true ∧ checksP8.dpanel = checksS10.panel.panelId) →
    (checksS10.die 0).assigned = true ∧ checksP8.job = (checksS10.die 0).job)) ∧ checksP8.offPanel = true ∧
    checksP8.dpanel = checksS10.panel.panelId ∧ checksS10.bindOk (checksS10.die 0).part.toNat checksP8 = false) ∧
    ((destCore pkt = c0 ∧ Instr.write pkt [] none ∈ [Instr.write pkt [] none, Instr.writeNotify pkt [] none,
    Instr.atomicAdd pkt [] none, Instr.readResp pkt [] none, Instr.completion pkt true] ∨ destCore pkt = c0 ∧
    Instr.write pkt [] none = Instr.readReq pkt true ∧ (flashed.core c0).requests.length ≠ 8 ∨ Instr.write pkt [] none
    ∈ [Instr.rowcast c0 pkt [] none, Instr.colcast c0 pkt [] none]) ∧ flashed.coreOk c0 = true ∧ flashed.dieOf c0 =
    some 0 ∧ (flashed.core c0).overtakes pkt = false ∧ pkt.hcrc = pktCrc pkt ∧ 1 ≤ pkt.opcode.toNat ∧ pkt.opcode.toNat
    ≤ 9 ∧ (flashed.die 0).net ≠ NetState.reset ∧ (flashed.core c0).testing = false ∧ ((flashed.die 0).net =
    NetState.running ∧ (pkt.offPanel = true ∧ pkt.dpanel = flashed.panel.panelId → (flashed.part (flashed.die
    0).part.toNat).bound.isSome = true) ∧ (¬(pkt.offPanel = true ∧ pkt.dpanel = flashed.panel.panelId) → (flashed.die
    0).assigned = true ∧ pkt.job = (flashed.die 0).job)) ∧ ((pkt.offPanel = true ∧ pkt.dpanel = flashed.panel.panelId
    → flashed.bindOk (flashed.die 0).part.toNat pkt = true) ∧ (¬(pkt.offPanel = true ∧ pkt.dpanel =
    flashed.panel.panelId) → pkt.part = (flashed.die 0).part)) ∧ ¬flashed.coreRetired 0 (coreIndex c0) = false) ∧
    ((destCore checksP11 = c0 ∧ checksI12 ∈ [Instr.write checksP11 [] none, Instr.writeNotify checksP11 [] none,
    Instr.atomicAdd checksP11 [] none, Instr.readResp checksP11 [] none, Instr.completion checksP11 true] ∨ destCore
    checksP11 = c0 ∧ checksI12 = Instr.readReq checksP11 true ∧ (placedCore.core c0).requests.length ≠ 8 ∨ checksI12 ∈
    [Instr.rowcast c0 checksP11 [] none, Instr.colcast c0 checksP11 [] none]) ∧ placedCore.coreOk c0 = true ∧
    placedCore.dieOf c0 = some 0 ∧ (placedCore.core c0).overtakes checksP11 = false ∧ checksP11.hcrc = pktCrc
    checksP11 ∧ 1 ≤ checksP11.opcode.toNat ∧ checksP11.opcode.toNat ≤ 9 ∧ (placedCore.die 0).net ≠ NetState.reset ∧
    (placedCore.core c0).testing = false ∧ ((placedCore.die 0).net = NetState.running ∧ (checksP11.offPanel = true ∧
    checksP11.dpanel = placedCore.panel.panelId → (placedCore.part (placedCore.die 0).part.toNat).bound.isSome = true)
    ∧ (¬(checksP11.offPanel = true ∧ checksP11.dpanel = placedCore.panel.panelId) → (placedCore.die 0).assigned = true
    ∧ checksP11.job = (placedCore.die 0).job)) ∧ ((checksP11.offPanel = true ∧ checksP11.dpanel =
    placedCore.panel.panelId → placedCore.bindOk (placedCore.die 0).part.toNat checksP11 = true) ∧
    (¬(checksP11.offPanel = true ∧ checksP11.dpanel = placedCore.panel.panelId) → checksP11.part = (placedCore.die
    0).part)) ∧ placedCore.coreRetired 0 (coreIndex c0) = false ∧ decodeAddr checksP11.dest.toNat = PAddr.hbm 1024) ∧
    ((destCore checksP13 = c0 ∧ checksI14 ∈ [Instr.write checksP13 [] none, Instr.writeNotify checksP13 [] none,
    Instr.atomicAdd checksP13 [] none, Instr.readResp checksP13 [] none, Instr.completion checksP13 true] ∨ destCore
    checksP13 = c0 ∧ checksI14 = Instr.readReq checksP13 true ∧ (placedCore.core c0).requests.length ≠ 8 ∨ checksI14 ∈
    [Instr.rowcast c0 checksP13 [] none, Instr.colcast c0 checksP13 [] none]) ∧ placedCore.coreOk c0 = true ∧
    placedCore.dieOf c0 = some 0 ∧ (placedCore.core c0).overtakes checksP13 = false ∧ checksP13.hcrc = pktCrc
    checksP13 ∧ 1 ≤ checksP13.opcode.toNat ∧ checksP13.opcode.toNat ≤ 9 ∧ (placedCore.die 0).net ≠ NetState.reset ∧
    (placedCore.core c0).testing = false ∧ ((placedCore.die 0).net = NetState.running ∧ (checksP13.offPanel = true ∧
    checksP13.dpanel = placedCore.panel.panelId → (placedCore.part (placedCore.die 0).part.toNat).bound.isSome = true)
    ∧ (¬(checksP13.offPanel = true ∧ checksP13.dpanel = placedCore.panel.panelId) → (placedCore.die 0).assigned = true
    ∧ checksP13.job = (placedCore.die 0).job)) ∧ ((checksP13.offPanel = true ∧ checksP13.dpanel =
    placedCore.panel.panelId → placedCore.bindOk (placedCore.die 0).part.toNat checksP13 = true) ∧
    (¬(checksP13.offPanel = true ∧ checksP13.dpanel = placedCore.panel.panelId) → checksP13.part = (placedCore.die
    0).part)) ∧ placedCore.coreRetired 0 (coreIndex c0) = false ∧ decodeAddr checksP13.dest.toNat = PAddr.bad) ∧
    ((destCore checksP15 = c0 ∧ checksI16 ∈ [Instr.write checksP15 [] none, Instr.writeNotify checksP15 [] none,
    Instr.atomicAdd checksP15 [] none, Instr.readResp checksP15 [] none, Instr.completion checksP15 true] ∨ destCore
    checksP15 = c0 ∧ checksI16 = Instr.readReq checksP15 true ∧ (placedCore.core c0).requests.length ≠ 8 ∨ checksI16 ∈
    [Instr.rowcast c0 checksP15 [] none, Instr.colcast c0 checksP15 [] none]) ∧ placedCore.coreOk c0 = true ∧
    placedCore.dieOf c0 = some 0 ∧ (placedCore.core c0).overtakes checksP15 = false ∧ checksP15.hcrc = pktCrc
    checksP15 ∧ 1 ≤ checksP15.opcode.toNat ∧ checksP15.opcode.toNat ≤ 9 ∧ (placedCore.die 0).net ≠ NetState.reset ∧
    (placedCore.core c0).testing = false ∧ ((placedCore.die 0).net = NetState.running ∧ (checksP15.offPanel = true ∧
    checksP15.dpanel = placedCore.panel.panelId → (placedCore.part (placedCore.die 0).part.toNat).bound.isSome = true)
    ∧ (¬(checksP15.offPanel = true ∧ checksP15.dpanel = placedCore.panel.panelId) → (placedCore.die 0).assigned = true
    ∧ checksP15.job = (placedCore.die 0).job)) ∧ ((checksP15.offPanel = true ∧ checksP15.dpanel =
    placedCore.panel.panelId → placedCore.bindOk (placedCore.die 0).part.toNat checksP15 = true) ∧
    (¬(checksP15.offPanel = true ∧ checksP15.dpanel = placedCore.panel.panelId) → checksP15.part = (placedCore.die
    0).part)) ∧ placedCore.coreRetired 0 (coreIndex c0) = false ∧ checksP15.opcode ≠ (9 : BitVec 4) ∧ decodeAddr
    checksP15.dest.toNat = PAddr.sp 0 0 524286 ∧ 2 ^ 19 < 524286 + checksP15.len.toNat) ∧ ((destCore pkt = c0 ∧
    Instr.write pkt [] none ∈ [Instr.write pkt [] none, Instr.writeNotify pkt [] none, Instr.atomicAdd pkt [] none,
    Instr.readResp pkt [] none, Instr.completion pkt true] ∨ destCore pkt = c0 ∧ Instr.write pkt [] none =
    Instr.readReq pkt true ∧ (checksS17.core c0).requests.length ≠ 8 ∨ Instr.write pkt [] none ∈ [Instr.rowcast c0 pkt
    [] none, Instr.colcast c0 pkt [] none]) ∧ checksS17.coreOk c0 = true ∧ checksS17.dieOf c0 = some 0 ∧
    (checksS17.core c0).overtakes pkt = false ∧ pkt.hcrc = pktCrc pkt ∧ 1 ≤ pkt.opcode.toNat ∧ pkt.opcode.toNat ≤ 9 ∧
    (checksS17.die 0).net ≠ NetState.reset ∧ (checksS17.core c0).testing = false ∧ ((checksS17.die 0).net =
    NetState.running ∧ (pkt.offPanel = true ∧ pkt.dpanel = checksS17.panel.panelId → (checksS17.part (checksS17.die
    0).part.toNat).bound.isSome = true) ∧ (¬(pkt.offPanel = true ∧ pkt.dpanel = checksS17.panel.panelId) →
    (checksS17.die 0).assigned = true ∧ pkt.job = (checksS17.die 0).job)) ∧ ((pkt.offPanel = true ∧ pkt.dpanel =
    checksS17.panel.panelId → checksS17.bindOk (checksS17.die 0).part.toNat pkt = true) ∧ (¬(pkt.offPanel = true ∧
    pkt.dpanel = checksS17.panel.panelId) → pkt.part = (checksS17.die 0).part)) ∧ checksS17.coreRetired 0 (coreIndex
    c0) = false ∧ pkt.opcode ≠ (9 : BitVec 4) ∧ decodeAddr pkt.dest.toNat = PAddr.sp 0 0 1024 ∧ 1024 + pkt.len.toNat ≤
    2 ^ 19 ∧ (checksS17.core c0).rangeOn 1024 pkt.len.toNat = false) ∧ ((destCore checksP19 = c0 ∧ checksI20 ∈
    [Instr.write checksP19 [] none, Instr.writeNotify checksP19 [] none, Instr.atomicAdd checksP19 [] none,
    Instr.readResp checksP19 [] none, Instr.completion checksP19 true] ∨ destCore checksP19 = c0 ∧ checksI20 =
    Instr.readReq checksP19 true ∧ (checksS18.core c0).requests.length ≠ 8 ∨ checksI20 ∈ [Instr.rowcast c0 checksP19
    [] none, Instr.colcast c0 checksP19 [] none]) ∧ checksS18.coreOk c0 = true ∧ checksS18.dieOf c0 = some 0 ∧
    (checksS18.core c0).overtakes checksP19 = true) := by
  decide +kernel

/-- Meets the hypotheses of Obligations.ReadsAndCompletions. -/
theorem witness_reads :
    (placedCore.coreOk c0 = true ∧ destCore rreq = c0 ∧ (placedCore.core c0).overtakes rreq = false ∧
    placedCore.ejectCheck c0 (placedCore.core c0) rreq = Eject.perform ∧ (placedCore.core c0).requests.length < 8 ∧
    (placedCore.core c0).requests = [] ∧ rreq.status = (0 : BitVec 8) ∧ placedCore.dieOf c0 = some 0 ∧ (1 : BitVec 8)
    ≠ (0 : BitVec 8) ∧ (placedCore.die 0).net = NetState.running ∧ (placedCore.die 0).job = (3 : BitVec 8) ∧ ((0 :
    BitVec 8) = (0 : BitVec 8) ∨ (placedCore.die 0).job ≠ (3 : BitVec 8) ∨ (placedCore.die 0).net ≠ NetState.running))
    ∧ (readsS1.coreOk c0 = true ∧ destCore rreq = c0 ∧ (readsS1.core c0).requests.length = 8) ∧ (readsS2.coreOk c0 =
    true ∧ readsS2.dieOf c0 = some 0 ∧ (readsS2.core c0).requests = [rreq] ∧ (readsS2.die 0).net ≠ NetState.reset ∧
    decodeAddr rreq.dest.toNat = PAddr.sp 0 0 1024 ∧ (readsS2.core c0).rangeOn 1024 rreq.len.toNat = true ∧
    (readsS2.core c0).opens 6 1024 rreq.len.toNat = true ∧ (readsS2.core c0).noUncorrectable 1024 rreq.len.toNat) ∧
    (readsS3.coreOk c0 = true ∧ readsS3.dieOf c0 = some 0 ∧ (readsS3.core c0).requests = [rreq] ∧ (readsS3.die 0).net
    ≠ NetState.reset ∧ decodeAddr rreq.dest.toNat = PAddr.sp 0 0 1024 ∧ (readsS3.core c0).rangeOn 1024 rreq.len.toNat
    = true ∧ (readsS3.core c0).opens 6 1024 rreq.len.toNat = true ∧ ¬(readsS3.core c0).noUncorrectable 1024
    rreq.len.toNat) ∧ (readsS4.coreOk c0 = true ∧ readsS4.dieOf c0 = some 0 ∧ (readsS4.core c0).requests = [rreq] ∧
    (readsS4.die 0).net ≠ NetState.reset ∧ decodeAddr rreq.dest.toNat = PAddr.sp 0 0 1024 ∧ (readsS4.core c0).rangeOn
    1024 rreq.len.toNat = true ∧ (readsS4.core c0).opens 6 1024 rreq.len.toNat = false) ∧ (readsS5.coreOk c0 = true ∧
    readsS5.dieOf c0 = some 0 ∧ (readsS5.core c0).requests = [rreq] ∧ (readsS5.die 0).net = NetState.reset) ∧
    (readsS6.coreOk c0 = true ∧ readsS6.dieOf c0 = some 0 ∧ (readsS6.core c0).requests = [readsP7] ∧ (readsS6.die
    0).net ≠ NetState.reset ∧ decodeAddr readsP7.dest.toNat = PAddr.reg 0 0 0 1024 0) ∧ (placedCore.coreOk c0 = true ∧
    destCore readsP10 = c0 ∧ (placedCore.core c0).overtakes readsP10 = false ∧ placedCore.ejectCheck c0
    (placedCore.core c0) readsP10 = Eject.perform ∧ readsP10.status ≠ (0 : BitVec 8)) := by
  try unfold Core.noUncorrectable
  decide +kernel

/-- Meets the hypotheses of Obligations.RouterForwards. -/
theorem witness_forwards :
    (routed.coreOk c0 = true ∧ routed.winner c0 ((routed.router c0).earn (4)) (4) = some (cand 5) ∧ (cand 5).vc ≠ 2 ∧
    ((routed.router c0).earn (4)).buf (cand 5).inp (cand 5).vc = [forwardsF1] ∧ (forwardsF1.idx ≠ 0 ∨ (routed.flitHop
    c0 ((routed.router c0).earn (4)) (cand 5).inp (cand 5).vc forwardsF1).fst.sinks = false) ∧ one.bcast = (0 : BitVec
    2) ∧ ¬one ∈ routed.ctlOut ∧ (routed.router c0).buf (2) (0) = [] ∧ (routed.router c0).buf (2) 1 = [forwardsF2] ∧
    forwardsF2.idx = 0 ∧ (routed.router c0).aged.contains (2 : BitVec 3) = false ∧ (∀ (q : Nat), q < 5 → ¬Option.any
    (fun w => w.turns && w.inp == 2) (routed.winner c0 ((routed.router c0).earn q) q) = true) ∧ (routed.router c0).buf
    (5) 1 = [] ∧ routed.siteOk forwardsD5 = true ∧ (routed.edge (siteKey forwardsD5) (1)).state = (1 : BitVec 2) ∧ (3
    : BitVec 3) ≠ (0 : BitVec 3) ∧ (routed.edge (siteKey forwardsD5) (1)).inject = none ∧ 3 < 4 ∧ 4 ≤ 4 ∧
    ((routed.edge (siteKey forwardsD5) (1)).state ≠ (1 : BitVec 2) ∨ (0 : BitVec 3) = (0 : BitVec 3))) ∧
    (barred.coreOk edge31 = true ∧ barred.winner edge31 ((barred.router edge31).earn (1)) (1) = some (cand 4) ∧ (cand
    4).vc ≠ 2 ∧ ((barred.router edge31).earn (1)).buf (cand 4).inp (cand 4).vc = [forwardsF6] ∧ forwardsF6.idx = 0 ∧
    (barred.flitHop edge31 ((barred.router edge31).earn (1)) (cand 4).inp (cand 4).vc forwardsF6).fst = Hop.sink 1 (4
    : BitVec 8) ∧ pktMulticast forwardsF6.p = false ∧ barred.winner edge31 (barred.router edge31) (1) = some (cand 4)
    ∧ (barred.router edge31).buf (cand 4).inp (cand 4).vc = [forwardsF6]) ∧ (ages.coreOk c0 = true ∧ ages.winner c0
    ((ages.router c0).earn (0)) (0) = none ∧ (ages.router c0).buf (2) (1) = [forwardsF7] ∧ forwardsF7.idx = 0 ∧
    escapes forwardsF7.p (1) = true ∧ (ages.router c0).channel (2) (1) forwardsF7.p ≠ 0 ∧ (ages.router c0).buf (2) 1 =
    [forwardsF7] ∧ (ages.router c0).aged.contains (2 : BitVec 3) = true) ∧ (turns.coreOk c0 = true ∧ 4 < 5 ∧
    (Option.any (fun w => w.turns && w.inp == 1) (turns.winner c0 ((turns.router c0).earn (4)) (4)) = true) ∧ (∀ (q :
    Nat), q < 4 → ¬Option.any (fun w => w.turns && w.inp == 1) (turns.winner c0 ((turns.router c0).earn q) q) = true))
    ∧ (passing.coreOk c0 = true ∧ passing.winner c0 ((passing.router c0).earn (4)) (4) = some forwardsW8 ∧
    forwardsW8.vc = 2 ∧ ((passing.router c0).earn (4)).flumes[forwardsW8.flume]? = some hop8 ∧ passing.hopFlits c0
    hop8 = [flit1]) ∧ (heads.siteOk forwardsD5 = true ∧ (heads.edge (siteKey forwardsD5) (1)).state = (1 : BitVec 2) ∧
    (3 : BitVec 3) ≠ (0 : BitVec 3) ∧ (heads.edge (siteKey forwardsD5) (1)).inject = some 2) := by
  decide +kernel

/-- Meets the hypotheses of Obligations.FlumeSteps. -/
theorem witness_flumes :
    (collects.coreOk c0 = true ∧ tget [] (collects.core c0).flumeOut (0) = [flit1] ∧ ((collects.core c0).endpoint (0 :
    BitVec 3)).valid = true ∧ ((collects.core c0).endpoint (0 : BitVec 3)).role = (3 : BitVec 3) ∧ (tget []
    (collects.core c0).contrib (0)).length < 4 ∧ collects.flumeEntry (collects.core c0).partNo ((collects.core
    c0).endpoint (0 : BitVec 3)).flume = some flume7 ∧ flumeKind flume7 = 2 ∧ (((rowCombine flume7 (0) (apart
    c0.x.toNat (bits flume7 18 9)) (collects.core c0)).bind fun x => if apart c0.x.toNat (bits flume7 18 9) + 1 =
    flumeCw flume7 then colCombine flume7 (0) (apart c0.y.toNat (bits flume7 27 9)) x else some x) = some made1) ∧
    (collects.setCore c0 made1.k).toNext c0 (collects.core c0).partNo ((collects.core c0).endpoint (0 : BitVec
    3)).flume flume7 made1.out = none ∧ collects.coreOk c1 = true ∧ collects.flumeEntry (collects.core c1).partNo
    ((collects.core c1).endpoint (0 : BitVec 3)).flume = some flume7 ∧ ((collects.core c1).endpoint (0 : BitVec
    3)).valid = true ∧ ((collects.core c1).endpoint (0 : BitVec 3)).role = (3 : BitVec 3) ∧ (((rowCombine flume7 (0)
    (apart c1.x.toNat (bits flume7 18 9)) (collects.core c1)).bind fun x => if apart c1.x.toNat (bits flume7 18 9) + 1
    = flumeCw flume7 then colCombine flume7 (0) (apart c1.y.toNat (bits flume7 27 9)) x else some x) = none)) ∧
    (full4.coreOk c0 = true ∧ tget [] (full4.core c0).flumeOut (0) = [flit1] ∧ 4 ≤ (tget [] (full4.core c0).contrib
    (0)).length) ∧ (legged.coreOk c0 = true ∧ legged.flumeEntry (legged.core c0).partNo ((legged.core c0).endpoint (0
    : BitVec 3)).flume = some flume7 ∧ flumeKind flume7 = 2 ∧ ((legged.core c0).endpoint (0 : BitVec 3)).valid = true
    ∧ ((legged.core c0).endpoint (0 : BitVec 3)).role = (3 : BitVec 3) ∧ (((rowCombine flume7 (0) (apart c0.x.toNat
    (bits flume7 18 9)) (legged.core c0)).bind fun x => if apart c0.x.toNat (bits flume7 18 9) + 1 = flumeCw flume7
    then colCombine flume7 (0) (apart c0.y.toNat (bits flume7 27 9)) x else some x) = some made1) ∧ (legged.setCore c0
    made1.k).toNext c0 (legged.core c0).partNo ((legged.core c0).endpoint (0 : BitVec 3)).flume flume7 made1.out =
    some sent0 ∧ apart c0.x.toNat (bits flume7 18 9) = 0 ∧ apart c0.x.toNat (bits flume7 18 9) + 1 ≠ flumeCw flume7 ∧
    c0 ≠ endCorner flume7 ∧ tget [] (legged.core c0).contrib (0) = [flit1] ∧ (legged.router c0).flumeAt (legged.core
    c0).partNo ((legged.core c0).endpoint (0 : BitVec 3)).flume 4 = some leg7 ∧ leg7.stopped = false ∧ leg7.buf.length
    + (widen flume7 flit1).length ≤ 4) ∧ ((linkedEnd (some (2 : BitVec 6)) (some (3 : BitVec 6)) [flit1]).coreOk c1 =
    true ∧ (linkedEnd (some (2 : BitVec 6)) (some (3 : BitVec 6)) [flit1]).flumeEntry ((linkedEnd (some (2 : BitVec
    6)) (some (3 : BitVec 6)) [flit1]).core c1).partNo (((linkedEnd (some (2 : BitVec 6)) (some (3 : BitVec 6))
    [flit1]).core c1).endpoint (0 : BitVec 3)).flume = some flume7 ∧ (linkedEnd (some (2 : BitVec 6)) (some (3 :
    BitVec 6)) [flit1]).collectorLink ((linkedEnd (some (2 : BitVec 6)) (some (3 : BitVec 6)) [flit1]).core
    c1).partNo.toNat (((linkedEnd (some (2 : BitVec 6)) (some (3 : BitVec 6)) [flit1]).core c1).endpoint (0 : BitVec
    3)).flume = some flumesL1 ∧ flumeKind flume7 = 2 ∧ (((linkedEnd (some (2 : BitVec 6)) (some (3 : BitVec 6))
    [flit1]).core c1).endpoint (0 : BitVec 3)).valid = true ∧ (((linkedEnd (some (2 : BitVec 6)) (some (3 : BitVec 6))
    [flit1]).core c1).endpoint (0 : BitVec 3)).role = (3 : BitVec 3) ∧ c1 = endCorner flume7 ∧ ((linkedEnd (some (2 :
    BitVec 6)) (some (3 : BitVec 6)) [flit1]).router c1).flumeAt ((linkedEnd (some (2 : BitVec 6)) (some (3 : BitVec
    6)) [flit1]).core c1).partNo (((linkedEnd (some (2 : BitVec 6)) (some (3 : BitVec 6)) [flit1]).core c1).endpoint
    (0 : BitVec 3)).flume 4 = some flumesG2 ∧ flumesG2.stopped = false ∧ (List.take (if flumesL1.code.isSome = true
    then 2 else 1) (tget [] (linkedEnd (some (2 : BitVec 6)) (some (3 : BitVec 6)) [flit1]).linkCol (4096 *
    ((linkedEnd (some (2 : BitVec 6)) (some (3 : BitVec 6)) [flit1]).core c1).partNo.toNat + (((linkedEnd (some (2 :
    BitVec 6)) (some (3 : BitVec 6)) [flit1]).core c1).endpoint (0 : BitVec 3)).flume.toNat))).length = (if
    flumesL1.code.isSome = true then 2 else 1) ∧ (flumesL1.up.isSome = true → (List.take (if flumesL1.code.isSome =
    true then 2 else 1) (tget [] (linkedEnd (some (2 : BitVec 6)) (some (3 : BitVec 6)) [flit1]).linkIn (4096 *
    ((linkedEnd (some (2 : BitVec 6)) (some (3 : BitVec 6)) [flit1]).core c1).partNo.toNat + (((linkedEnd (some (2 :
    BitVec 6)) (some (3 : BitVec 6)) [flit1]).core c1).endpoint (0 : BitVec 3)).flume.toNat))).length = (if
    flumesL1.code.isSome = true then 2 else 1)) ∧ flumesL1.down = some (3 : BitVec 6) ∧ ((linkedEnd (some (2 : BitVec
    6)) (some (3 : BitVec 6)) [flit1]).port (3)).dead = false) ∧ ((linkedEnd (some (2 : BitVec 6)) none
    [flit1]).coreOk c1 = true ∧ (linkedEnd (some (2 : BitVec 6)) none [flit1]).flumeEntry ((linkedEnd (some (2 :
    BitVec 6)) none [flit1]).core c1).partNo (((linkedEnd (some (2 : BitVec 6)) none [flit1]).core c1).endpoint (0 :
    BitVec 3)).flume = some flume7 ∧ (linkedEnd (some (2 : BitVec 6)) none [flit1]).collectorLink ((linkedEnd (some (2
    : BitVec 6)) none [flit1]).core c1).partNo.toNat (((linkedEnd (some (2 : BitVec 6)) none [flit1]).core
    c1).endpoint (0 : BitVec 3)).flume = some flumesL3 ∧ flumeKind flume7 = 2 ∧ (((linkedEnd (some (2 : BitVec 6))
    none [flit1]).core c1).endpoint (0 : BitVec 3)).valid = true ∧ (((linkedEnd (some (2 : BitVec 6)) none
    [flit1]).core c1).endpoint (0 : BitVec 3)).role = (3 : BitVec 3) ∧ c1 = endCorner flume7 ∧ ((linkedEnd (some (2 :
    BitVec 6)) none [flit1]).router c1).flumeAt ((linkedEnd (some (2 : BitVec 6)) none [flit1]).core c1).partNo
    (((linkedEnd (some (2 : BitVec 6)) none [flit1]).core c1).endpoint (0 : BitVec 3)).flume 4 = some flumesG2 ∧
    flumesG2.stopped = false ∧ (List.take (if flumesL3.code.isSome = true then 2 else 1) (tget [] (linkedEnd (some (2
    : BitVec 6)) none [flit1]).linkCol (4096 * ((linkedEnd (some (2 : BitVec 6)) none [flit1]).core c1).partNo.toNat +
    (((linkedEnd (some (2 : BitVec 6)) none [flit1]).core c1).endpoint (0 : BitVec 3)).flume.toNat))).length = (if
    flumesL3.code.isSome = true then 2 else 1) ∧ (flumesL3.up.isSome = true → (List.take (if flumesL3.code.isSome =
    true then 2 else 1) (tget [] (linkedEnd (some (2 : BitVec 6)) none [flit1]).linkIn (4096 * ((linkedEnd (some (2 :
    BitVec 6)) none [flit1]).core c1).partNo.toNat + (((linkedEnd (some (2 : BitVec 6)) none [flit1]).core
    c1).endpoint (0 : BitVec 3)).flume.toNat))).length = (if flumesL3.code.isSome = true then 2 else 1)) ∧
    flumesL3.down = none ∧ flumesG2.buf.length + (if flumesL3.up.isSome = true then List.zipWith (combineFlits flume7)
    (List.take (if flumesL3.code.isSome = true then 2 else 1) (tget [] (linkedEnd (some (2 : BitVec 6)) none
    [flit1]).linkIn (4096 * ((linkedEnd (some (2 : BitVec 6)) none [flit1]).core c1).partNo.toNat + (((linkedEnd (some
    (2 : BitVec 6)) none [flit1]).core c1).endpoint (0 : BitVec 3)).flume.toNat))) (List.take (if flumesL3.code.isSome
    = true then 2 else 1) (tget [] (linkedEnd (some (2 : BitVec 6)) none [flit1]).linkCol (4096 * ((linkedEnd (some (2
    : BitVec 6)) none [flit1]).core c1).partNo.toNat + (((linkedEnd (some (2 : BitVec 6)) none [flit1]).core
    c1).endpoint (0 : BitVec 3)).flume.toNat))) else List.take (if flumesL3.code.isSome = true then 2 else 1) (tget []
    (linkedEnd (some (2 : BitVec 6)) none [flit1]).linkCol (4096 * ((linkedEnd (some (2 : BitVec 6)) none
    [flit1]).core c1).partNo.toNat + (((linkedEnd (some (2 : BitVec 6)) none [flit1]).core c1).endpoint (0 : BitVec
    3)).flume.toNat))).length ≤ 4) ∧ ((linkedEnd (some (2 : BitVec 6)) none []).coreOk c1 = true ∧ (linkedEnd (some (2
    : BitVec 6)) none []).flumeEntry ((linkedEnd (some (2 : BitVec 6)) none []).core c1).partNo (((linkedEnd (some (2
    : BitVec 6)) none []).core c1).endpoint (0 : BitVec 3)).flume = some flume7 ∧ (linkedEnd (some (2 : BitVec 6))
    none []).collectorLink ((linkedEnd (some (2 : BitVec 6)) none []).core c1).partNo.toNat (((linkedEnd (some (2 :
    BitVec 6)) none []).core c1).endpoint (0 : BitVec 3)).flume = some flumesL3 ∧ flumeKind flume7 = 2 ∧ (((linkedEnd
    (some (2 : BitVec 6)) none []).core c1).endpoint (0 : BitVec 3)).valid = true ∧ (((linkedEnd (some (2 : BitVec 6))
    none []).core c1).endpoint (0 : BitVec 3)).role = (3 : BitVec 3) ∧ c1 = endCorner flume7 ∧ ((linkedEnd (some (2 :
    BitVec 6)) none []).router c1).flumeAt ((linkedEnd (some (2 : BitVec 6)) none []).core c1).partNo (((linkedEnd
    (some (2 : BitVec 6)) none []).core c1).endpoint (0 : BitVec 3)).flume 4 = some flumesG2 ∧ flumesG2.stopped =
    false ∧ (((List.take (if flumesL3.code.isSome = true then 2 else 1) (tget [] (linkedEnd (some (2 : BitVec 6)) none
    []).linkCol (4096 * ((linkedEnd (some (2 : BitVec 6)) none []).core c1).partNo.toNat + (((linkedEnd (some (2 :
    BitVec 6)) none []).core c1).endpoint (0 : BitVec 3)).flume.toNat))).length < if flumesL3.code.isSome = true then
    2 else 1) ∨ flumesL3.up.isSome = true ∧ (List.take (if flumesL3.code.isSome = true then 2 else 1) (tget []
    (linkedEnd (some (2 : BitVec 6)) none []).linkIn (4096 * ((linkedEnd (some (2 : BitVec 6)) none []).core
    c1).partNo.toNat + (((linkedEnd (some (2 : BitVec 6)) none []).core c1).endpoint (0 : BitVec
    3)).flume.toNat))).length < if flumesL3.code.isSome = true then 2 else 1)) ∧ ((landing lands).coreOk c0 = true ∧
    (landing lands).flumeEntry ((landing lands).core c0).partNo (((landing lands).core c0).endpoint (1 : BitVec
    3)).flume = some flume8 ∧ (((landing lands).core c0).endpoint (1 : BitVec 3)).valid = true ∧ (tget [] ((landing
    lands).core c0).flumeIn (1)).head? = some flit1 ∧ (if flumeKind flume8 = 2 ∧ flumeCfmt flume8 = 1 then 2 else 1) ≤
    (tget [] ((landing lands).core c0).flumeIn (1)).length ∧ ((landing lands).core c0).sinks flit1 = false ∧ (landing
    lands).flumeCheck c0 ((landing lands).core c0) (64 * ((((landing lands).core c0).endpoint (1 : BitVec
    3)).base.toNat + (((landing lands).core c0).endpoint (1 : BitVec 3)).pos.toNat)) = none ∧ (∀ (x : Nat × EccErr), x
    ∈ ((landing lands).core c0).ecc → x.snd.correctable = true) ∧ (((landing lands).core c0).bank (64 * ((((landing
    lands).core c0).endpoint (1 : BitVec 3)).base.toNat + (((landing lands).core c0).endpoint (1 : BitVec
    3)).pos.toNat) / 64 % 16)).ingress = none ∧ (((landing lands).core c0).bank (64 * ((((landing lands).core
    c0).endpoint (1 : BitVec 3)).base.toNat + (((landing lands).core c0).endpoint (1 : BitVec 3)).pos.toNat) / 64 %
    16)).opens 5 = true) ∧ (flumesS4.coreOk c0 = true ∧ flumesS4.flumeEntry (flumesS4.core c0).partNo ((flumesS4.core
    c0).endpoint (1 : BitVec 3)).flume = some flume8 ∧ ((flumesS4.core c0).endpoint (1 : BitVec 3)).valid = true ∧
    (tget [] (flumesS4.core c0).flumeIn (1)).head? = some flit1 ∧ (if flumeKind flume8 = 2 ∧ flumeCfmt flume8 = 1 then
    2 else 1) ≤ (tget [] (flumesS4.core c0).flumeIn (1)).length ∧ (flumesS4.core c0).sinks flit1 = true) ∧
    (flumesS5.coreOk c0 = true ∧ flumesS5.flumeEntry (flumesS5.core c0).partNo ((flumesS5.core c0).endpoint (1 :
    BitVec 3)).flume = some flume8 ∧ ((flumesS5.core c0).endpoint (1 : BitVec 3)).valid = true ∧ (tget []
    (flumesS5.core c0).flumeIn (1)).head? = some flit1 ∧ (if flumeKind flume8 = 2 ∧ flumeCfmt flume8 = 1 then 2 else
    1) ≤ (tget [] (flumesS5.core c0).flumeIn (1)).length ∧ (flumesS5.core c0).sinks flit1 = false ∧
    flumesS5.flumeCheck c0 (flumesS5.core c0) (64 * (((flumesS5.core c0).endpoint (1 : BitVec 3)).base.toNat +
    ((flumesS5.core c0).endpoint (1 : BitVec 3)).pos.toNat)) = some ((1 : BitVec 8), true)) := by
  decide +kernel

/-- Meets the hypotheses of Obligations.CoreControl. -/
theorem witness_coreControl :
    (placedCore.slotFree one = true ∧ (∀ (e : Session), e ∈ placedCore.sec.sessions → e.authorised = false ∨
    e.rights.getLsbD 2 = false)) ∧ ((∃ e, e ∈ debugged1.sec.sessions ∧ e.authorised = true ∧ e.rights.getLsbD 2 =
    true) ∧ debugged1.slotFree one = true) ∧ (coreControlS1.slotFree one = false ∧ (∀ (e : Session), e ∈
    coreControlS1.sec.sessions → e.authorised = false ∨ e.rights.getLsbD 2 = false)) ∧ ((∃ e, e ∈
    coreControlS2.sec.sessions ∧ e.authorised = true ∧ e.rights.getLsbD 2 = true) ∧ coreControlS2.slotFree one =
    false) := by
  decide +kernel

/-- Meets the hypotheses of Obligations.ControlRequests. -/
theorem witness_control :
    (placedCore.slotFree one = true ∧ (∀ (c : CoreRef), c ∈ placedCore.ctlCores one → (placedCore.core c).rangeOn
    (124) (List.take 64 [(1 : Byte), (2 : Byte), (3 : Byte), (4 : Byte), (5 : Byte)]).length = true ∧ (∀ (e : Nat ×
    EccErr), e ∈ (placedCore.core c).ecc → e.snd.correctable = true) ∧ ∀ (n : Nat), n < 16 → ((placedCore.core c).bank
    n).ingress = none ∧ ((placedCore.core c).bank n).opens 5 = true) ∧ placedCore.ctlRegion one.destRow.toNat
    one.destCol.toNat = some (0, 0) ∧ one.bcast = (0 : BitVec 2) ∧ one.endpoint ≠ (31 : BitVec 5) ∧ endpointExists
    one.endpoint = true ∧ 0 < 1024 ∧ placedCore.coreAt 0 0 = some c0 ∧ ¬one ∈ placedCore.ctlOut) ∧ (controlS2.slotFree
    one = true ∧ controlS2.ctlCores one = [c0] ∧ (controlS2.core c0).rangeOn (128) (List.take 64 [(1 : Byte)]).length
    = false) ∧ (placedCore.slotFree controlH3 = true ∧ controlH3.endpoint = (31 : BitVec 5) ∧ controlH3.bcast = (0 :
    BitVec 2)) ∧ (placedCore.slotFree controlH4 = true ∧ controlH4.bcast ≠ (0 : BitVec 2)) ∧ (one ∈ controlS5.ctlOut ∧
    controlS5.ctlRegion one.destRow.toNat one.destCol.toNat = some (0, 0)) ∧ (controlS6.coreOk
    { x := controlA7.x, y := controlA7.y : CoreRef } = true ∧ (controlA7.panel = none ∨ controlA7.panel = some
    controlS6.panel.panelId) ∧ controlA7.status = (0 : BitVec 8) ∧ ((controlS6.core
    { x := controlA7.x, y := controlA7.y : CoreRef }).slot controlA7.slot).used = true ∧ controlS6.coreOk
    { x := controlA8.x, y := controlA8.y : CoreRef } = true ∧ (controlA8.panel = none ∨ controlA8.panel = some
    controlS6.panel.panelId) ∧ controlA8.status = (0 : BitVec 8) ∧ ((controlS6.core
    { x := controlA8.x, y := controlA8.y : CoreRef }).slot controlA8.slot).used = false ∧ controlS6.coreOk
    { x := controlA9.x, y := controlA9.y : CoreRef } = true ∧ (controlA9.panel = none ∨ controlA9.panel = some
    controlS6.panel.panelId) ∧ controlA9.status ≠ (0 : BitVec 8) ∧ controlA10.panel = some (9 : BitVec 16) ∧ (9 :
    BitVec 16) ≠ controlS6.panel.panelId) := by
  decide +kernel

/-- Meets the hypotheses of Obligations.BarrierRounds. -/
theorem witness_barriers :
    ((twoDies.group (2)).valid = true ∧ twoDies.siteOk barriersD1 = true ∧ twoDies.membersOn (2) (siteKey barriersD1)
    ≠ [] ∧ (twoDies.group (2)).sentDies.contains barriersD1 = false ∧ (twoDies.group (2)).arrivedDies.contains
    barriersD1 = false ∧ (∀ (c : CoreRef), c ∈ twoDies.membersOn (2) (siteKey barriersD1) → c ∈ tget [] (twoDies.die
    (siteKey barriersD1)).arrivedMembers (2)) ∧ (twoDies.memberDies (2) ≠ [siteKey barriersD1] ∨ (twoDies.group
    (2)).multi = true) ∧ twoDies.coreOk c0 = true ∧ (twoDies.group (2)).releasing.contains c0 = false ∧ (twoDies.die
    (siteKey barriersD1)).culvertsLost < 2 ∧ (twoDies.die (siteKey barriersD1)).culvertsLost < 1 ∧ (twoDies.die
    (siteKey barriersD1)).culvertsLost ≤ 2 ∧ 0 ≤ (twoDies.die (siteKey barriersD1)).culvertsLost ∧ (twoDies.die
    (siteKey barriersD1)).detLost = false) ∧ ((oneDie.group (2)).valid = true ∧ oneDie.siteOk barriersD1 = true ∧
    oneDie.membersOn (2) (siteKey barriersD1) ≠ [] ∧ (oneDie.group (2)).sentDies.contains barriersD1 = false ∧
    (oneDie.group (2)).arrivedDies.contains barriersD1 = false ∧ (∀ (c : CoreRef), c ∈ oneDie.membersOn (2) (siteKey
    barriersD1) → c ∈ tget [] (oneDie.die (siteKey barriersD1)).arrivedMembers (2)) ∧ oneDie.memberDies (2) = [siteKey
    barriersD1] ∧ (oneDie.group (2)).multi = false ∧ (¬((oneDie.part (oneDie.group (2)).part.toNat).img.detreq = true
    ∧ ((oneDie.die (siteKey barriersD1)).detLost = true ∨ (oneDie.die (siteKey barriersD1)).detHold = true)))) ∧
    ((heldOne.group (2)).valid = true ∧ heldOne.siteOk barriersD1 = true ∧ heldOne.membersOn (2) (siteKey barriersD1)
    ≠ [] ∧ (heldOne.group (2)).sentDies.contains barriersD1 = false ∧ (heldOne.group (2)).arrivedDies.contains
    barriersD1 = false ∧ (∀ (c : CoreRef), c ∈ heldOne.membersOn (2) (siteKey barriersD1) → c ∈ tget [] (heldOne.die
    (siteKey barriersD1)).arrivedMembers (2)) ∧ heldOne.memberDies (2) = [siteKey barriersD1] ∧ (heldOne.group
    (2)).multi = false ∧ ((heldOne.part (heldOne.group (2)).part.toNat).img.detreq = true ∧ ((heldOne.die (siteKey
    barriersD1)).detLost = true ∨ (heldOne.die (siteKey barriersD1)).detHold = true)) ∧ heldOne.partOfSite (siteKey
    barriersD1) = some 1 ∧ (heldOne.die (siteKey barriersD1)).detLost = true ∧ (heldOne.part 1).img.detreq = true) ∧
    (((hubbed (2 : BitVec 8) false).group (2)).valid = true ∧ (hubbed (2 : BitVec 8) false).siteOk barriersD1 = true ∧
    ((hubbed (2 : BitVec 8) false).group (2)).sentDies.contains barriersD1 = true ∧ ((hubbed (2 : BitVec 8)
    false).group (2)).pending ≠ (1 : BitVec 8)) ∧ (((hubbed (1 : BitVec 8) false).group (2)).valid = true ∧ (hubbed (1
    : BitVec 8) false).siteOk barriersD1 = true ∧ ((hubbed (1 : BitVec 8) false).group (2)).sentDies.contains
    barriersD1 = true ∧ ((hubbed (1 : BitVec 8) false).group (2)).pending = (1 : BitVec 8) ∧ (hubbed (1 : BitVec 8)
    false).withholds ((hubbed (1 : BitVec 8) false).group (2)).part.toNat = false ∧ ((hubbed (1 : BitVec 8)
    false).group (2)).multi = false) ∧ (((hubbed (1 : BitVec 8) true).group (2)).valid = true ∧ (hubbed (1 : BitVec 8)
    true).siteOk barriersD1 = true ∧ ((hubbed (1 : BitVec 8) true).group (2)).sentDies.contains barriersD1 = true ∧
    ((hubbed (1 : BitVec 8) true).group (2)).pending = (1 : BitVec 8) ∧ ((hubbed (1 : BitVec 8) true).group (2)).multi
    = true) ∧ ((barriersS2.group (2)).valid = true ∧ barriersS2.siteOk barriersD1 = true ∧ (barriersS2.group
    (2)).sentDies.contains barriersD1 = true ∧ (barriersS2.group (2)).pending = (1 : BitVec 8) ∧ barriersS2.withholds
    (barriersS2.group (2)).part.toNat = true ∧ (barriersS2.group (2)).multi = false) ∧ ((releasing1.group (2)).valid =
    true ∧ releasing1.coreOk c0 = true ∧ (releasing1.group (2)).releasing.contains c0 = true ∧ (releasing1.core
    c0).chanOf (2) = some (0 : BitVec 4)) ∧ ((barriersS3.group (2)).valid = true ∧ barriersS3.coreOk c0 = true ∧
    (barriersS3.group (2)).releasing.contains c0 = true ∧ (barriersS3.core c0).chanOf (2) = none) := by
  decide +kernel

/-- Meets the hypotheses of Obligations.MemoryPackets. -/
theorem witness_hbmPackets :
    (heard.siteOk site0 = true ∧ (¬((heard.msd (0)).failed = true ∨ (heard.culvert (siteKey site0) (0)).inq.contains
    hbmPacketsP1 = true ∧ heard.msdOvertakes (siteKey site0) (0) hbmPacketsP1 = true)) ∧ decodeAddr
    hbmPacketsP1.dest.toNat = PAddr.hbm 1024 ∧ heard.hbmOwner 1024 = some 1 ∧ heard.hbmMap (heard.part 1).img.gran
    1024 = some (0, 1024) ∧ ((heard.foreign hbmPacketsP1 = true → heard.bindOk 1 hbmPacketsP1 = true) ∧ (heard.foreign
    hbmPacketsP1 = false → hbmPacketsP1.job = heard.partJob 1 ∧ hbmPacketsP1.part.toNat = 1)) ∧ (∀ (e : Nat × HbmErr),
    e ∈ heard.hbmErr → e.snd.bytes ≤ 2) ∧ (hbmPacketsP1.opcode = (1 : BitVec 4) ∨ hbmPacketsP1.opcode = (2 : BitVec
    4)) ∧ (¬((heard.msd (0)).failed = true ∨ (heard.culvert (siteKey site0) (0)).inq.contains hbmPacketsP2 = true ∧
    heard.msdOvertakes (siteKey site0) (0) hbmPacketsP2 = true)) ∧ decodeAddr hbmPacketsP2.dest.toNat = PAddr.hbm 1024
    ∧ ((heard.foreign hbmPacketsP2 = true → heard.bindOk 1 hbmPacketsP2 = true) ∧ (heard.foreign hbmPacketsP2 = false
    → hbmPacketsP2.job = heard.partJob 1 ∧ hbmPacketsP2.part.toNat = 1)) ∧ hbmPacketsP2.opcode = (5 : BitVec 4) ∧
    (¬((heard.msd (0)).failed = true ∨ (heard.culvert (siteKey site0) (0)).inq.contains hbmPacketsP3 = true ∧
    heard.msdOvertakes (siteKey site0) (0) hbmPacketsP3 = true)) ∧ decodeAddr hbmPacketsP3.dest.toNat = PAddr.hbm 1024
    ∧ ((heard.foreign hbmPacketsP3 = true → heard.bindOk 1 hbmPacketsP3 = true) ∧ (heard.foreign hbmPacketsP3 = false
    → hbmPacketsP3.job = heard.partJob 1 ∧ hbmPacketsP3.part.toNat = 1)) ∧ hbmPacketsP3.opcode = (3 : BitVec 4) ∧
    (¬((heard.msd (0)).failed = true ∨ (heard.culvert (siteKey site0) (0)).inq.contains hbmPacketsP4 = true ∧
    heard.msdOvertakes (siteKey site0) (0) hbmPacketsP4 = true)) ∧ decodeAddr hbmPacketsP4.dest.toNat = PAddr.hbm 1024
    ∧ ((heard.foreign hbmPacketsP4 = true → heard.bindOk 1 hbmPacketsP4 = true) ∧ (heard.foreign hbmPacketsP4 = false
    → hbmPacketsP4.job = heard.partJob 1 ∧ hbmPacketsP4.part.toNat = 1)) ∧ hbmPacketsP4.opcode ≠ (1 : BitVec 4) ∧
    hbmPacketsP4.opcode ≠ (2 : BitVec 4) ∧ hbmPacketsP4.opcode ≠ (3 : BitVec 4) ∧ hbmPacketsP4.opcode ≠ (5 : BitVec
    4)) ∧ (uncorr.siteOk site0 = true ∧ (¬((uncorr.msd (0)).failed = true ∨ (uncorr.culvert (siteKey site0)
    (0)).inq.contains hbmPacketsP3 = true ∧ uncorr.msdOvertakes (siteKey site0) (0) hbmPacketsP3 = true)) ∧ decodeAddr
    hbmPacketsP3.dest.toNat = PAddr.hbm 1024 ∧ uncorr.hbmOwner 1024 = some 1 ∧ uncorr.hbmMap (uncorr.part 1).img.gran
    1024 = some (0, 1024) ∧ ((uncorr.foreign hbmPacketsP3 = true → uncorr.bindOk 1 hbmPacketsP3 = true) ∧
    (uncorr.foreign hbmPacketsP3 = false → hbmPacketsP3.job = uncorr.partJob 1 ∧ hbmPacketsP3.part.toNat = 1)) ∧
    hbmPacketsP3.opcode = (3 : BitVec 4) ∧ 0 < hbmPacketsP3.len.toNat ∧ (1024 / 64 : Nat) = (1024 +
    hbmPacketsP3.len.toNat - 1) / 64 ∧ 2 < (tget { : HbmErr } uncorr.hbmErr (uncorr.storedBlock (1024 / 64 :
    Nat))).bytes) ∧ (heard.siteOk site0 = true ∧ (¬((heard.msd (0)).failed = true ∨ (heard.culvert (siteKey site0)
    (0)).inq.contains hbmPacketsP5 = true ∧ heard.msdOvertakes (siteKey site0) (0) hbmPacketsP5 = true)) ∧ decodeAddr
    hbmPacketsP5.dest.toNat = PAddr.hbm (2 ^ 41 - 64) ∧ heard.hbmOwner (2 ^ 41 - 64) = none ∧ heard.liveStacks.length
    * 36 * 2 ^ 30 ≤ 2 ^ 41 - 64) ∧ (heard.siteOk site0 = true ∧ (¬((heard.msd (0)).failed = true ∨ (heard.culvert
    (siteKey site0) (0)).inq.contains hbmPacketsP6 = true ∧ heard.msdOvertakes (siteKey site0) (0) hbmPacketsP6 =
    true)) ∧ decodeAddr hbmPacketsP6.dest.toNat = PAddr.hbm (2 ^ 40) ∧ heard.hbmOwner (2 ^ 40) = none ∧ 2 ^ 40 <
    heard.liveStacks.length * 36 * 2 ^ 30) ∧ (heard.siteOk site0 = true ∧ (¬((heard.msd (0)).failed = true ∨
    (heard.culvert (siteKey site0) (0)).inq.contains hbmPacketsP7 = true ∧ heard.msdOvertakes (siteKey site0) (0)
    hbmPacketsP7 = true)) ∧ (∀ (a : Nat), decodeAddr hbmPacketsP7.dest.toNat ≠ PAddr.hbm a)) ∧ (heard.siteOk site0 =
    true ∧ (¬((heard.msd (0)).failed = true ∨ (heard.culvert (siteKey site0) (0)).inq.contains hbmPacketsP8 = true ∧
    heard.msdOvertakes (siteKey site0) (0) hbmPacketsP8 = true)) ∧ decodeAddr hbmPacketsP8.dest.toNat = PAddr.hbm 1024
    ∧ heard.hbmOwner 1024 = some 1 ∧ heard.hbmMap (heard.part 1).img.gran 1024 = some (0, 1024) ∧ heard.foreign
    hbmPacketsP8 = false ∧ hbmPacketsP8.job ≠ heard.partJob 1 ∧ (¬((heard.msd (0)).failed = true ∨ (heard.culvert
    (siteKey site0) (0)).inq.contains hbmPacketsP9 = true ∧ heard.msdOvertakes (siteKey site0) (0) hbmPacketsP9 =
    true)) ∧ decodeAddr hbmPacketsP9.dest.toNat = PAddr.hbm 1024 ∧ heard.foreign hbmPacketsP9 = false ∧
    hbmPacketsP9.job = heard.partJob 1 ∧ hbmPacketsP9.part.toNat ≠ 1) ∧ (bound1.siteOk site0 = true ∧ (¬((bound1.msd
    (0)).failed = true ∨ (bound1.culvert (siteKey site0) (0)).inq.contains foreign1 = true ∧ bound1.msdOvertakes
    (siteKey site0) (0) foreign1 = true)) ∧ decodeAddr foreign1.dest.toNat = PAddr.hbm 1024 ∧ bound1.hbmOwner 1024 =
    some 1 ∧ bound1.hbmMap (bound1.part 1).img.gran 1024 = some (0, 1024) ∧ bound1.foreign foreign1 = true ∧
    bound1.bindOk 1 foreign1 = false) ∧ (hbmPacketsS10.siteOk site0 = true ∧ ((hbmPacketsS10.msd (0)).failed = true ∨
    (hbmPacketsS10.culvert (siteKey site0) (0)).inq.contains hpkt = true ∧ hbmPacketsS10.msdOvertakes (siteKey site0)
    (0) hpkt = true)) := by
  and_intros
  all_goals first | decide +kernel | exact allSome (by decide +kernel) | exact notHbm (by decide +kernel)

/-- Meets the hypotheses of Obligations.CopyEngineSteps. -/
theorem witness_copies :
    (heard.siteOk site0 = true ∧ (heard.msd (0)).failed = false ∧ (heard.part hpkt.part.toNat).state.runs = true ∧
    hpkt.job = heard.partJob hpkt.part.toNat ∧ ¬((heard.part copiesP1.part.toNat).state.runs = true ∧ copiesP1.job =
    heard.partJob copiesP1.part.toNat) ∧ ((heard.msd (0)).failed = true ∨ 64 ≤ (heard.msd (0)).deadEngines.length ∨
    heard.nextQueue (0) = none)) ∧ (copiesS2.siteOk site0 = true ∧ (copiesS2.msd (0)).failed = true) ∧ ((copiesS3.msd
    (0)).failed = false ∧ (copiesS3.msd (0)).deadEngines.length < 64 ∧ copiesS3.nextQueue (0) = some 0 ∧ tget []
    (copiesS3.msd (0)).queues 0 = [fill1]) := by
  decide +kernel

/-- Meets the hypotheses of Obligations.StackEvents. -/
theorem witness_stacks :
    (8 * (3 % 4) < stacked.stackCount ∧ stacked.panel.liveStacks.getLsbD (3) = true ∧ ((stacked.stack (3)).state = (1
    : BitVec 3) ∨ (stacked.stack (3)).state = (2 : BitVec 3))) ∧ (8 * (3 % 4) < stacksS1.stackCount ∧ ((stacksS1.stack
    (3)).state = (0 : BitVec 3) ∨ (stacksS1.stack (3)).state = (3 : BitVec 3))) ∧ (8 * (3 % 4) < stacksS2.stackCount ∧
    stacksS2.panel.liveStacks.getLsbD (3) = false) := by
  decide +kernel

/-- Meets the hypotheses of Obligations.CulvertEvents. -/
theorem witness_culverts :
    (culverted.siteOk site0 = true ∧ (culverted.culvert (siteKey site0) (0)).state ≠ (0 : BitVec 2) ∧ (3 : BitVec 3) ≠
    (0 : BitVec 3) ∧ (3 < 4 ∨ ¬(culverted.culvert (siteKey site0) (0)).live.getLsbD (2) = true) ∧ 4 ≤ 4 ∧
    (culverted.culvert (siteKey site0) (0)).live.getLsbD (2) = true ∧ ((culverted.culvert (siteKey site0) (0)).state =
    (0 : BitVec 2) ∨ (0 : BitVec 3) = (0 : BitVec 3)) ∧ ¬(2 : BitVec 3) ∈ (culverted.culvert (siteKey site0)
    (0)).relockWait ∧ (culverted.culvert (siteKey site0) (0)).relock = none ∧ (culverted.culvert (siteKey site0)
    (0)).relock ≠ some (2 : BitVec 3)) ∧ (culvertsS1.siteOk site0 = true ∧ (culvertsS1.culvert (siteKey site0)
    (0)).live.getLsbD (2) = true ∧ ¬(2 : BitVec 3) ∈ (culvertsS1.culvert (siteKey site0) (0)).relockWait ∧
    (culvertsS1.culvert (siteKey site0) (0)).relock.isSome = true) ∧ (culvertsS2.siteOk site0 = true ∧
    (¬(culvertsS2.culvert (siteKey site0) (0)).live.getLsbD (2) = true ∨ (2 : BitVec 3) ∈ (culvertsS2.culvert (siteKey
    site0) (0)).relockWait) ∧ (culvertsS2.culvert (siteKey site0) (0)).relock = some (2 : BitVec 3) ∧
    (culvertsS2.culvert (siteKey site0) (0)).relockWait = [(3 : BitVec 3)] ∧ (3 : BitVec 3) ≠ (2 : BitVec 3) ∧ ¬(3 :
    BitVec 3) ∈ [] ∧ (culvertsS2.culvert (siteKey site0) (0)).live.getLsbD (3) = true) ∧ (culvertsS3.siteOk site0 =
    true ∧ (culvertsS3.culvert (siteKey site0) (0)).relock = some (2 : BitVec 3) ∧ (culvertsS3.culvert (siteKey site0)
    (0)).relockWait = []) ∧ live.siteOk culvertsD4 = false := by
  decide +kernel

/-- Meets the hypotheses of Obligations.PortEvents. -/
theorem witness_ports :
    ((live.port (3)).fused = true ∧ (live.port (3)).state = (0 : BitVec 3) ∧ live.iodUp (3) = true ∧ (¬((live.port
    (3)).state = (2 : BitVec 3) ∨ (live.port (3)).state = (3 : BitVec 3)) ∨ (live.port (3)).keyed = true) ∧
    ((live.port (3)).keyed = false ∨ ¬(2 ^ 32 ≤ (live.port (3)).tx.count ∨ 2 ^ 32 ≤ (live.port (3)).rx.count)) ∧
    (¬((live.port (3)).state = (2 : BitVec 3) ∨ (live.port (3)).state = (3 : BitVec 3)) ∨ ¬(live.port (3)).half ≠ if 3
    < 4 then (2 : BitVec 2) else (1 : BitVec 2)) ∧ ((live.port (3)).state ≠ (1 : BitVec 3) ∨ (live.port (3)).half = (0
    : BitVec 2))) ∧ (¬((portsS1.port (3)).fused = true ∧ (portsS1.port (3)).state = (0 : BitVec 3) ∧ portsS1.iodUp (3)
    = true) ∧ ((portsS1.port (3)).state = (2 : BitVec 3) ∨ (portsS1.port (3)).state = (3 : BitVec 3)) ∧ (portsS1.port
    (3)).keyed = false ∧ (portsS1.port (3)).half ≠ if 3 < 4 then (2 : BitVec 2) else (1 : BitVec 2)) ∧ ((portsS2.port
    (0)).keyed = true ∧ (2 ^ 32 ≤ (portsS2.port (0)).tx.count ∨ 2 ^ 32 ≤ (portsS2.port (0)).rx.count)) ∧
    ((portsS3.port (3)).state = (1 : BitVec 3) ∧ (portsS3.port (3)).half ≠ (0 : BitVec 2)) := by
  decide +kernel

/-- Meets the hypotheses of Obligations.LinkFrames. -/
theorem witness_linkFrames :
    ((((linked.port (0)).state = (2 : BitVec 3) ∨ (linked.port (0)).state = (3 : BitVec 3)) ∧ (linked.port (0)).keyed
    = true) ∧ (((linked.port (0)).injected frame0).fst = true ∧ ((linked.port (0)).injected frame0).snd.fst = true) ∧
    frame0.seq = (linked.port (0)).rxSeq ∧ ¬((((linked.port (0)).injected linkFramesF2).fst = true ∧ ((linked.port
    (0)).injected linkFramesF2).snd.fst = true) ∧ linkFramesF2.seq = (linked.port (0)).rxSeq) ∧ ¬(¬(((linked.port
    (0)).injected linkFramesF2).fst = true ∧ ((linked.port (0)).injected linkFramesF2).snd.fst = true) ∧
    linkFramesF2.seq = (linked.port (0)).rxSeq ∧ 7 ≤ (linked.port (0)).fails) ∧ (linked.port (0)).fails < 8) ∧
    ((((linkFramesS4.port (0)).state = (2 : BitVec 3) ∨ (linkFramesS4.port (0)).state = (3 : BitVec 3)) ∧
    (linkFramesS4.port (0)).keyed = true) ∧ ¬(((linkFramesS4.port (0)).injected linkFramesF3).fst = true ∧
    ((linkFramesS4.port (0)).injected linkFramesF3).snd.fst = true) ∧ linkFramesF3.seq = (linkFramesS4.port (0)).rxSeq
    ∧ 7 ≤ (linkFramesS4.port (0)).fails) ∧ (¬(((live.port (0)).state = (2 : BitVec 3) ∨ (live.port (0)).state = (3 :
    BitVec 3)) ∧ (live.port (0)).keyed = true)) := by
  and_intros
  all_goals first | decide +kernel | exact allSome (by decide +kernel) | exact notHbm (by decide +kernel)

/-- Meets the hypotheses of Obligations.RingEvents. -/
theorem witness_rings :
    (¬msg9.origin = ringsS1.panel.panelId ∧ ¬(msg9.origin, msg9.seq) ∈ ringsS1.ring.seen ∧ ringsS1.msgGroup msg9 =
    some 4 ∧ (ringsS1.part (ringsS1.group 4).part.toNat).bound = some ringsGb2 ∧ ((ringsGb2.tree.isSome = true ∨
    ringsGb2.root = ringsS1.panel.panelId) ∧ ¬msg9.origin ∈ (ringsS1.group 4).panelsIn) ∧ ((ringsS1.group 4).pending ≠
    (0 : BitVec 8) ∨ ((ringsS1.group 4).pending = (0 : BitVec 8) ∧ (ringsS1.group 4).arrivedDies ≠ []) ∧
    ¬ringsS1.withholds (ringsS1.group 4).part.toNat = true ∧ ¬ringsS1.isShadow (ringsS1.group 4).part.toNat = true ∧
    ¬ringsS1.arrivesNeeded ringsGb2 ≤ (ringsS1.group 4).panelsIn.length + 1) ∧ ¬((ringsS1.group 4).pending = (0 :
    BitVec 8) ∧ (ringsS1.group 4).arrivedDies ≠ []) ∧ ¬ringsS1.isShadow (ringsS1.group 4).part.toNat = true ∧
    ¬ringsS1.ring.state ≠ (0 : BitVec 2)) ∧ (¬msg9.origin = (ringG bg (7 : BitVec 16) []).panel.panelId ∧
    ¬(msg9.origin, msg9.seq) ∈ (ringG bg (7 : BitVec 16) []).ring.seen ∧ (ringG bg (7 : BitVec 16) []).msgGroup msg9 =
    some 4 ∧ ((ringG bg (7 : BitVec 16) []).part ((ringG bg (7 : BitVec 16) []).group 4).part.toNat).bound = some
    ringsGb2 ∧ ((ringsGb2.tree.isSome = true ∨ ringsGb2.root = (ringG bg (7 : BitVec 16) []).panel.panelId) ∧
    ¬msg9.origin ∈ ((ringG bg (7 : BitVec 16) []).group 4).panelsIn) ∧ ((ringG bg (7 : BitVec 16) []).group 4).pending
    = (0 : BitVec 8) ∧ ((ringG bg (7 : BitVec 16) []).group 4).arrivedDies ≠ [] ∧ ¬(ringG bg (7 : BitVec 16)
    []).withholds ((ringG bg (7 : BitVec 16) []).group 4).part.toNat = true ∧ ¬(ringG bg (7 : BitVec 16) []).isShadow
    ((ringG bg (7 : BitVec 16) []).group 4).part.toNat = true ∧ ringsGb2.tree = none ∧ ringsGb2.root = (ringG bg (7 :
    BitVec 16) []).panel.panelId) ∧ (¬msg9.origin = (ringG bg (7 : BitVec 16) [(255 : Byte), (1 : Byte), (3 :
    Byte)]).panel.panelId ∧ ¬(msg9.origin, msg9.seq) ∈ (ringG bg (7 : BitVec 16) [(255 : Byte), (1 : Byte), (3 :
    Byte)]).ring.seen ∧ (ringG bg (7 : BitVec 16) [(255 : Byte), (1 : Byte), (3 : Byte)]).msgGroup msg9 = some 4 ∧
    ((ringG bg (7 : BitVec 16) [(255 : Byte), (1 : Byte), (3 : Byte)]).part ((ringG bg (7 : BitVec 16) [(255 : Byte),
    (1 : Byte), (3 : Byte)]).group 4).part.toNat).bound = some ringsGb3 ∧ ((ringsGb3.tree.isSome = true ∨
    ringsGb3.root = (ringG bg (7 : BitVec 16) [(255 : Byte), (1 : Byte), (3 : Byte)]).panel.panelId) ∧ ¬msg9.origin ∈
    ((ringG bg (7 : BitVec 16) [(255 : Byte), (1 : Byte), (3 : Byte)]).group 4).panelsIn) ∧ ((ringG bg (7 : BitVec 16)
    [(255 : Byte), (1 : Byte), (3 : Byte)]).group 4).pending = (0 : BitVec 8) ∧ ((ringG bg (7 : BitVec 16) [(255 :
    Byte), (1 : Byte), (3 : Byte)]).group 4).arrivedDies ≠ [] ∧ ¬(ringG bg (7 : BitVec 16) [(255 : Byte), (1 : Byte),
    (3 : Byte)]).withholds ((ringG bg (7 : BitVec 16) [(255 : Byte), (1 : Byte), (3 : Byte)]).group 4).part.toNat =
    true ∧ ¬(ringG bg (7 : BitVec 16) [(255 : Byte), (1 : Byte), (3 : Byte)]).isShadow ((ringG bg (7 : BitVec 16)
    [(255 : Byte), (1 : Byte), (3 : Byte)]).group 4).part.toNat = true ∧ ringsGb3.tree = some (none, [3]) ∧ (ringG bg
    (7 : BitVec 16) [(255 : Byte), (1 : Byte), (3 : Byte)]).arrivesNeeded ringsGb3 ≤ ((ringG bg (7 : BitVec 16) [(255
    : Byte), (1 : Byte), (3 : Byte)]).group 4).panelsIn.length + 1) ∧ (¬msg9.origin = (ringG bg (7 : BitVec 16) [(2 :
    Byte), (1 : Byte), (3 : Byte)]).panel.panelId ∧ ¬(msg9.origin, msg9.seq) ∈ (ringG bg (7 : BitVec 16) [(2 : Byte),
    (1 : Byte), (3 : Byte)]).ring.seen ∧ (ringG bg (7 : BitVec 16) [(2 : Byte), (1 : Byte), (3 : Byte)]).msgGroup msg9
    = some 4 ∧ ((ringG bg (7 : BitVec 16) [(2 : Byte), (1 : Byte), (3 : Byte)]).part ((ringG bg (7 : BitVec 16) [(2 :
    Byte), (1 : Byte), (3 : Byte)]).group 4).part.toNat).bound = some ringsGb4 ∧ ((ringsGb4.tree.isSome = true ∨
    ringsGb4.root = (ringG bg (7 : BitVec 16) [(2 : Byte), (1 : Byte), (3 : Byte)]).panel.panelId) ∧ ¬msg9.origin ∈
    ((ringG bg (7 : BitVec 16) [(2 : Byte), (1 : Byte), (3 : Byte)]).group 4).panelsIn) ∧ ((ringG bg (7 : BitVec 16)
    [(2 : Byte), (1 : Byte), (3 : Byte)]).group 4).pending = (0 : BitVec 8) ∧ ((ringG bg (7 : BitVec 16) [(2 : Byte),
    (1 : Byte), (3 : Byte)]).group 4).arrivedDies ≠ [] ∧ ¬(ringG bg (7 : BitVec 16) [(2 : Byte), (1 : Byte), (3 :
    Byte)]).withholds ((ringG bg (7 : BitVec 16) [(2 : Byte), (1 : Byte), (3 : Byte)]).group 4).part.toNat = true ∧
    ¬(ringG bg (7 : BitVec 16) [(2 : Byte), (1 : Byte), (3 : Byte)]).isShadow ((ringG bg (7 : BitVec 16) [(2 : Byte),
    (1 : Byte), (3 : Byte)]).group 4).part.toNat = true ∧ ringsGb4.tree = some (some 2, [3]) ∧ (ringG bg (7 : BitVec
    16) [(2 : Byte), (1 : Byte), (3 : Byte)]).arrivesNeeded ringsGb4 ≤ ((ringG bg (7 : BitVec 16) [(2 : Byte), (1 :
    Byte), (3 : Byte)]).group 4).panelsIn.length + 1) ∧ (¬msg9.origin = ringsS5.panel.panelId ∧ ¬(msg9.origin,
    msg9.seq) ∈ ringsS5.ring.seen ∧ ringsS5.msgGroup msg9 = some 4 ∧ (ringsS5.part (ringsS5.group 4).part.toNat).bound
    = some ringsGb2 ∧ ((ringsGb2.tree.isSome = true ∨ ringsGb2.root = ringsS5.panel.panelId) ∧ ¬msg9.origin ∈
    (ringsS5.group 4).panelsIn) ∧ (ringsS5.group 4).pending = (0 : BitVec 8) ∧ (ringsS5.group 4).arrivedDies ≠ [] ∧
    ringsS5.withholds (ringsS5.group 4).part.toNat = true) ∧ (¬msg9.origin = ringsS6.panel.panelId ∧ ¬(msg9.origin,
    msg9.seq) ∈ ringsS6.ring.seen ∧ ringsS6.msgGroup msg9 = some 4 ∧ (ringsS6.part (ringsS6.group 4).part.toNat).bound
    = some ringsGb2 ∧ ¬((ringsS6.group 4).pending = (0 : BitVec 8) ∧ (ringsS6.group 4).arrivedDies ≠ []) ∧
    ringsS6.isShadow (ringsS6.group 4).part.toNat = true ∧ ringsS6.boundPart msg9 = some 1 ∧ (ringsS6.shadow 1).role =
    (2 : BitVec 2) ∧ (ringsS6.shadow 1).closed = [((0 : BitVec 8), (77 : Reg64))] ∧ (0 : BitVec 8) = msg9.gen ∧
    ringsS6.ring.state ≠ (0 : BitVec 2)) ∧ (¬msg9.origin = ringsS7.panel.panelId ∧ ¬(msg9.origin, msg9.seq) ∈
    ringsS7.ring.seen ∧ ringsS7.boundPart msg9 = some 1 ∧ (ringsS7.shadow 1).role = (2 : BitVec 2) ∧ (ringsS7.shadow
    1).closed = []) ∧ ((msg9.origin = ringsS8.panel.panelId ∨ (msg9.origin, msg9.seq) ∈ ringsS8.ring.seen) ∧
    ¬msg9.origin = ringsS8.panel.panelId ∧ ringsS8.ring.state ≠ (0 : BitVec 2)) ∧ (ringsM10.origin =
    ringsS9.panel.panelId ∧ ringsS9.ring.state ≠ (0 : BitVec 2)) ∧ (¬msg9.origin = (ringG bg (8 : BitVec 16)
    []).panel.panelId ∧ ¬(msg9.origin, msg9.seq) ∈ (ringG bg (8 : BitVec 16) []).ring.seen ∧ (ringG bg (8 : BitVec 16)
    []).msgGroup msg9 = some 4 ∧ ((ringG bg (8 : BitVec 16) []).part ((ringG bg (8 : BitVec 16) []).group
    4).part.toNat).bound = some ringsGb12 ∧ (¬((ringsGb12.tree.isSome = true ∨ ringsGb12.root = (ringG bg (8 : BitVec
    16) []).panel.panelId) ∧ ¬msg9.origin ∈ ((ringG bg (8 : BitVec 16) []).group 4).panelsIn))) := by
  decide +kernel

/-- Meets the hypotheses of Obligations.CommandsAreRefused. -/
theorem witness_refused :
    ((Instr.groupUnbind hc, 2308) ∈ [(Instr.panelIdSet hc (0 : BitVec 16) true, 2305), (Instr.routeWrite hc (0 :
    Reg64) (0 : Word), 2306), (Instr.groupBind hc (0 : BitVec 16) (0 : BitVec 16) (0 : BitVec 16) false (0 : Reg64) (0
    : Word), 2307), (Instr.groupUnbind hc, 2308), (Instr.ringJoin hc, 2309), (Instr.ringLeave hc, 2310),
    (Instr.shadowBind hc (0 : BitVec 8) (0 : BitVec 16) (0 : BitVec 8) (0 : BitVec 8) (0 : BitVec 8), 2311),
    (Instr.portRead hc (0 : Reg64) (0 : Word), 2312), (Instr.panelInfo hc (0 : Reg64) (0 : Word), 257),
    (Instr.queueCreate hc (0 : BitVec 8) (0 : BitVec 8) (0 : BitVec 8) (0 : Reg64) (0 : Reg64), 258),
    (Instr.queueDelete hc (0 : BitVec 8), 259), (Instr.partCreate hc (0 : BitVec 8) (0 : BitVec 8) (0 : BitVec 8) (0 :
    BitVec 8), 513), (Instr.partDestroy hc, 514), (Instr.partReset hc, 515), (Instr.partQuery hc, 516), (Instr.jobLoad
    hc (0 : Reg64) (0 : Word) false, 769), (Instr.jobStart hc (0 : Word), 770), (Instr.jobAbort hc (0 : BitVec 16),
    771), (Instr.jobWait hc, 772), (Instr.ckptWait hc, 773), (Instr.ckptRelease hc, 774), (Instr.jobEnd hc, 775),
    (Instr.logWait hc, 776), (Instr.flumeList hc (0 : Reg64) (0 : Word), 1025), (Instr.flumeStats hc (0 : BitVec 16),
    1026), (Instr.memRead hc (0 : Reg64) (0 : Reg64) (0 : Word), 1281), (Instr.memWrite hc (0 : Reg64) (0 : Reg64) (0
    : Word), 1282), (Instr.faultRead hc (0 : Reg64) (0 : Word) (0 : Word) false, 1537), (Instr.faultClear hc (0 :
    Word), 1538), (Instr.eventWait hc (0 : Word), 1539), (Instr.recRead hc (0 : Reg64) (0 : Word) (0 : BitVec 8),
    1540), (Instr.recClear hc, 1541), (Instr.inject hc (0 : BitVec 8) (0 : BitVec 8) (0 : BitVec 16) (0 : BitVec 16)
    (0 : BitVec 8), 1542), (Instr.identity hc (0 : Reg64) (0 : Word), 1793), (Instr.attest hc (0 : Reg64) (0 : Word)
    (0 : BitVec 8) [], 1794), (Instr.sessionOpen hc (0 : Reg64) (0 : BitVec 16) (0 : BitVec 16), 1795),
    (Instr.sessionAuth hc (0 : Reg64) (0 : Word), 1796), (Instr.sessionClose hc, 1797), (Instr.sealOffer hc (0 :
    Reg64) (0 : Word) [], 1798), (Instr.sealAccept hc (0 : Reg64) (0 : Word), 1799), (Instr.powerRead hc (0 : Reg64)
    (0 : Word), 2049), (Instr.powerLimit hc (0 : BitVec 16), 2050), (Instr.thermalRead hc (0 : Reg64) (0 : Word),
    2051), (Instr.lifeRead hc (0 : Reg64) (0 : Word), 2052), (Instr.powerMode hc (0 : BitVec 8), 2053),
    (Instr.fwUpdate hc (0 : Reg64) (0 : Word), 2561), (Instr.cfgWrite hc (0 : Reg64) (0 : Word), 2562), (Instr.cfgRead
    hc (0 : Reg64) (0 : Word) false, 2563), (Instr.panelResetWarm hc refusedU1, 2564), (Instr.panelResetCold hc
    refusedU1, 2564), (Instr.dieResetDie hc site0 (0 : BitVec 4), 2565), (Instr.dieResetCore hc site0 (0 : BitVec 16),
    2565), (Instr.retire hc site0 (0 : BitVec 8) (0 : BitVec 16), 2566), (Instr.regReadPhys hc (0 : Reg64) (0 : Reg64)
    (0 : Word), 2567)] ∧ hosted.hears hc.origin = true ∧ hosted.refusal hc (gateOf 2308) = some ((5 : BitVec 16), [(4
    : Byte), (0 : Byte)])) ∧ ((Instr.groupUnbind hc, 2308) ∈ [(Instr.panelIdSet hc (0 : BitVec 16) true, 2305),
    (Instr.routeWrite hc (0 : Reg64) (0 : Word), 2306), (Instr.groupBind hc (0 : BitVec 16) (0 : BitVec 16) (0 :
    BitVec 16) false (0 : Reg64) (0 : Word), 2307), (Instr.groupUnbind hc, 2308), (Instr.ringJoin hc, 2309),
    (Instr.ringLeave hc, 2310), (Instr.shadowBind hc (0 : BitVec 8) (0 : BitVec 16) (0 : BitVec 8) (0 : BitVec 8) (0 :
    BitVec 8), 2311), (Instr.portRead hc (0 : Reg64) (0 : Word), 2312), (Instr.panelInfo hc (0 : Reg64) (0 : Word),
    257), (Instr.queueCreate hc (0 : BitVec 8) (0 : BitVec 8) (0 : BitVec 8) (0 : Reg64) (0 : Reg64), 258),
    (Instr.queueDelete hc (0 : BitVec 8), 259), (Instr.partCreate hc (0 : BitVec 8) (0 : BitVec 8) (0 : BitVec 8) (0 :
    BitVec 8), 513), (Instr.partDestroy hc, 514), (Instr.partReset hc, 515), (Instr.partQuery hc, 516), (Instr.jobLoad
    hc (0 : Reg64) (0 : Word) false, 769), (Instr.jobStart hc (0 : Word), 770), (Instr.jobAbort hc (0 : BitVec 16),
    771), (Instr.jobWait hc, 772), (Instr.ckptWait hc, 773), (Instr.ckptRelease hc, 774), (Instr.jobEnd hc, 775),
    (Instr.logWait hc, 776), (Instr.flumeList hc (0 : Reg64) (0 : Word), 1025), (Instr.flumeStats hc (0 : BitVec 16),
    1026), (Instr.memRead hc (0 : Reg64) (0 : Reg64) (0 : Word), 1281), (Instr.memWrite hc (0 : Reg64) (0 : Reg64) (0
    : Word), 1282), (Instr.faultRead hc (0 : Reg64) (0 : Word) (0 : Word) false, 1537), (Instr.faultClear hc (0 :
    Word), 1538), (Instr.eventWait hc (0 : Word), 1539), (Instr.recRead hc (0 : Reg64) (0 : Word) (0 : BitVec 8),
    1540), (Instr.recClear hc, 1541), (Instr.inject hc (0 : BitVec 8) (0 : BitVec 8) (0 : BitVec 16) (0 : BitVec 16)
    (0 : BitVec 8), 1542), (Instr.identity hc (0 : Reg64) (0 : Word), 1793), (Instr.attest hc (0 : Reg64) (0 : Word)
    (0 : BitVec 8) [], 1794), (Instr.sessionOpen hc (0 : Reg64) (0 : BitVec 16) (0 : BitVec 16), 1795),
    (Instr.sessionAuth hc (0 : Reg64) (0 : Word), 1796), (Instr.sessionClose hc, 1797), (Instr.sealOffer hc (0 :
    Reg64) (0 : Word) [], 1798), (Instr.sealAccept hc (0 : Reg64) (0 : Word), 1799), (Instr.powerRead hc (0 : Reg64)
    (0 : Word), 2049), (Instr.powerLimit hc (0 : BitVec 16), 2050), (Instr.thermalRead hc (0 : Reg64) (0 : Word),
    2051), (Instr.lifeRead hc (0 : Reg64) (0 : Word), 2052), (Instr.powerMode hc (0 : BitVec 8), 2053),
    (Instr.fwUpdate hc (0 : Reg64) (0 : Word), 2561), (Instr.cfgWrite hc (0 : Reg64) (0 : Word), 2562), (Instr.cfgRead
    hc (0 : Reg64) (0 : Word) false, 2563), (Instr.panelResetWarm hc refusedU1, 2564), (Instr.panelResetCold hc
    refusedU1, 2564), (Instr.dieResetDie hc site0 (0 : BitVec 4), 2565), (Instr.dieResetCore hc site0 (0 : BitVec 16),
    2565), (Instr.retire hc site0 (0 : BitVec 8) (0 : BitVec 16), 2566), (Instr.regReadPhys hc (0 : Reg64) (0 : Reg64)
    (0 : Word), 2567)] ∧ refusedS2.hears hc.origin = false) ∧ ((Instr.partQuery badCmd, 516) ∈ [(Instr.panelIdSet
    badCmd (0 : BitVec 16) true, 2305), (Instr.routeWrite badCmd (0 : Reg64) (0 : Word), 2306), (Instr.groupBind
    badCmd (0 : BitVec 16) (0 : BitVec 16) (0 : BitVec 16) false (0 : Reg64) (0 : Word), 2307), (Instr.groupUnbind
    badCmd, 2308), (Instr.ringJoin badCmd, 2309), (Instr.ringLeave badCmd, 2310), (Instr.shadowBind badCmd (0 : BitVec
    8) (0 : BitVec 16) (0 : BitVec 8) (0 : BitVec 8) (0 : BitVec 8), 2311), (Instr.portRead badCmd (0 : Reg64) (0 :
    Word), 2312), (Instr.panelInfo badCmd (0 : Reg64) (0 : Word), 257), (Instr.queueCreate badCmd (0 : BitVec 8) (0 :
    BitVec 8) (0 : BitVec 8) (0 : Reg64) (0 : Reg64), 258), (Instr.queueDelete badCmd (0 : BitVec 8), 259),
    (Instr.partCreate badCmd (0 : BitVec 8) (0 : BitVec 8) (0 : BitVec 8) (0 : BitVec 8), 513), (Instr.partDestroy
    badCmd, 514), (Instr.partReset badCmd, 515), (Instr.partQuery badCmd, 516), (Instr.jobLoad badCmd (0 : Reg64) (0 :
    Word) false, 769), (Instr.jobStart badCmd (0 : Word), 770), (Instr.jobAbort badCmd (0 : BitVec 16), 771),
    (Instr.jobWait badCmd, 772), (Instr.ckptWait badCmd, 773), (Instr.ckptRelease badCmd, 774), (Instr.jobEnd badCmd,
    775), (Instr.logWait badCmd, 776), (Instr.flumeList badCmd (0 : Reg64) (0 : Word), 1025), (Instr.flumeStats badCmd
    (0 : BitVec 16), 1026), (Instr.memRead badCmd (0 : Reg64) (0 : Reg64) (0 : Word), 1281), (Instr.memWrite badCmd (0
    : Reg64) (0 : Reg64) (0 : Word), 1282), (Instr.faultRead badCmd (0 : Reg64) (0 : Word) (0 : Word) false, 1537),
    (Instr.faultClear badCmd (0 : Word), 1538), (Instr.eventWait badCmd (0 : Word), 1539), (Instr.recRead badCmd (0 :
    Reg64) (0 : Word) (0 : BitVec 8), 1540), (Instr.recClear badCmd, 1541), (Instr.inject badCmd (0 : BitVec 8) (0 :
    BitVec 8) (0 : BitVec 16) (0 : BitVec 16) (0 : BitVec 8), 1542), (Instr.identity badCmd (0 : Reg64) (0 : Word),
    1793), (Instr.attest badCmd (0 : Reg64) (0 : Word) (0 : BitVec 8) [], 1794), (Instr.sessionOpen badCmd (0 : Reg64)
    (0 : BitVec 16) (0 : BitVec 16), 1795), (Instr.sessionAuth badCmd (0 : Reg64) (0 : Word), 1796),
    (Instr.sessionClose badCmd, 1797), (Instr.sealOffer badCmd (0 : Reg64) (0 : Word) [], 1798), (Instr.sealAccept
    badCmd (0 : Reg64) (0 : Word), 1799), (Instr.powerRead badCmd (0 : Reg64) (0 : Word), 2049), (Instr.powerLimit
    badCmd (0 : BitVec 16), 2050), (Instr.thermalRead badCmd (0 : Reg64) (0 : Word), 2051), (Instr.lifeRead badCmd (0
    : Reg64) (0 : Word), 2052), (Instr.powerMode badCmd (0 : BitVec 8), 2053), (Instr.fwUpdate badCmd (0 : Reg64) (0 :
    Word), 2561), (Instr.cfgWrite badCmd (0 : Reg64) (0 : Word), 2562), (Instr.cfgRead badCmd (0 : Reg64) (0 : Word)
    false, 2563), (Instr.panelResetWarm badCmd refusedU1, 2564), (Instr.panelResetCold badCmd refusedU1, 2564),
    (Instr.dieResetDie badCmd site0 (0 : BitVec 4), 2565), (Instr.dieResetCore badCmd site0 (0 : BitVec 16), 2565),
    (Instr.retire badCmd site0 (0 : BitVec 8) (0 : BitVec 16), 2566), (Instr.regReadPhys badCmd (0 : Reg64) (0 :
    Reg64) (0 : Word), 2567)] ∧ hosted.hears badCmd.origin = true ∧ hosted.refusal badCmd (gateOf 516) = none ∧
    (gateOf 516).right = none ∧ badCmd.bad.isSome = true) ∧ (128 ≤ full128.waitCount hc.origin ∧ full128.takes hc 772
    ∧ full128.takes hc 773 ∧ full128.takes hc 776 ∧ (full128.part hc.part.toNat).logs = []) := by
  try unfold State.takes
  try unfold State.admits
  decide +kernel

/-- Meets the hypotheses of Obligations.RepliesAreWritten. -/
theorem witness_replies :
    (hc.silent = false ∧ hc.origin = Origin.host false ∧ hc.intr = false ∧ ((hosted.host false).pair hc.queue).valid =
    true ∧ (hosted.host false).cut = false ∧ ((hosted.host false).pair hc.queue).heldReplies = [] ∧ hosted.replyRoom
    false hc.queue = true ∧ (List.replicate 20 (9 : Byte)).length = 20 ∧ ((hosted.host false).pair hc.queue).rqTail +
    1 < 2 ^ ((hosted.host false).pair hc.queue).rqLog2 ∧ hosted.dmaOk false 256 [(7 : Byte)].length = true) ∧
    (hc.silent = false ∧ hc.origin = Origin.host false ∧ hc.intr = false ∧ ((repliesS1.host false).pair
    hc.queue).valid = true ∧ (repliesS1.host false).cut = false ∧ ((repliesS1.host false).pair hc.queue).heldReplies =
    [] ∧ repliesS1.replyRoom false hc.queue = true ∧ ((repliesS1.host false).pair hc.queue).rqTail + 1 = 2 ^
    ((repliesS1.host false).pair hc.queue).rqLog2) ∧ (hc.silent = false ∧ hc.origin = Origin.host false ∧
    ((heldBack.host false).pair hc.queue).valid = true ∧ (heldBack.host false).cut = false ∧ (((heldBack.host
    false).pair hc.queue).heldReplies ≠ [] ∨ heldBack.replyRoom false hc.queue = false)) ∧ (hc.silent = false ∧
    hc.origin = Origin.host false ∧ (((repliesS2.host false).pair hc.queue).valid = false ∨ (repliesS2.host false).cut
    = true) ∧ repliesS2.dmaOk false (2 ^ 47) [(7 : Byte)].length = false) ∧ (hm.silent = false ∧ hm.origin =
    Origin.mgmt ∧ 0 = 0 ∧ max [(7 : Byte)].length 0 ≤ 60 * 1024 ∧ 60 * 1024 < max [(7 : Byte)].length 70000 ∧ 9 ≠ 0) := by
  decide +kernel

/-- Meets the hypotheses of Obligations.LinkCommandResults. -/
theorem witness_linkCommands :
    (hosted.takes hc 2305 ∧ hosted.panel.idLock = false ∧ (6 : BitVec 16) ≠ (65535 : BitVec 16) ∧ (65535 : BitVec 16)
    = (65535 : BitVec 16) ∧ hosted.takes hc 2306 ∧ hosted.routesFree = true ∧ BitVec.toNat (8 : Word) % 8 = 0 ∧
    hosted.input hc (BitVec.toNat (256 : Reg64)) (BitVec.toNat (8 : Word)) = some (hosted.hostBytes false 256 8) ∧
    (pieces 8 (hosted.hostBytes false 256 8).length (hosted.hostBytes false 256 8)).all hosted.routeOk = true ∧
    hosted.takes hc 2309 ∧ ¬hc ∈ hosted.ring.joining ∧ hosted.takes hc 2310 ∧ hosted.takes hc 2312) ∧ (hosted.takes hc
    2306 ∧ hosted.routesFree = true ∧ BitVec.toNat (7 : Word) % 8 ≠ 0) ∧ (hosted.takes hc 2306 ∧ hosted.routesFree =
    true ∧ BitVec.toNat (8 : Word) % 8 = 0 ∧ hosted.input hc (BitVec.toNat ((2 : Reg64) ^ 47)) (BitVec.toNat (8 :
    Word)) = none) ∧ (linkCommandsS1.takes hc 2306 ∧ linkCommandsS1.routesFree = true ∧ BitVec.toNat (8 : Word) % 8 =
    0 ∧ linkCommandsS1.input hc (BitVec.toNat (256 : Reg64)) (BitVec.toNat (8 : Word)) = some [(5 : Byte), (0 : Byte),
    (1 : Byte), (0 : Byte), (3 : Byte), (0 : Byte), (255 : Byte), (0 : Byte)] ∧ (pieces 8 [(5 : Byte), (0 : Byte), (1
    : Byte), (0 : Byte), (3 : Byte), (0 : Byte), (255 : Byte), (0 : Byte)].length [(5 : Byte), (0 : Byte), (1 : Byte),
    (0 : Byte), (3 : Byte), (0 : Byte), (255 : Byte), (0 : Byte)]).all linkCommandsS1.routeOk = false) ∧
    (linkCommandsS2.takes hc 2305 ∧ linkCommandsS2.panel.idLock = true) ∧ (linkCommandsS3.takes hc 2306 ∧
    linkCommandsS3.routesFree = false) ∧ ((partIs PartState.idle runs).takes hc 2307 ∧ BitVec.toNat (64 : Word) ≠ (if
    false = true then 64 else 0) ∧ (partIs PartState.idle runs).takes hc 2308 ∧ (partIs PartState.idle runs).takes hc
    2311 ∧ (0 : BitVec 8) = (0 : BitVec 8) ∧ ((1 : BitVec 8) ≠ (0 : BitVec 8) ∧ ((partIs PartState.idle runs).part
    hc.part.toNat).bound = none ∨ (1 : BitVec 8) = (2 : BitVec 8) ∧ Config.peerShape (0 : BitVec 16) (0 : BitVec 8) ≠
    (((partIs PartState.idle runs).part hc.part.toNat).rows, ((partIs PartState.idle runs).part hc.part.toNat).cols)))
    ∧ ((partIs PartState.idle runs).takes hc 2307 ∧ BitVec.toNat (64 : Word) = (if true = true then 64 else 0) ∧ (if
    true = true then (partIs PartState.idle runs).input hc (BitVec.toNat ((2 : Reg64) ^ 47)) (BitVec.toNat (64 :
    Word)) else some []) = none) ∧ ((partIs PartState.idle runs).takes hc 2307 ∧ BitVec.toNat (0 : Word) = (if false =
    true then 64 else 0) ∧ (if false = true then (partIs PartState.idle runs).input hc (BitVec.toNat (0 : Reg64))
    (BitVec.toNat (0 : Word)) else some []) = some [] ∧ (false = false ∨ treeOk [] = true) ∧ (¬(((partIs
    PartState.idle runs).part hc.part.toNat).secrets.isSome = true ∧ ∃ q, q ∈ (partIs PartState.idle runs).routePorts
    ∧ ∃ g, ((partIs PartState.idle runs).port q).sealedGroup = some g ∧ g ≠ (5 : BitVec 16)))) ∧ (treed.takes hc 2307
    ∧ BitVec.toNat (64 : Word) = (if true = true then 64 else 0) ∧ (if true = true then treed.input hc (BitVec.toNat
    (4096 : Reg64)) (BitVec.toNat (64 : Word)) else some []) = some ([(1 : Byte), (255 : Byte)] ++ List.replicate 62
    (0 : Byte)) ∧ treeOk ([(1 : Byte), (255 : Byte)] ++ List.replicate 62 (0 : Byte)) = false) ∧ (secret.takes hc 2307
    ∧ BitVec.toNat (0 : Word) = (if false = true then 64 else 0) ∧ (if false = true then secret.input hc (BitVec.toNat
    (0 : Reg64)) (BitVec.toNat (0 : Word)) else some []) = some [] ∧ (false = false ∨ treeOk [] = true) ∧
    ((secret.part hc.part.toNat).secrets.isSome = true ∧ ∃ q, q ∈ secret.routePorts ∧ ∃ g, (secret.port q).sealedGroup
    = some g ∧ g ≠ (5 : BitVec 16))) ∧ (bindable.takes hc 2311 ∧ (¬((3 : BitVec 8) ≠ (0 : BitVec 8) ∧ (bindable.part
    hc.part.toNat).bound = none ∨ (3 : BitVec 8) = (2 : BitVec 8) ∧ Config.peerShape (9 : BitVec 16) (16 : BitVec 8) ≠
    ((bindable.part hc.part.toNat).rows, (bindable.part hc.part.toNat).cols))) ∧ 2 < 3 ∧ (¬((1 : BitVec 8) ≠ (0 :
    BitVec 8) ∧ (bindable.part hc.part.toNat).bound = none ∨ (1 : BitVec 8) = (2 : BitVec 8) ∧ Config.peerShape (9 :
    BitVec 16) (16 : BitVec 8) ≠ ((bindable.part hc.part.toNat).rows, (bindable.part hc.part.toNat).cols))) ∧ 1 ≤ 2 ∧
    (1 : BitVec 8) ≠ (0 : BitVec 8) ∧ 16 ≤ 16 ∧ (¬((1 : BitVec 8) ≠ (0 : BitVec 8) ∧ (bindable.part
    hc.part.toNat).bound = none ∨ (1 : BitVec 8) = (2 : BitVec 8) ∧ Config.peerShape (9 : BitVec 16) (3 : BitVec 8) ≠
    ((bindable.part hc.part.toNat).rows, (bindable.part hc.part.toNat).cols))) ∧ (1 : BitVec 8) = (1 : BitVec 8) ∧ 3 <
    16 ∧ 64 ≤ 64 ∧ ((1 : BitVec 8) = (1 : BitVec 8) ∨ (1 : BitVec 8) = (2 : BitVec 8)) ∧ ((1 : BitVec 8) = (1 : BitVec
    8) → 3 < 64)) ∧ hc ∈ member2.ring.joining := by
  try unfold State.takes
  try unfold State.admits
  and_intros
  all_goals first | exact ⟨0, by decide +kernel, 9, by decide +kernel, by decide⟩ | decide +kernel

/-- Meets the hypotheses of Obligations.QueuesAndDoorbells. -/
theorem witness_queues :
    (4 ≤ BitVec.toNat (1125899906850816 : Reg64) / 2 ^ 48 % 16 ∧ BitVec.toNat (1125899906850816 : Reg64) / 2 ^ 48 % 16
    ≤ BitVec.toNat (hosted.host false).admRq / 2 ^ 48 % 16 ∧ BitVec.toNat (hosted.host false).admRq / 2 ^ 48 % 16 ≤ 12
    ∧ BitVec.toNat (1125899906850816 : Reg64) % 2 ^ 48 % 4096 = 0 ∧ BitVec.toNat (hosted.host false).admRq % 2 ^ 48 %
    4096 = 0 ∧ (hosted.host false).ready = true ∧ (hosted.host false).cut = false ∧ ((hosted.host false).pair (1 :
    BitVec 4)).valid = true ∧ (¬(2 ^ ((hosted.host false).pair (1 : BitVec 4)).sqLog2 ≤ BitVec.toNat (1125899906850816
    : Reg64) % 2 ^ 12 ∨
    { (hosted.host false).pair (1 : BitVec 4) with tail := BitVec.toNat (1125899906850816 : Reg64) % 2 ^ 12, started := ((hosted.host false).pair (1 : BitVec 4)).started : QPair }.waiting
    < ((hosted.host false).pair (1 : BitVec 4)).waiting)) ∧ BitVec.toNat (1125899906850816 : Reg64) % 2 ^ 12 < 2 ^
    ((hosted.host false).pair (1 : BitVec 4)).rqLog2 ∧ (((hosted.host false).pair (1 : BitVec 4)).heldReplies = [] ∨
    (hosted.setHost false ((hosted.host false).setPair (1 : BitVec 4)
    { (hosted.host false).pair (1 : BitVec 4) with rqHead := BitVec.toNat (1125899906850816 : Reg64) % 2 ^ 12, unfreed := ((hosted.host false).pair (1 : BitVec 4)).unfreed - min ((hosted.host false).pair (1 : BitVec 4)).unfreed ((BitVec.toNat (1125899906850816 : Reg64) % 2 ^ 12 + 2 ^ ((hosted.host false).pair (1 : BitVec 4)).rqLog2 - ((hosted.host false).pair (1 : BitVec 4)).rqHead) % 2 ^ ((hosted.host false).pair (1 : BitVec 4)).rqLog2), started := ((hosted.host false).pair (1 : BitVec 4)).started : QPair })).replyRoom
    false (1 : BitVec 4) = false) ∧ ¬hosted.fetchTurn = some (16 * b2n false + 1) ∧ ¬(0 : BitVec 3) ∈
    hosted.panel.deadPairs ∧ (hosted.host false).oneMod = false ∧ ¬(4 ≤ BitVec.toNat (844424930140160 : Reg64) / 2 ^
    48 % 16 ∧ BitVec.toNat (844424930140160 : Reg64) / 2 ^ 48 % 16 ≤ BitVec.toNat (hosted.host false).admRq / 2 ^ 48 %
    16 ∧ BitVec.toNat (hosted.host false).admRq / 2 ^ 48 % 16 ≤ 12 ∧ BitVec.toNat (844424930140160 : Reg64) % 2 ^ 48 %
    4096 = 0 ∧ BitVec.toNat (hosted.host false).admRq % 2 ^ 48 % 4096 = 0)) ∧ ((hosted.host false).ready = true ∧
    (hosted.host false).cut = false ∧ ((hosted.host false).pair (1 : BitVec 4)).valid = true ∧ (2 ^ ((hosted.host
    false).pair (1 : BitVec 4)).sqLog2 ≤ BitVec.toNat (16 : Reg64) % 2 ^ 12 ∨
    { (hosted.host false).pair (1 : BitVec 4) with tail := BitVec.toNat (16 : Reg64) % 2 ^ 12, started := ((hosted.host false).pair (1 : BitVec 4)).started : QPair }.waiting
    < ((hosted.host false).pair (1 : BitVec 4)).waiting) ∧ 2 ^ ((hosted.host false).pair (1 : BitVec 4)).rqLog2 ≤
    BitVec.toNat (16 : Reg64) % 2 ^ 12) ∧ ¬((hosted.host false).ready = true ∧ (hosted.host false).cut = false ∧
    ((hosted.host false).pair (2 : BitVec 4)).valid = true) ∧ ((heldBackF2.host false).ready = true ∧ (heldBackF2.host
    false).cut = false ∧ ((heldBackF2.host false).pair (1 : BitVec 4)).valid = true ∧ BitVec.toNat (8 : Reg64) % 2 ^
    12 < 2 ^ ((heldBackF2.host false).pair (1 : BitVec 4)).rqLog2 ∧ ((heldBackF2.host false).pair (1 : BitVec
    4)).heldReplies = [queuesR1] ∧ (heldBackF2.setHost false ((heldBackF2.host false).setPair (1 : BitVec 4)
    { (heldBackF2.host false).pair (1 : BitVec 4) with rqHead := BitVec.toNat (8 : Reg64) % 2 ^ 12, unfreed := ((heldBackF2.host false).pair (1 : BitVec 4)).unfreed - min ((heldBackF2.host false).pair (1 : BitVec 4)).unfreed ((BitVec.toNat (8 : Reg64) % 2 ^ 12 + 2 ^ ((heldBackF2.host false).pair (1 : BitVec 4)).rqLog2 - ((heldBackF2.host false).pair (1 : BitVec 4)).rqHead) % 2 ^ ((heldBackF2.host false).pair (1 : BitVec 4)).rqLog2), started := ((heldBackF2.host false).pair (1 : BitVec 4)).started : QPair })).replyRoom
    false (1 : BitVec 4) = true ∧ queuesR1.intr = false) ∧ (asked.fetchTurn = some (16 * b2n false + 1) ∧ ((cmdOf
    (Origin.host false) (1 : BitVec 4) ((((asked.host false).pair (1 : BitVec 4)).head + 1) % 2 ^ ((asked.host
    false).pair (1 : BitVec 4)).sqLog2) (asked.hostBytes false (BitVec.toNat ((asked.host false).pair (1 : BitVec
    4)).sqBase + 64 * ((asked.host false).pair (1 : BitVec 4)).head) 64)).ordered = false ∨ ((asked.host false).pair
    (1 : BitVec 4)).started = []) ∧ ((asked.host false).pair (1 : BitVec 4)).waiting = 1 ∧ 1 ≤ ((asked.host
    false).pair (1 : BitVec 4)).sqLog2 ∧ ((asked.host false).pair (1 : BitVec 4)).head < 2 ^ ((asked.host false).pair
    (1 : BitVec 4)).sqLog2) ∧ (ordered1.fetchTurn = some (16 * b2n false + 1) ∧ (cmdOf (Origin.host false) (1 : BitVec
    4) ((((ordered1.host false).pair (1 : BitVec 4)).head + 1) % 2 ^ ((ordered1.host false).pair (1 : BitVec
    4)).sqLog2) (ordered1.hostBytes false (BitVec.toNat ((ordered1.host false).pair (1 : BitVec 4)).sqBase + 64 *
    ((ordered1.host false).pair (1 : BitVec 4)).head) 64)).ordered = true ∧ ((ordered1.host false).pair (1 : BitVec
    4)).started ≠ []) ∧ ((3 : BitVec 3) ∈ queuesS2.panel.deadPairs ∧ (queuesS2.host false).oneMod = true) := by
  try unfold State.ready
  decide +kernel

/-- Meets the hypotheses of Obligations.PartitionCommands. -/
theorem witness_partitions :
    (wide.takes hc 257 ∧ wide.takes hc 258 ∧ hc.origin = Origin.host false ∧ 0 < 15 ∧ 15 < 16 ∧ ((wide.host
    false).pair (BitVec.ofNat 4 (15))).valid = false ∧ 4 ≤ 4 ∧ 4 ≤ 12 ∧ 4 ≤ 12 ∧ 12 ≤ 12 ∧ BitVec.toNat (4096 : Reg64)
    % 4096 = 0 ∧ BitVec.toNat (8192 : Reg64) % 4096 = 0 ∧ wide.dmaOk false (BitVec.toNat (4096 : Reg64)) (64 * 2 ^ 4)
    = true ∧ wide.dmaOk false (BitVec.toNat (8192 : Reg64)) (32 * 2 ^ 12) = true ∧ BitVec.toNat (1 : Reg64) % 4096 ≠ 0
    ∧ ¬(4 ≤ 3 ∧ 3 ≤ 12) ∧ ¬(4 ≤ 3 ∧ 3 ≤ 12) ∧ ¬(0 < 1 ∧ 1 < 16 ∧ ((wide.host false).pair (BitVec.ofNat 4 (1))).valid =
    false) ∧ wide.takes hc 259 ∧ ¬(15 < 16 ∧ BitVec.ofNat 4 (15) ≠ hc.queue ∧ ((wide.host false).pair (BitVec.ofNat 4
    (15))).valid = true) ∧ wide.takes hc 513 ∧ wide.rectOk (11) (11) (1) (1) = true ∧ (1 : BitVec 8) ≠ (0 : BitVec 8)
    ∧ 0 < 16 ∧ (wide.part 0).state = PartState.free ∧ (∀ (i : Nat), i < 0 → (wide.part i).state ≠ PartState.free) ∧
    wide.rectOk (11) (11) (1) (0) = true ∧ (0 : BitVec 8) = (0 : BitVec 8) ∧ wide.rectOk (11) (11) (0) (1) = true ∧
    wide.takes hc 516) ∧ (hosted.takes hc 258 ∧ hc.origin = Origin.host false ∧ 0 < 15 ∧ 15 < 16 ∧ ((hosted.host
    false).pair (BitVec.ofNat 4 (15))).valid = false ∧ 4 ≤ 4 ∧ 4 ≤ 12 ∧ 4 ≤ 12 ∧ 12 ≤ 12 ∧ BitVec.toNat ((2 : Reg64) ^
    60) % 4096 = 0 ∧ BitVec.toNat (8192 : Reg64) % 4096 = 0 ∧ ¬(hosted.dmaOk false (BitVec.toNat ((2 : Reg64) ^ 60))
    (64 * 2 ^ 4) = true ∧ hosted.dmaOk false (BitVec.toNat (8192 : Reg64)) (32 * 2 ^ 12) = true) ∧ hosted.takes hc 513
    ∧ ¬hosted.rectOk (0) (0) (1) (1) = true) ∧ (partitionsS1.takes partitionsH2 259 ∧ partitionsH2.origin =
    Origin.host false ∧ 1 < 16 ∧ BitVec.ofNat 4 (1) ≠ partitionsH2.queue ∧ ((partitionsS1.host false).pair
    (BitVec.ofNat 4 (1))).valid = true) ∧ partitionsS3.takes hc 514 ∧ (all16.takes hc 513 ∧ hc.origin = Origin.host
    false ∧ all16.rectOk (8) (8) (1) (1) = true ∧ (1 : BitVec 8) ≠ (0 : BitVec 8) ∧ (∀ (m : Nat), m < 16 → (all16.part
    m).state ≠ PartState.free)) := by
  try unfold State.takes
  try unfold State.admits
  decide +kernel

/-- Meets the hypotheses of Obligations.JobsLoadAndStart. -/
theorem witness_jobLoads :
    (loadable.takes hc 769 ∧ (loadable.part hc.part.toNat).loadWait = [] ∧ loadable.loadBlocked hc.part.toNat = false
    ∧ (¬(loadable.panel.pstate = PState.regionGated ∨ loadable.panel.pstate = PState.standby)) ∧ loadable.dmaOk
    (loadable.part hc.part.toNat).owner (BitVec.toNat (4096 : Reg64)) (BitVec.toNat (512 : Word)) = true ∧
    (loadable.leaveIdle.imageStatus hc.part.toNat (loadable.leaveIdle.hostBytes (loadable.part hc.part.toNat).owner
    (BitVec.toNat (4096 : Reg64)) (BitVec.toNat (512 : Word)))).fst = (0 : BitVec 16)) ∧ (testing.takes hc 769 ∧
    testing.loadBlocked hc.part.toNat = true) ∧ ((gated1 PState.regionGated).takes hc 769 ∧ ((gated1
    PState.regionGated).part hc.part.toNat).loadWait = [] ∧ (gated1 PState.regionGated).loadBlocked hc.part.toNat =
    false ∧ ((gated1 PState.regionGated).panel.pstate = PState.regionGated ∨ (gated1 PState.regionGated).panel.pstate
    = PState.standby)) ∧ (jobLoadsS1.takes hc 769 ∧ (jobLoadsS1.part hc.part.toNat).loadWait = [] ∧
    jobLoadsS1.loadBlocked hc.part.toNat = false ∧ (¬(jobLoadsS1.panel.pstate = PState.regionGated ∨
    jobLoadsS1.panel.pstate = PState.standby)) ∧ ¬jobLoadsS1.dmaOk (jobLoadsS1.part hc.part.toNat).owner (BitVec.toNat
    ((2 : Reg64) ^ 60)) (BitVec.toNat (512 : Word)) = true) ∧ (jobLoadsS1.takes hc 769 ∧ (jobLoadsS1.part
    hc.part.toNat).loadWait = [] ∧ jobLoadsS1.loadBlocked hc.part.toNat = false ∧ (¬(jobLoadsS1.panel.pstate =
    PState.regionGated ∨ jobLoadsS1.panel.pstate = PState.standby)) ∧ jobLoadsS1.dmaOk (jobLoadsS1.part
    hc.part.toNat).owner (BitVec.toNat (0 : Reg64)) (BitVec.toNat (512 : Word)) = true ∧
    (jobLoadsS1.leaveIdle.imageStatus hc.part.toNat (jobLoadsS1.leaveIdle.hostBytes (jobLoadsS1.part
    hc.part.toNat).owner (BitVec.toNat (0 : Reg64)) (BitVec.toNat (512 : Word)))).fst ≠ (0 : BitVec 16)) ∧ ((partIs
    PartState.loaded runs).takes hc 770 ∧ (((partIs PartState.loaded runs).part hc.part.toNat).img.multi = false ∨
    ((partIs PartState.loaded runs).part hc.part.toNat).bound.isSome = true)) ∧ (multi1.takes hc 770 ∧ (multi1.part
    hc.part.toNat).img.multi = true ∧ (multi1.part hc.part.toNat).bound = none) ∧ (hosted.waitCount hc.origin < 128 ∧
    hosted.takes hc 772 ∧ hosted.takes hc 773 ∧ hosted.takes hc 776 ∧ (hosted.part hc.part.toNat).logs = []) ∧
    (logged.takes hc 776 ∧ (logged.part hc.part.toNat).logs = [((1 : BitVec 16), (2 : BitVec 16), [(3 : Word), (4 :
    Word), (5 : Word), (6 : Word)])]) := by
  try unfold State.takes
  try unfold State.admits
  decide +kernel

/-- Meets the hypotheses of Obligations.JobsEnd. -/
theorem witness_jobsEnd :
    (hc.part = BitVec.setWidth 8 (1 : BitVec 4) ∧ hosted.takes hc 771 ∧ hosted.takes hc 515 ∧ (hosted.part (1)).state
    = PartState.running ∧ (∀ (c : CoreRef), c ∈ hosted.placedCores (1) → (hosted.core c).mode = CoreMode.halted ∧
    (hosted.core c).exitValid = true) ∧ (hosted.detFailed (1) = true ∨ (hosted.part (1)).hold = false) ∧ ((hosted.part
    (1)).limit = (0 : Word) ∨ hosted.hookCores (1) = [] ∨ (hosted.part (1)).state ≠ PartState.running ∧ (hosted.part
    (1)).state ≠ PartState.checkpoint)) ∧ (hc.part = BitVec.setWidth 8 (1 : BitVec 4) ∧ (partIs PartState.held
    ended).takes hc 775 ∧ (((partIs PartState.held ended).part (1)).state ≠ PartState.running ∨ ¬∀ (c : CoreRef), c ∈
    (partIs PartState.held ended).placedCores (1) → ((partIs PartState.held ended).core c).mode = CoreMode.halted ∧
    ((partIs PartState.held ended).core c).exitValid = true)) ∧ (((limited.part (1)).state = PartState.running ∨
    (limited.part (1)).state = PartState.checkpoint) ∧ (limited.part (1)).limit ≠ (0 : Word) ∧ limited.hookCores (1) ≠
    []) ∧ (c0 ∈ mixed.hookCores (1) ∧ jobsEndY1 ∈ mixed.hookCores (1) ∧ (mixed.part (1)).state = PartState.running ∧
    (∀ (c : CoreRef), c ∈ mixed.placedCores (1) → (mixed.core c).mode = CoreMode.halted ∨ (mixed.core c).atHook.isSome
    = true) ∧ (mixed.core c0).atHook ≠ (mixed.core jobsEndY1).atHook) := by
  try unfold State.takes
  try unfold State.admits
  decide +kernel

/-- Meets the hypotheses of Obligations.HoldsAndCheckpoints. -/
theorem witness_holds :
    ((holding.part (1)).state = PartState.running ∧ (holding.part (1)).hold = true ∧ holding.detFailed (1) = false ∧
    (∀ (c : CoreRef), c ∈ holding.placedCores (1) → (holding.core c).mode = CoreMode.halted ∧ (holding.core
    c).exitValid = true) ∧ ((holding.part (1)).state ≠ PartState.running ∨ holding.hookCores (1) = [])) ∧ (((partIs
    PartState.running hooked).part (1)).state = PartState.running ∧ (partIs PartState.running hooked).hookCores (1) ≠
    [] ∧ (partIs PartState.running hooked).detFailed (1) = false ∧ (∀ (c : CoreRef), c ∈ (partIs PartState.running
    hooked).placedCores (1) → ((partIs PartState.running hooked).core c).mode = CoreMode.halted ∨ ((partIs
    PartState.running hooked).core c).atHook = some (4 : Word))) ∧ (hc.part = BitVec.setWidth 8 (1 : BitVec 4) ∧
    (partIs PartState.checkpoint hooked).takes hc 774) ∧ (c0 ∈ (partIs PartState.running runs).placedCores (1) ∧
    ((partIs PartState.running runs).core c0).mode ≠ CoreMode.halted ∧ ((partIs PartState.running runs).core
    c0).atHook = none) := by
  try unfold State.takes
  try unfold State.admits
  decide +kernel

/-- Meets the hypotheses of Obligations.MemoryAndFlumeCommands. -/
theorem witness_memory :
    (hc.origin = Origin.host false ∧ (partIs PartState.loaded runs).takes hc 1281 ∧ (partIs PartState.loaded
    runs).memField hc.part.toNat (BitVec.toNat (0 : Reg64)) (BitVec.toNat (64 : Word)) = none ∧ (partIs
    PartState.loaded runs).dmaOk false (BitVec.toNat (4096 : Reg64)) (if ((partIs PartState.loaded runs).part
    hc.part.toNat).img.sealed = true then BitVec.toNat (64 : Word) / 64 * 72 else BitVec.toNat (64 : Word)) = true ∧
    ((partIs PartState.loaded runs).part hc.part.toNat).img.sealed = false ∧ (∀ (e : Nat × HbmErr), e ∈ (partIs
    PartState.loaded runs).hbmErr → e.snd.bytes ≤ 2) ∧ (partIs PartState.loaded runs).takes hc 1282 ∧ BitVec.toNat (0
    : Reg64) + BitVec.toNat (64 : Word) ≤ (partIs PartState.loaded runs).liveStacks.length * 36 * 2 ^ 30 ∧ (partIs
    PartState.loaded runs).takes hc 1025 ∧ (partIs PartState.loaded runs).takes hc 1026 ∧ (¬(((partIs PartState.loaded
    runs).part hc.part.toNat).img.flumes.any fun e => e.toNat % 2 ^ 12 == 0) = true) ∧ (partIs PartState.loaded
    runs).memField hc.part.toNat (BitVec.toNat (1 : Reg64)) (BitVec.toNat (64 : Word)) = some 16) ∧ (hc.origin =
    Origin.host false ∧ (partIs PartState.loaded runs).takes hc 1281 ∧ (partIs PartState.loaded runs).memField
    hc.part.toNat (BitVec.toNat (0 : Reg64)) (BitVec.toNat (64 : Word)) = none ∧ ¬(partIs PartState.loaded runs).dmaOk
    false (BitVec.toNat ((2 : Reg64) ^ 60)) (if ((partIs PartState.loaded runs).part hc.part.toNat).img.sealed = true
    then BitVec.toNat (64 : Word) / 64 * 72 else BitVec.toNat (64 : Word)) = true ∧ (partIs PartState.loaded
    runs).takes hc 1282) ∧ (hc.origin = Origin.host false ∧ (sealed1 PartState.loaded).takes hc 1281 ∧ (sealed1
    PartState.loaded).memField hc.part.toNat (BitVec.toNat (0 : Reg64)) (BitVec.toNat (64 : Word)) = none ∧ (sealed1
    PartState.loaded).dmaOk false (BitVec.toNat (4096 : Reg64)) (if ((sealed1 PartState.loaded).part
    hc.part.toNat).img.sealed = true then BitVec.toNat (64 : Word) / 64 * 72 else BitVec.toNat (64 : Word)) = true ∧
    ((sealed1 PartState.loaded).part hc.part.toNat).img.sealed = true ∧ (sealed1 PartState.loaded).hbmErr = [] ∧
    (sealed1 PartState.loaded).takes hc 1282 ∧ (64 : Word) = (64 : Word) ∧ BitVec.toNat (0 : Reg64) < (sealed1
    PartState.loaded).liveStacks.length * 36 * 2 ^ 30) ∧ (hc.origin = Origin.host false ∧ flumed.takes hc 1026 ∧
    (((flumed.part hc.part.toNat).img.flumes.any fun e => e.toNat % 2 ^ 12 == 8) = true)) := by
  try unfold State.takes
  try unfold State.admits
  decide +kernel

/-- Meets the hypotheses of Obligations.RegisterCommands. -/
theorem witness_registers :
    (hosted.admits hc (regGate 1284 (BitVec.toNat (246290604634112 : Reg64))) ∧ (if physWindow (BitVec.toNat
    (246290604634112 : Reg64)) = true then hosted.recordKind (9 : BitVec 8) (bytesOf 4 (BitVec.toNat hc.session)) else
    hosted).regPlace (BitVec.toNat (246290604634112 : Reg64)) ≠ RegPlace.bad ∧ hosted.takes hc 1284 ∧ hosted.admits hc
    (regGate 1283 (BitVec.toNat (246290604634112 : Reg64))) ∧ (if physWindow (BitVec.toNat (246290604634112 : Reg64))
    = true then hosted.recordKind (9 : BitVec 8) (bytesOf 4 (BitVec.toNat hc.session)) else hosted).regField
    (BitVec.toNat (246290604634112 : Reg64)) (BitVec.toNat (8 : Word)) = none ∧ (hosted.host false).dmaLock = false ∧
    (physWindow (246290604634112) = false ∨ hosted.sessionOk (Origin.host false) (0 : Word) 1 = true) ∧ hosted.admits
    hc (regGate 1284 (BitVec.toNat (1280 : Reg64))) ∧ (if physWindow (BitVec.toNat (1280 : Reg64)) = true then
    hosted.recordKind (9 : BitVec 8) (bytesOf 4 (BitVec.toNat hc.session)) else hosted).regPlace (BitVec.toNat (1280 :
    Reg64)) = RegPlace.bad ∧ hosted.admits hc (regGate 1283 (BitVec.toNat (1280 : Reg64))) ∧ (if physWindow
    (BitVec.toNat (1280 : Reg64)) = true then hosted.recordKind (9 : BitVec 8) (bytesOf 4 (BitVec.toNat hc.session))
    else hosted).regField (BitVec.toNat (1280 : Reg64)) (BitVec.toNat (8 : Word)) ≠ none) ∧ (registersS1.takes hc 1284
    ∧ registersS1.panel.idLock = true ∧ (registersS1.host false).dmaLock = true ∧ (¬(physWindow (228698426966016) =
    false ∨ registersS1.sessionOk (Origin.host false) (0 : Word) 1 = true))) ∧ (authorised.takes h5 2567 ∧
    (authorised.recordKind (9 : BitVec 8) (bytesOf 4 (BitVec.toNat h5.session))).regField (BitVec.toNat
    (228698426966016 : Reg64)) (BitVec.toNat (8 : Word)) = none ∧ (authorised.recordKind (9 : BitVec 8) (bytesOf 4
    (BitVec.toNat h5.session))).regField (BitVec.toNat (1280 : Reg64)) (BitVec.toNat (8 : Word)) ≠ none) := by
  try unfold State.takes
  try unfold State.admits
  decide +kernel

/-- Meets the hypotheses of Obligations.PowerDelivery. -/
theorem witness_rails :
    (1700 ≤ 1800 ∧ 1800 ≤ 1900 ∧ (1699 < 1700 ∨ 1900 < 1699) ∧ hosted.siteOk site0 = true ∧ (1000 : BitVec 16) ≠ (1001
    : BitVec 16) ∧ (hosted.region (siteKey site0) (5)).nbWaiting = false ∧ ¬(hosted.firstWaiting (siteKey site0) =
    some (5) ∧ hosted.cappedDie (siteKey site0) = false ∧ hosted.hasRoom (siteKey site0) (0) (0) = true) ∧
    (hosted.region (siteKey site0) (5)).state ≠ RegionState.ramping ∧ hosted.panel.wave = [] ∧ (¬((hosted.part
    (1)).state = PartState.loading ∧ ∃ k, k ∈ hosted.placedRegions (1) ∧ ((hosted.region (k / 64) (k % 64)).state =
    RegionState.off ∨ (hosted.region (k / 64) (k % 64)).state = RegionState.waiting ∧ (hosted.region (k / 64) (k %
    64)).nbWaiting = false))) ∧ hosted.takes hc 2049 ∧ hosted.takes hc 2050 ∧ hosted.takes hc 2053 ∧ 4 ≤ 4 ∧ 1 < 4 ∧
    hosted.moveTo hc (1) = none ∧ hosted.panel.pstate = PState.run ∧ hosted.panel.pstate ≠ PState.standby ∧
    hosted.allIdle = false ∧ 1 ≤ 1) ∧ (railsS1.siteOk site0 = true ∧ (railsS1.region (siteKey site0) (5)).state =
    RegionState.own) ∧ (waved.siteOk site0 = true ∧ (waved.region (siteKey site0) (5)).state ≠ RegionState.own ∧
    (waved.region (siteKey site0) (5)).nbWaiting = false ∧ waved.firstWaiting (siteKey site0) = some (5) ∧
    waved.cappedDie (siteKey site0) = false ∧ waved.hasRoom (siteKey site0) (0) (0) = true ∧ ¬waved.besidePeak
    (siteKey site0) (5) = true ∧ waved.panel.wave ≠ []) ∧ (railsS2.siteOk site0 = true ∧ (railsS2.region (siteKey
    site0) (5)).nbWaiting = true ∧ ¬railsS2.besidePeak (siteKey site0) (5) = true) ∧ (railsS3.siteOk site0 = true ∧
    (railsS3.region (siteKey site0) (5)).state = RegionState.ramping ∧ (∀ (i : Nat), railsS3.partOfSite (siteKey
    site0) = some i → (railsS3.part i).state ≠ PartState.loading) ∧ (¬(railsS3.panel.coarse = true ∨ (railsS3.region
    (siteKey site0) (5)).livePhases ≤ 5))) ∧ (railsS4.siteOk site0 = true ∧ (railsS4.region (siteKey site0) (5)).state
    = RegionState.ramping ∧ (railsS4.panel.coarse = true ∨ (railsS4.region (siteKey site0) (5)).livePhases ≤ 5) ∧
    (railsS4.die (siteKey site0)).logicFailed = true) ∧ (railsS5.siteOk site0 = true ∧ (railsS5.region (siteKey site0)
    (5)).state = RegionState.ramping ∧ (∀ (i : Nat), railsS5.partOfSite (siteKey site0) = some i → (railsS5.part
    i).state ≠ PartState.loading) ∧ (railsS5.panel.coarse = true ∨ (railsS5.region (siteKey site0) (5)).livePhases ≤
    5) ∧ (railsS5.die (siteKey site0)).logicFailed = false) ∧ (railsS6.siteOk site0 = true ∧ (railsS6.region (siteKey
    site0) (5)).nbWaiting = true ∧ railsS6.besidePeak (siteKey site0) (5) = true) ∧ (railsS7.siteOk site0 = true ∧
    (railsS7.region (siteKey site0) (5)).nbWaiting = false ∧ railsS7.firstWaiting (siteKey site0) = some (5) ∧
    railsS7.cappedDie (siteKey site0) = false ∧ railsS7.hasRoom (siteKey site0) (0) (0) = true ∧ railsS7.besidePeak
    (siteKey site0) (5) = true) ∧ ((lateLoad.part (1)).state = PartState.loading ∧ ∃ k, k ∈ lateLoad.placedRegions (1)
    ∧ ((lateLoad.region (k / 64) (k % 64)).state = RegionState.off ∨ (lateLoad.region (k / 64) (k % 64)).state =
    RegionState.waiting ∧ (lateLoad.region (k / 64) (k % 64)).nbWaiting = false)) ∧ (railsS8.takes hc 2053 ∧
    railsS8.panel.pstate = PState.idle ∧ (railsS8.panel.pstate = PState.run ∨ railsS8.panel.pstate = PState.idle) ∧
    railsS8.allIdle = true) ∧ (railsS1.announcedDraw (siteKey site0) (5) = 0 ∧ railsS10.siteOk site0 = true ∧
    (railsS10.region (siteKey site0) (5)).state = RegionState.own ∧ 0 < railsS10.announcedDraw (siteKey site0) (5)) := by
  try unfold State.takes
  try unfold State.admits
  and_intros
  all_goals first | decide +kernel | exact allSome (by decide +kernel) | exact notHbm (by decide +kernel)

/-- Meets the hypotheses of Obligations.SupplyLossesAndClocks. -/
theorem witness_supplies :
    (suppliesS1.siteOk site0 = true ∧ (suppliesS1.region (siteKey site0) (5)).state = RegionState.own ∧ 64 < 65 ∧
    (true = true ∧ (0 : BitVec 16) = (0 : BitVec 16) ∧ ((suppliesS1.die (siteKey site0)).det = false ∨ false = true) ∧
    (suppliesS1.region (siteKey site0) (5)).floorMv < (suppliesS1.region (siteKey site0) (5)).point) ∧
    ((suppliesS1.region (siteKey site0) (5)).state ≠ RegionState.own ∨ 20 ≤ 64 ∧ ¬(true = true ∧ (20 : BitVec 16) = (0
    : BitVec 16) ∧ ((suppliesS1.die (siteKey site0)).det = false ∨ false = true) ∧ (suppliesS1.region (siteKey site0)
    (5)).floorMv < (suppliesS1.region (siteKey site0) (5)).point)) ∧ (suppliesS1.region (siteKey site0)
    (5)).phases.getLsbD (7) = true ∧ 6 ≤
    { suppliesS1.region (siteKey site0) (5) with phases := (suppliesS1.region (siteKey site0) (5)).phases &&& ~~~((1 : BitVec 8) <<< 7), draw := 9, winRepaid := (suppliesS1.region (siteKey site0) (5)).winRepaid : Region }.livePhases
    ∧ (suppliesS1.die (siteKey site0)).logicFailed = false ∧ (suppliesS1.die (siteKey site0)).transitFailed = false ∧
    (suppliesS1.die (siteKey site0)).locked = false ∧ ((suppliesS1.region (siteKey site0) (5)).state = RegionState.own
    ∨ (suppliesS1.region (siteKey site0) (5)).state = RegionState.logic) ∧ 64 < 65 ∧ ¬(crossingCode (64) = true ∧
    (suppliesS1.die (siteKey site0)).det = true ∧ ¬(64 : BitVec 8) ∈ (suppliesS1.die (siteKey site0)).elastic)) ∧
    (suppliesS2.siteOk site0 = true ∧ (suppliesS2.region (siteKey site0) (5)).phases.getLsbD (7) = true ∧
    (suppliesS2.region (siteKey site0) (5)).state = RegionState.ramping ∧ (suppliesS2.region (siteKey site0)
    (5)).state ≠ RegionState.own ∧ (suppliesS2.region (siteKey site0) (5)).state ≠ RegionState.logic ∧
    suppliesS2.panel.failedUnits.contains suppliesU3 = false ∧ suppliesU3.kind = (5 : BitVec 3) ∧ suppliesU3.row.toNat
    < 4 ∧ suppliesS2.panel.failedUnits.contains suppliesU4 = false ∧ suppliesU4.kind = (1 : BitVec 3) ∧
    suppliesU4.row.toNat < 8 ∧ suppliesS2.panel.failedUnits.contains suppliesU5 = false ∧ suppliesU5.kind = (2 :
    BitVec 3) ∧ suppliesU5.row.toNat < 8) ∧ (suppliesS6.siteOk site0 = true ∧ (suppliesS6.region (siteKey site0)
    (5)).phases.getLsbD (5) = true ∧ (suppliesS6.region (siteKey site0) (5)).state = RegionState.own ∧
    { suppliesS6.region (siteKey site0) (5) with phases := (suppliesS6.region (siteKey site0) (5)).phases &&& ~~~((1 : BitVec 8) <<< 5), draw := 9, winRepaid := (suppliesS6.region (siteKey site0) (5)).winRepaid : Region }.livePhases
    < 6 ∧ (suppliesS6.die (siteKey site0)).logicFailed = false) ∧ (suppliesS7.siteOk site0 = true ∧ (suppliesS7.region
    (siteKey site0) (5)).phases.getLsbD (5) = true ∧ (suppliesS7.region (siteKey site0) (5)).state = RegionState.own ∧
    { suppliesS7.region (siteKey site0) (5) with phases := (suppliesS7.region (siteKey site0) (5)).phases &&& ~~~((1 : BitVec 8) <<< 5), draw := 9, winRepaid := (suppliesS7.region (siteKey site0) (5)).winRepaid : Region }.livePhases
    < 6 ∧ (suppliesS7.die (siteKey site0)).logicFailed = true) ∧ (suppliesS8.siteOk site0 = true ∧
    (¬(suppliesS8.region (siteKey site0) (5)).phases.getLsbD (0) = true ∨ (suppliesS8.region (siteKey site0)
    (5)).state ≠ RegionState.own ∧ (suppliesS8.region (siteKey site0) (5)).state ≠ RegionState.ramping) ∧
    (suppliesS8.die (siteKey site0)).locked = true ∧ crossingCode (64) = true ∧ (suppliesS8.die (siteKey site0)).det =
    true ∧ ¬(64 : BitVec 8) ∈ (suppliesS8.die (siteKey site0)).elastic ∧ suppliesS8.panel.failedUnits.contains
    suppliesU4 = true ∧ (suppliesU4.kind = (1 : BitVec 3) ∨ suppliesU4.kind = (2 : BitVec 3) ∨ suppliesU4.kind = (5 :
    BitVec 3)) ∧ suppliesU4.row.toNat < if suppliesU4.kind = (5 : BitVec 3) then 4 else 8) ∧ (suppliesS9.siteOk site0
    = true ∧ (suppliesS9.die (siteKey site0)).transitFailed = true) := by
  decide +kernel

/-- Meets the hypotheses of Obligations.ThermalControl. -/
theorem witness_sensors :
    (hosted.unitOk hub = true ∧ hub.kind ≠ (7 : BitVec 3) ∧ [((480 : Int), (480 : Int), (480 : Int)), ((-320 : Int),
    (-320 : Int), (-320 : Int))].length = spotCount hub.kind ∧ ([] : List (Int × Int × Int)).length ≠ spotCount
    hub.kind ∧ hosted.siteOk site0 = true ∧ 0 < 64 ∧ ¬((limitsOf hub.kind (0)).run ≤ hosted.tempOf hub (0) ∧
    hosted.panel.coolState.toNat < 3) ∧ ¬(hosted.panel.coolState = (3 : BitVec 3) ∧ hosted.panel.flow.toNat < 720 ∧
    hosted.panel.pstate ≠ PState.standby) ∧ hosted.panel.coolState ≠ (4 : BitVec 3) ∧ ¬((limitsOf hub.kind (0)).trip <
    (500 : Int) ∧ ¬(hub, (0 : BitVec 5), (0 : BitVec 2)) ∈ hosted.flash.sensors) ∧ hosted.takes hc 2051 ∧ hosted.takes
    hc 2052) ∧ (hot.unitOk msd0 = true ∧ (limitsOf msd0.kind (0)).run ≤ hot.tempOf msd0 (0) ∧
    hot.panel.coolState.toNat < 3 ∧ (limitsOf msd0.kind (0)).trip < (2000 : Int) ∧ ¬(msd0, (0 : BitVec 5), (0 : BitVec
    2)) ∈ hot.flash.sensors) ∧ sensorsS1.panel.coolState = (3 : BitVec 3) ∧ sensorsS1.panel.flow.toNat < 720 ∧
    sensorsS1.panel.pstate ≠ PState.standby ∧ sensorsS2.panel.coolState = (4 : BitVec 3) := by
  try unfold State.takes
  try unfold State.admits
  decide +kernel

/-- Meets the hypotheses of Obligations.PanelResets. -/
theorem witness_panelResets :
    (hosted.panel.rstLow = false ∧ panelResetsB1.fusesOk = true ∧ hwdBad panelResetsB1 = false ∧
    panelResetsB1.coolantReady = true ∧ panelResetsB1.imageOk = true ∧ hosted.sec.fwc ≤ hosted.flash.fw.svn ∧
    hosted.flash.fw.svn.toNat ≤ 64 ∧ hosted.configChoice panelResetsB1 ≠ none ∧ hosted.panel.hwdHeld = false ∧
    hosted.takes hc 2564 ∧ hosted.panel.ready = true ∧ (¬(hosted.panel.coolState = (4 : BitVec 3) ∨ hosted.panel.dead
    = true ∨ hosted.panel.pstate = PState.standby)) ∧ ¬hosted.panel.coolState = (4 : BitVec 3) ∧ panelResetsB2.fusesOk
    = false ∧ bad0.fusesOk = true ∧ hwdBad bad0 = true ∧ panelResetsB3.fusesOk = true ∧ hwdBad panelResetsB3 = false ∧
    (¬(panelResetsB3.imageOk = true ∧ hosted.sec.fwc ≤ hosted.flash.fw.svn ∧ hosted.flash.fw.svn.toNat ≤ 64) ∨
    ¬hosted.configChoice panelResetsB3 ≠ none) ∧ panelResetsB4.fusesOk = true ∧ hwdBad panelResetsB4 = false ∧
    panelResetsB4.imageOk = true ∧ hosted.sec.fwc ≤ hosted.flash.fw.svn ∧ hosted.flash.fw.svn.toNat ≤ 64 ∧
    hosted.configChoice panelResetsB4 ≠ none ∧ panelResetsB4.coolantReady = false) ∧ ((low (1 : BitVec 3)
    false).panel.rstLow = true ∧ (low (1 : BitVec 3) false).panel.hwdHeld = false ∧ (low (1 : BitVec 3)
    false).panel.ready = false ∧ ((low (1 : BitVec 3) false).panel.lastReset ≠ (0 : BitVec 3) ∨ panelResetsB1.fusesOk
    = true) ∧ hwdBad panelResetsB1 = false ∧ panelResetsB1.coolantReady = true ∧ panelResetsB1.imageOk = true ∧ (low
    (1 : BitVec 3) false).sec.fwc ≤ (low (1 : BitVec 3) false).flash.fw.svn ∧ (low (1 : BitVec 3)
    false).flash.fw.svn.toNat ≤ 64 ∧ (low (1 : BitVec 3) false).configChoice panelResetsB1 ≠ none ∧ ((low (1 : BitVec
    3) false).panel.lastReset ≠ (0 : BitVec 3) ∨ bad0.fusesOk = true) ∧ hwdBad bad0 = true ∧ ((low (1 : BitVec 3)
    false).panel.lastReset ≠ (0 : BitVec 3) ∨ panelResetsB3.fusesOk = true) ∧ hwdBad panelResetsB3 = false ∧
    (¬(panelResetsB3.imageOk = true ∧ (low (1 : BitVec 3) false).sec.fwc ≤ (low (1 : BitVec 3) false).flash.fw.svn ∧
    (low (1 : BitVec 3) false).flash.fw.svn.toNat ≤ 64) ∨ ¬(low (1 : BitVec 3) false).configChoice panelResetsB3 ≠
    none) ∧ ((low (1 : BitVec 3) false).panel.lastReset ≠ (0 : BitVec 3) ∨ panelResetsB4.fusesOk = true) ∧ hwdBad
    panelResetsB4 = false ∧ panelResetsB4.imageOk = true ∧ (low (1 : BitVec 3) false).sec.fwc ≤ (low (1 : BitVec 3)
    false).flash.fw.svn ∧ (low (1 : BitVec 3) false).flash.fw.svn.toNat ≤ 64 ∧ (low (1 : BitVec 3) false).configChoice
    panelResetsB4 ≠ none ∧ panelResetsB4.coolantReady = false) ∧ ((low (0 : BitVec 3) false).panel.rstLow = true ∧
    (low (0 : BitVec 3) false).panel.hwdHeld = false ∧ (low (0 : BitVec 3) false).panel.ready = false ∧ (low (0 :
    BitVec 3) false).panel.lastReset = (0 : BitVec 3) ∧ panelResetsB2.fusesOk = false) ∧ (panelResetsS5.panel.hwdHeld
    = true ∧ panelResetsS5.panel.rstLow = true) ∧ (panelResetsS6.takes hc 2564 ∧ panelResetsS6.panel.ready = false) ∧
    (panelResetsS7.takes hc 2564 ∧ panelResetsS7.panel.ready = true ∧ (panelResetsS7.panel.coolState = (4 : BitVec 3)
    ∨ panelResetsS7.panel.dead = true ∨ panelResetsS7.panel.pstate = PState.standby) ∧ panelResetsS7.panel.coolState =
    (4 : BitVec 3)) := by
  try unfold State.ready
  try unfold State.takes
  try unfold State.admits
  decide +kernel

/-- Meets the hypotheses of Obligations.SmallerResetsAndUpdates. -/
theorem witness_dieResets :
    (hosted.takes hc 2565 ∧ hosted.mayResetDie (siteKey site0) = false ∧ hosted.siteOk site0 = true ∧ (hosted.edge
    (siteKey site0) (0)).state ≠ (1 : BitVec 2) ∧ ¬((hosted.edge (siteKey site0) (0)).state = (1 : BitVec 2) ∧
    (hosted.edge (siteKey site0) (0)).retrainDue = true ∧ hosted.flumeCrosses (siteKey site0) (0) = false)) ∧ ((partIs
    PartState.idle runs).takes hc 2565 ∧ (partIs PartState.idle runs).mayResetDie (siteKey site0) = true ∧ (partIs
    PartState.idle runs).siteOk site0 = true ∧ 1023 < 1024 ∧ (partIs PartState.idle runs).coreAt (siteKey site0)
    (1023) = some dieResetsC3 ∧ 1024 ≤ 1024 ∧ (partIs PartState.idle runs).mayResetDie (siteKey dieResetsD1) = true ∧
    12 ≤ dieResetsD1.row.toNat ∧ (partIs PartState.idle runs).mayResetDie (siteKey dieResetsD2) = true ∧
    dieResetsD2.row.toNat < 12 ∧ (partIs PartState.idle runs).siteOk dieResetsD2 = false) ∧ (resetting.pending = [] ∧
    resetting.fetched = [] ∧ resetting.resets = [ResetJob.die (siteKey site0) (0 : BitVec 4) hc]) ∧
    (dieResetsS4.siteOk site0 = true ∧ (dieResetsS4.edge (siteKey site0) (1)).state = (1 : BitVec 2)) ∧
    (dieResetsS5.siteOk site0 = true ∧ (dieResetsS5.edge (siteKey site0) (1)).state = (1 : BitVec 2) ∧
    (dieResetsS5.edge (siteKey site0) (1)).retrainDue = true ∧ dieResetsS5.flumeCrosses (siteKey site0) (1) = false) ∧
    (hosted.takes hc 2561 ∧ hosted.takeInput hc (BitVec.toNat (4096 : Reg64)) (BitVec.toNat (8 : Word)) = Sum.inr
    (List.replicate 8 (0 : Byte)) ∧ hosted.takes hc 2562 ∧ BitVec.toNat (8 : Word) ≤ 64 * 2 ^ 20 ∧ hosted.takes hc
    2563 ∧ hosted.panel.stage ≠ (14 : BitVec 4) ∧ hosted.panel.hwdHeld = false ∧ ¬hosted.panel.stage = (14 : BitVec 4)
    ∧ hosted.panel.ready = true ∧ hosted.takeInput hc (BitVec.toNat ((2 : Reg64) ^ 60)) (BitVec.toNat (8 : Word)) =
    Sum.inl ((7 : BitVec 16), [])) ∧ (inMaint.panel.stage = (14 : BitVec 4) ∧ inMaint.panel.hwdHeld = false) ∧
    dieResetsS7.panel.hwdHeld = true ∧ (dieResetsS8.panel.hwdHeld = false ∧ ¬dieResetsS8.panel.stage = (14 : BitVec 4)
    ∧ dieResetsS8.panel.ready = false) ∧ ((partIs PartState.idle runs).takes hc 2565 ∧ (partIs PartState.idle
    runs).mayResetDie (siteKey dieResetsD10) = true ∧ (partIs PartState.idle runs).siteOk dieResetsD10 = true ∧ 0 <
    1024 ∧ (partIs PartState.idle runs).coreAt (siteKey dieResetsD10) (0) = none) ∧ (hosted.takes hc 2562 ∧ 64 * 2 ^
    20 < BitVec.toNat (134217728 : Word)) := by
  try unfold State.ready
  try unfold State.takes
  try unfold State.admits
  decide +kernel

/-- Meets the hypotheses of Obligations.FaultsAndRecorder. -/
theorem witness_faults :
    (sourceClass faultsR1.source = 0 ∧ stackOfReport faultsR1 = none ∧ (List.find? (fun f => f.covers faultsR1)
    hosted.faults = none) ∧ (hosted.faults.length < 4096 ∨ hosted.faults.any FaultRec.replaceable = true) ∧
    (sourceClass faultsR2.source = 1 ∨ sourceClass faultsR2.source = 4) ∧ stackOfReport faultsR2 = none ∧ sourceClass
    faultsR3.source = 2 ∧ sourceClass faultsR4.source = 3 ∧ (faultsT5.kind.toNat ∈ [2, 3, 4, 9, 10, 11, 12, 13, 14,
    15, 16, 17] ∨ faultsT5.kind.toNat ∈ [1, 5, 6, 7, 8] ∧ List.filter (fun n => (tget { : RecTrigReg }
    hosted.recorder.trig n).enable && filterOk faultsT5.kind.toNat (tget { : RecTrigReg } hosted.recorder.trig
    n).filter.toNat faultsT5.filter.toNat) (hosted.recorder.entries faultsT5.kind) ≠ [] ∧ faultsT5.withinMs = false) ∧
    (faultsT6.kind = (0 : BitVec 8) ∨ 17 < faultsT6.kind.toNat ∨ faultsT6.kind.toNat ∈ [1, 5, 6, 7, 8] ∧ List.filter
    (fun n => (tget { : RecTrigReg } hosted.recorder.trig n).enable && filterOk faultsT6.kind.toNat (tget
    { : RecTrigReg } hosted.recorder.trig n).filter.toNat faultsT6.filter.toNat) (hosted.recorder.entries
    faultsT6.kind) = []) ∧ hosted.takes hc 1537 ∧ hosted.takes hc 1538 ∧ (List.find? (fun f => decide (f.seq = (9 :
    Word))) hosted.faults = none) ∧ hosted.takes hc 1539 ∧ (9 : Word) ≠ (0 : Word) ∧ BitVec.toNat (9 : Word) < 64 ∧
    (hc.origin = Origin.mgmt ∨ hosted.waitCount hc.origin < 128) ∧ hosted.takes hc 1540 ∧ 0 < 4 ∧ 4 ≤ 4 ∧ ((0 : Word)
    = (0 : Word) ∨ 64 ≤ BitVec.toNat (0 : Word))) ∧ (sourceClass faultsR9.source = 0 ∧ stackOfReport faultsR9 = none ∧
    (List.find? (fun f => f.covers faultsR9) faultsS8.faults = some faultsF10)) ∧ (faultsT11.kind.toNat ∈ [1, 5, 6, 7,
    8] ∧ (List.filter (fun n => (tget { : RecTrigReg } faultsS12.recorder.trig n).enable && filterOk
    faultsT11.kind.toNat (tget { : RecTrigReg } faultsS12.recorder.trig n).filter.toNat faultsT11.filter.toNat)
    (faultsS12.recorder.entries faultsT11.kind) ≠ []) ∧ faultsT11.withinMs = true) ∧ (faultsS14.takes hc 1538 ∧
    (List.find? (fun f => decide (f.seq = (9 : Word))) faultsS14.faults = some faultsF15) ∧ faultsS14.causeGone
    faultsF15 = true) ∧ (faultsS16.takes hc 1538 ∧ (List.find? (fun f => decide (f.seq = (9 : Word))) faultsS16.faults
    = some faultsF17) ∧ faultsS16.causeGone faultsF17 = false) ∧ (faultsS18.takes hc 1539 ∧ (9 : Word) ≠ (0 : Word) ∧
    BitVec.toNat (9 : Word) < 64 ∧ hc.origin ≠ Origin.mgmt ∧ 128 ≤ faultsS18.waitCount hc.origin) ∧ (authorised.takes
    h5 1541 ∧ authorised.takes h5 1542 ∧ (¬Option.any (fun n => (authorised.part n).secrets.isSome)
    (authorised.injectPart (unitOfWord (0 : BitVec 16))) = true) ∧ (Option.all (fun n => h5.origin == Origin.host
    (authorised.part n).owner) (authorised.injectPart (unitOfWord (0 : BitVec 16))) = true) ∧ (authorised.recordKind
    (9 : BitVec 8) (bytesOf 4 (BitVec.toNat h5.session))).injectField (0) (1) (0 : BitVec 16) (0) (0) = none ∧
    (authorised.recordKind (9 : BitVec 8) (bytesOf 4 (BitVec.toNat h5.session))).injectField (9) (1) (0 : BitVec 16)
    (0) (0) = some 16) ∧ (sealed2.hears h5.origin = true ∧ sealed2.sessionOk h5.origin h5.session 4 = true ∧
    (Option.any (fun n => (sealed2.part n).secrets.isSome) (sealed2.injectPart (unitOfWord (0 : BitVec 16))) = true))
    ∧ (faultsS19.takes faultsH20 1542 ∧ (¬Option.any (fun n => (faultsS19.part n).secrets.isSome)
    (faultsS19.injectPart (unitOfWord (0 : BitVec 16))) = true) ∧ (¬Option.all (fun n => faultsH20.origin ==
    Origin.host (faultsS19.part n).owner) (faultsS19.injectPart (unitOfWord (0 : BitVec 16))) = true)) := by
  try unfold State.takes
  try unfold State.admits
  decide +kernel

/-- Meets the hypotheses of Obligations.Retirements. -/
theorem witness_retirements :
    ((∀ (n : Nat), n < 16 → ¬(((partIs PartState.idle runs).part n).state = PartState.running ∧ List.filter (fun c =>
    ((sampled1 (partIs PartState.idle runs)).core c).active) ((sampled1 (partIs PartState.idle runs)).placedCores n) ≠
    [] ∧ ∀ (c : CoreRef), c ∈ List.filter (fun c => ((sampled1 (partIs PartState.idle runs)).core c).active)
    ((sampled1 (partIs PartState.idle runs)).placedCores n) → (partIs PartState.idle runs).panel.threshold ≤
    ((sampled1 (partIs PartState.idle runs)).core c).still.toNat)) ∧ (partIs PartState.idle runs).coreOk c0 = true ∧
    (partIs PartState.idle runs).dieOf c0 = some 0 ∧ (((partIs PartState.idle runs).core c0).testing = false ∨
    ¬Option.all (partIs PartState.idle runs).partQuiet ((partIs PartState.idle runs).partOfDie (dieRow c0) (dieCol
    c0)) = true) ∧ (partIs PartState.idle runs).siteOk (retHome retired0) = true ∧ (List.find? (fun e => decide (e.fst
    = retired0)) (partIs PartState.idle runs).flash.pendingRet = none ∨ (partIs PartState.idle runs).unitQuiet
    retired0 = false) ∧ ¬((2 : BitVec 4) ∈ (partIs PartState.idle runs).panel.engage ∧ ((partIs PartState.idle
    runs).movedParts (2)).all (partIs PartState.idle runs).partQuiet = true) ∧ (partIs PartState.idle runs).takes hc
    2566 ∧ 12 ≤ retirementsD1.row.toNat ∧ retirementsD2.row.toNat < 12 ∧ ¬(partIs PartState.idle runs).siteOk
    retirementsD2 = true ∧ site0.row.toNat < 12 ∧ (partIs PartState.idle runs).siteOk site0 = true ∧ 2 < 3 ∧ 0 ≤ 2 ∧
    (((0 : BitVec 8) = (0 : BitVec 8) → 1023 < 1024) ∧ ((0 : BitVec 8) = (1 : BitVec 8) → 1023 < 64)) ∧ (partIs
    PartState.idle runs).unitQuiet (retUnitOf site0 (0 : BitVec 8) (1023 : BitVec 16)) = true ∧ (partIs PartState.idle
    runs).unitRetired (retUnitOf site0 (0 : BitVec 8) (1023 : BitVec 16)) = false ∧ (¬(((0 : BitVec 8) = (0 : BitVec
    8) → 1024 < 1024) ∧ ((0 : BitVec 8) = (1 : BitVec 8) → 1024 < 64)))) ∧ (1 < 16 ∧ ((hung1.part 1).state =
    PartState.running ∧ List.filter (fun c => ((sampled1 hung1).core c).active) ((sampled1 hung1).placedCores 1) ≠ []
    ∧ ∀ (c : CoreRef), c ∈ List.filter (fun c => ((sampled1 hung1).core c).active) ((sampled1 hung1).placedCores 1) →
    hung1.panel.threshold ≤ ((sampled1 hung1).core c).still.toNat) ∧ (∀ (m : Nat), m < 1 → ¬((hung1.part m).state =
    PartState.running ∧ List.filter (fun c => ((sampled1 hung1).core c).active) ((sampled1 hung1).placedCores m) ≠ []
    ∧ ∀ (c : CoreRef), c ∈ List.filter (fun c => ((sampled1 hung1).core c).active) ((sampled1 hung1).placedCores m) →
    hung1.panel.threshold ≤ ((sampled1 hung1).core c).still.toNat)) ∧ (firstCore (List.filter (fun c => ((sampled1
    hung1).core c).active) ((sampled1 hung1).placedCores 1)) = some c0) ∧ hung1.partOfDie (dieRow c0) (dieCol c0) =
    some 1) ∧ ((tested []).coreOk c0 = true ∧ (tested []).dieOf c0 = some 0 ∧ ((tested []).core c0).testing = true ∧
    Option.all (tested []).partQuiet ((tested []).partOfDie (dieRow c0) (dieCol c0)) = true ∧ (∀ (n : Nat), n < 16 →
    ((tested []).part n).loadWait = []) ∧ (¬∃ e, e ∈ (tested []).flash.pendingRet ++ (tested []).flash.retLog ∧ e.fst
    = RetUnit.core (siteOfKey 0) (BitVec.ofNat 10 (coreIndex c0)))) ∧ (retirementsS3.coreOk c0 = true ∧
    retirementsS3.dieOf c0 = some 0 ∧ (retirementsS3.core c0).testing = true ∧ Option.all retirementsS3.partQuiet
    (retirementsS3.partOfDie (dieRow c0) (dieCol c0)) = true ∧ (∀ (n : Nat), n < 16 → (retirementsS3.part n).loadWait
    = []) ∧ (∃ e, e ∈ retirementsS3.flash.pendingRet ++ retirementsS3.flash.retLog ∧ e.fst = RetUnit.core (siteOfKey
    0) (BitVec.ofNat 10 (coreIndex c0)))) ∧ (retirementsS4.siteOk (retHome retired0) = true ∧ (List.find? (fun e =>
    decide (e.fst = retired0)) retirementsS4.flash.pendingRet = some (retired0, (257 : BitVec 16), (3 : Word))) ∧
    retirementsS4.unitQuiet retired0 = true) ∧ ((2 : BitVec 4) ∈ engaged.panel.engage ∧ (engaged.movedParts (2)).all
    engaged.partQuiet = true ∧ (¬((engaged.planRow (2)).lcol ≠ (engaged.row (2)).lcol ∨ (engaged.planRow (2)).leftOut
    ≠ (engaged.row (2)).leftOut) ∨ engaged.linksClear (engaged.setRow (2) (engaged.planRow (2))) (2) = true) ∧
    ((engaged.planRow (2)).lcol ≠ (engaged.row (2)).lcol ∨ (engaged.planRow (2)).leftOut ≠ (engaged.row (2)).leftOut →
    ¬∃ w, w ∈ [] ∧ w.row = (2 : BitVec 4) ∧ engaged.siteOk w = true ∧ engaged.weirBad (2) w.col.toNat = false) ∧ (∀ (n
    : Nat), n < 16 → (engaged.part n).loadWait = [])) ∧ ((2 : BitVec 4) ∈ shifted.panel.engage ∧ (shifted.movedParts
    (2)).all shifted.partQuiet = true ∧ ((shifted.planRow (2)).lcol ≠ (shifted.row (2)).lcol ∨ (shifted.planRow
    (2)).leftOut ≠ (shifted.row (2)).leftOut) ∧ shifted.linksClear (shifted.setRow (2) (shifted.planRow (2))) (2) =
    true ∧ (∃ w, w ∈ retirementsWeirs5 ∧ w.row = (2 : BitVec 4) ∧ shifted.siteOk w = true ∧ shifted.weirBad (2)
    w.col.toNat = false)) ∧ ((2 : BitVec 4) ∈ shifting.panel.engage ∧ (shifting.movedParts (2)).all shifting.partQuiet
    = true ∧ ((shifting.planRow (2)).lcol ≠ (shifting.row (2)).lcol ∨ (shifting.planRow (2)).leftOut ≠ (shifting.row
    (2)).leftOut) ∧ shifting.linksClear (shifting.setRow (2) (shifting.planRow (2))) (2) = false) ∧
    (retirementsS6.takes hc 2566 ∧ site0.row.toNat < 12 ∧ retirementsS6.siteOk site0 = true ∧ 0 ≤ 2 ∧ (((0 : BitVec 8)
    = (0 : BitVec 8) → 1023 < 1024) ∧ ((0 : BitVec 8) = (1 : BitVec 8) → 1023 < 64)) ∧ retirementsS6.unitQuiet
    (retUnitOf site0 (0 : BitVec 8) (1023 : BitVec 16)) = true ∧ retirementsS6.unitRetired (retUnitOf site0 (0 :
    BitVec 8) (1023 : BitVec 16)) = true) ∧ (hosted.takes hc 2566 ∧ site0.row.toNat < 12 ∧ hosted.siteOk site0 = true
    ∧ 0 ≤ 2 ∧ (((0 : BitVec 8) = (0 : BitVec 8) → 1023 < 1024) ∧ ((0 : BitVec 8) = (1 : BitVec 8) → 1023 < 64)) ∧
    hosted.unitQuiet (retUnitOf site0 (0 : BitVec 8) (1023 : BitVec 16)) = false) := by
  try unfold State.takes
  try unfold State.admits
  decide +kernel

/-- Meets the hypotheses of Obligations.SecurityCommands. -/
theorem witness_security :
    (hosted.takes hc 1793 ∧ hosted.takes hc 1794 ∧ 16 ≤ 16 ∧ (16 : BitVec 8) ≠ (255 : BitVec 8) ∧ (255 < 16 ∨ (255 :
    BitVec 8) = (255 : BitVec 8)) ∧ 3829 ≤ BitVec.toNat (3829 : Word) ∧ hosted.takes hc 1795 ∧ 32 ≤ 32 ∧ 31 < 32 ∧ ¬(0
    < 0 ∧ 0 ≤ 480) ∧ 0 < 480 ∧ 480 ≤ 480 ∧ hosted.outputStatus hc (BitVec.toNat (4096 : Reg64)) 64 64 = (0 : BitVec
    16) ∧ hosted.sec.sessions.length < 4 ∧ hosted.takes hc 1796 ∧ hosted.sessionOf hc = none ∧ hosted.takes hc 1797 ∧
    (¬∃ e, e ∈ hosted.sec.sessions ∧ e.number = (5 : Word)) ∧ (¬∃ e, e ∈ hosted.sec.sessions ∧ e.number = (5 : Word) ∧
    e.authorised = false) ∧ BitVec.toNat (10 : Word) < 3829) ∧ (hosted.takes hc 1795 ∧ 31 < 32 ∧ 0 < 480 ∧ 480 ≤ 480 ∧
    hosted.outputStatus hc (BitVec.toNat ((2 : Reg64) ^ 60)) 64 64 ≠ (0 : BitVec 16)) ∧ (four.takes hc 1795 ∧ 31 < 32
    ∧ 0 < 480 ∧ 480 ≤ 480 ∧ four.outputStatus hc (BitVec.toNat (4096 : Reg64)) 64 64 = (0 : BitVec 16) ∧ 4 ≤
    four.sec.sessions.length ∧ (∃ e, e ∈ four.sec.sessions ∧ e.number = (4 : Word))) ∧ (authorised.takes h5 1796 ∧
    authorised.sessionOf h5 = some session5 ∧ (3373 : Word) = (3373 : Word) ∧ authorised.takeInput h5 (BitVec.toNat
    (4096 : Reg64)) (BitVec.toNat (3373 : Word)) = Sum.inr (List.replicate 3373 (0 : Byte)) ∧ authorised.takes h5 1797
    ∧ authorised.takes h5 1800 ∧ (authorised.part h5.part.toNat).secrets = none ∧ (authorised.recordKind (9 : BitVec
    8) (bytesOf 4 (BitVec.toNat h5.session))).debugCores h5.part.toNat (0 : BitVec 16) (0 : BitVec 16) = none) ∧
    (authorised.takes h5 1796 ∧ authorised.sessionOf h5 = some session5 ∧ (3373 : Word) = (3373 : Word) ∧
    authorised.takeInput h5 (BitVec.toNat ((2 : Reg64) ^ 60)) (BitVec.toNat (3373 : Word)) = Sum.inl ((7 : BitVec 16),
    [])) ∧ (authorised.takes h5 1796 ∧ authorised.sessionOf h5 = some session5 ∧ (8 : Word) ≠ (3373 : Word)) ∧ (∃ e, e
    ∈ opening.sec.sessions ∧ e.number = (5 : Word) ∧ e.authorised = false) ∧ ((wideI2 (partIs PartState.idle
    runs)).takes hc 1798 ∧ 4905 ≤ BitVec.toNat (4905 : Word) ∧ (wideI2 (partIs PartState.idle runs)).outputStatus hc
    (BitVec.toNat (4096 : Reg64)) 4905 (BitVec.toNat (4905 : Word)) = (0 : BitVec 16) ∧ (wideI2 (partIs PartState.idle
    runs)).takes hc 1799 ∧ (4905 : Word) ≠ (1352 : Word) ∧ BitVec.toNat (10 : Word) < 4905) ∧ ((partIs PartState.idle
    runs).takes hc 1798 ∧ 4905 ≤ BitVec.toNat (4905 : Word) ∧ (partIs PartState.idle runs).outputStatus hc
    (BitVec.toNat ((2 : Reg64) ^ 60)) 4905 (BitVec.toNat (4905 : Word)) ≠ (0 : BitVec 16)) ∧ (offered.takes hc 1799 ∧
    (1352 : Word) = (1352 : Word) ∧ offered.takeInput hc (BitVec.toNat (4096 : Reg64)) (BitVec.toNat (1352 : Word)) =
    Sum.inr (List.replicate 1352 (0 : Byte))) ∧ (offered.takes hc 1799 ∧ (1352 : Word) = (1352 : Word) ∧
    offered.takeInput hc (BitVec.toNat ((2 : Reg64) ^ 60)) (BitVec.toNat (1352 : Word)) = Sum.inl ((7 : BitVec 16),
    [])) ∧ ((debugged runs).takes h5 1800 ∧ ((debugged runs).part h5.part.toNat).secrets = none ∧ ((debugged
    runs).recordKind (9 : BitVec 8) (bytesOf 4 (BitVec.toNat h5.session))).debugCores h5.part.toNat (0 : BitVec 16) (0
    : BitVec 16) = some [c0] ∧ debugField (1024) (BitVec.toNat (64 : Word)) = none ∧ ((debugged runs).recordKind (9 :
    BitVec 8) (bytesOf 4 (BitVec.toNat h5.session))).outputStatus h5 (BitVec.toNat (4096 : Reg64)) ([c0].length *
    BitVec.toNat (64 : Word)) (BitVec.toNat (64 : Word)) = (0 : BitVec 16) ∧ (((debugged runs).recordKind (9 : BitVec
    8) (bytesOf 4 (BitVec.toNat h5.session))).debugGather [c0] (1024) (BitVec.toNat (64 : Word))).snd = some
    (List.replicate 64 (0 : Byte)) ∧ [c0] = [c0] ∧ (((debugged runs).core c0).noUncorrectable (1024) (BitVec.toNat (64
    : Word)) ∧ ((debugged runs).core c0).inject = none ∧ (∀ (e : Nat × Bank), e ∈ ((debugged runs).core c0).banks →
    e.snd.ingress = none) ∧ ((debugged runs).core c0).rangeOn (1024) (BitVec.toNat (64 : Word)) = true) ∧ ((debugged
    runs).recordKind (9 : BitVec 8) (bytesOf 4 (BitVec.toNat h5.session))).takeInput h5 (BitVec.toNat (4096 : Reg64))
    (BitVec.toNat (64 : Word)) = Sum.inr (List.replicate 64 (0 : Byte)) ∧ (List.replicate 64 (0 : Byte)).length =
    BitVec.toNat (64 : Word) ∧ debugField (524272) (BitVec.toNat (64 : Word)) = some 21) ∧ ((debugged runs).takes h5
    1800 ∧ ((debugged runs).part h5.part.toNat).secrets = none ∧ ((debugged runs).recordKind (9 : BitVec 8) (bytesOf 4
    (BitVec.toNat h5.session))).debugCores h5.part.toNat (0 : BitVec 16) (0 : BitVec 16) = some [c0] ∧ debugField
    (1024) (BitVec.toNat (64 : Word)) = none ∧ ((debugged runs).recordKind (9 : BitVec 8) (bytesOf 4 (BitVec.toNat
    h5.session))).outputStatus h5 (BitVec.toNat ((2 : Reg64) ^ 60)) ([c0].length * BitVec.toNat (64 : Word))
    (BitVec.toNat (64 : Word)) ≠ (0 : BitVec 16) ∧ ((debugged runs).recordKind (9 : BitVec 8) (bytesOf 4 (BitVec.toNat
    h5.session))).takeInput h5 (BitVec.toNat ((2 : Reg64) ^ 60)) (BitVec.toNat (64 : Word)) = Sum.inl ((7 : BitVec
    16), [])) ∧ ((debugged hurt).takes h5 1800 ∧ ((debugged hurt).part h5.part.toNat).secrets = none ∧ ((debugged
    hurt).recordKind (9 : BitVec 8) (bytesOf 4 (BitVec.toNat h5.session))).debugCores h5.part.toNat (0 : BitVec 16) (0
    : BitVec 16) = some [c0] ∧ debugField (1024) (BitVec.toNat (64 : Word)) = none ∧ ((debugged hurt).recordKind (9 :
    BitVec 8) (bytesOf 4 (BitVec.toNat h5.session))).outputStatus h5 (BitVec.toNat (4096 : Reg64)) ([c0].length *
    BitVec.toNat (64 : Word)) (BitVec.toNat (64 : Word)) = (0 : BitVec 16) ∧ (((debugged hurt).recordKind (9 : BitVec
    8) (bytesOf 4 (BitVec.toNat h5.session))).debugGather [c0] (1024) (BitVec.toNat (64 : Word))).snd = none) ∧
    ((sealed2.part h5.part.toNat).secrets.isSome = true ∧ sealed2.hears h5.origin = true ∧ sealed2.sessionOk h5.origin
    h5.session 2 = true) := by
  try unfold State.takes
  try unfold State.admits
  try unfold Core.noUncorrectable
  decide +kernel

/-- Meets the hypotheses of Obligations.StepRunsTheFrontCommand. -/
theorem witness_steps :
    queued.pending = [Instr.panelRstN] ∧ (askedJ.pending = [] ∧ askedJ.fetched = [(stepsH1, bytesOf 2 516 ++
    List.replicate 62 (0 : Byte))] ∧ commandOf stepsH1 (bytesOf 2 516 ++ List.replicate 62 (0 : Byte)) askedJ.free =
    some stepsI2) ∧ (stray.pending = [] ∧ stray.fetched = [(stepsH1, bytesOf 2 4095 ++ List.replicate 62 (0 : Byte))]
    ∧ commandOf stepsH1 (bytesOf 2 4095 ++ List.replicate 62 (0 : Byte)) stray.free = none) ∧ (hosted.pending = [] ∧
    hosted.fetched = [] ∧ hosted.resets = []) := by
  decide +kernel

/-- Meets the hypotheses of Obligations.RegisterInstructionFrame. -/
theorem witness_frame :
    (∃ f : FmtI, (7 : BitVec 5) = f.rd ∧ Instr.addi c0 f ∈ [Instr.addi c0 f, .andi c0 f, .ori c0 f, .xori c0 f, .slti c0 f,
      .sltiu c0 f, .shi c0 f, .lui c0 f, .jalr c0 f]) ∧
    ran (exec (.addi c0 ⟨7, 1, 1⟩) (coreIs runs)) (fun _ => true) = true ∧
    ran (exec (.jal c0 ⟨31, 1⟩) (coreIs runs)) (fun _ => true) = true ∧
    ran (exec (.beqz c0 ⟨0, 1⟩) (coreIs runs)) (fun _ => true) = true ∧
    ran (exec (.opa c0 ⟨5, 1, 2, 0⟩) (coreIs runs)) (fun _ => true) = true :=
  ⟨⟨⟨7, 1, 1⟩, rfl, .head _⟩, by decide +kernel⟩

/-- Meets the hypotheses of Obligations.EveryStepKeepsQueueAndMemory. -/
theorem witness_keeps :
    ({ coreIs runs with pending := [.sw c0 ⟨2, 1, 0⟩, .seqFlush] } : State).memWf = true ∧
    ran (step { coreIs runs with pending := [.sw c0 ⟨2, 1, 0⟩, .seqFlush] }) (fun t => decide (t.pending = [.seqFlush])) = true ∧
    ran (exec (.sw c0 ⟨2, 1, 0⟩) (coreIs runs)) (fun _ => true) = true := by decide +kernel

end Sys2Proof.Tests
end

section
/-!
SUPPORT. NOTICE and the CSR instructions: what each comes to on a core that is ready, and the registers that it reads.
-/

namespace Sys2Proof.Machine

/-! ### Bits of a word -/

theorem bits_toNat {w : Nat} (x : BitVec w) (lo n : Nat) : bits x.toNat lo n = (x.extractLsb' lo n).toNat := by
  simp [bits, Nat.shiftRight_eq_div_pow]

theorem bit_toNat {w : Nat} (x : BitVec w) (i : Nat) : bit x.toNat i = x.getLsbD i := by
  rw [bit, BitVec.getLsbD, Nat.testBit_eq_decide_div_mod_eq]
  exact Bool.beq_eq_decide_eq ..

/-! ### NOTICE (R64) -/

/-- The immediate of NOTICE: lead, units and level from the top (R64). -/
def noticeImm (lead : BitVec 8) (units level : BitVec 4) : BitVec 16 := lead ++ units ++ level

theorem noticeImm_lead (lead : BitVec 8) (units level : BitVec 4) :
    (noticeImm lead units level).extractLsb' 8 8 = lead := by
  unfold noticeImm
  rw [BitVec.extractLsb'_append_eq_of_le (by decide), BitVec.extractLsb'_append_eq_of_le (by decide)]
  exact BitVec.extractLsb'_eq_self

theorem noticeImm_units (lead : BitVec 8) (units level : BitVec 4) :
    (noticeImm lead units level).extractLsb' 4 4 = units := by
  unfold noticeImm
  rw [BitVec.extractLsb'_append_eq_of_le (by decide), BitVec.extractLsb'_append_eq_of_add_le (by decide)]
  exact BitVec.extractLsb'_eq_self

theorem noticeImm_level (lead : BitVec 8) (units level : BitVec 4) :
    (noticeImm lead units level).setWidth 4 = level :=
  BitVec.setWidth_append_eq_right

section
variable {s : State} {c : CoreRef} (hr : s.ready c)
include hr

theorem exec_notice_done {lead : BitVec 8} (units level : BitVec 4) (hl : lead ≠ 0) :
    exec (.notice c ⟨0, 0, noticeImm lead units level⟩) s =
      .next (s.after c { s.core c with notice := some ⟨lead, units, level⟩ } ((s.core c).pc + 4)) := by
  rw [exec_notice]
  refine issue_done hr ?_
  have announced : lead.toNat ≠ 0 := fun e => hl (BitVec.eq_of_toNat_eq e)
  simp [bits_toNat, noticeImm_lead, noticeImm_units, noticeImm_level, announced, nextPc]

theorem exec_notice_illegal {f : FmtI} (hf : f.rd ≠ 0 ∨ f.rs1 ≠ 0 ∨ f.imm.extractLsb' 8 8 = 0) :
    exec (.notice c f) s = .next (s.trap c causeIllegal (wordI 0x36 f)) := by
  rw [exec_notice]
  refine issue_trap hr (if_pos ?_)
  rw [bits_toNat]
  exact hf.imp_right (Or.imp_right fun e => by rw [e]; rfl)

end

/-! ### The CSR instructions (R65) -/

/-- An instruction is the CSR instruction of an operation, with the fields of `f`. -/
def isCsrInstr (c : CoreRef) (f : FmtI) (op : CsrOp) (i : Instr) : Prop :=
  (op, i) ∈ [(CsrOp.read, Instr.csrr c f), (.write, .csrw c f), (.set, .csrs c f), (.clear, .csrc c f)]

theorem isCsrInstr_read (c : CoreRef) (f : FmtI) : isCsrInstr c f .read (.csrr c f) := by simp [isCsrInstr]
theorem isCsrInstr_write (c : CoreRef) (f : FmtI) : isCsrInstr c f .write (.csrw c f) := by simp [isCsrInstr]
theorem isCsrInstr_set (c : CoreRef) (f : FmtI) : isCsrInstr c f .set (.csrs c f) := by simp [isCsrInstr]
theorem isCsrInstr_clear (c : CoreRef) (f : FmtI) : isCsrInstr c f .clear (.csrc c f) := by simp [isCsrInstr]

theorem exec_csrInstr {c : CoreRef} {f : FmtI} {op : CsrOp} {i : Instr} (s : State) (h : isCsrInstr c f op i) :
    ∃ opcode, exec i s = issue c s (csrIssue c op opcode f) := by
  simp only [isCsrInstr, List.mem_cons, Prod.mk.injEq, List.not_mem_nil, or_false] at h
  rcases h with ⟨rfl, rfl⟩ | ⟨rfl, rfl⟩ | ⟨rfl, rfl⟩ | ⟨rfl, rfl⟩
  · exact ⟨_, exec_csrr c f s⟩
  · exact ⟨_, exec_csrw c f s⟩
  · exact ⟨_, exec_csrs c f s⟩
  · exact ⟨_, exec_csrc c f s⟩

/-- What every CSR instruction does with a register that it may name, CORE_CYCLE apart: the old value goes into g[rd]. -/
theorem exec_csrInstr_done {s : State} {c : CoreRef} {rd rs : BitVec 5} {imm : BitVec 16} {op : CsrOp} {i : Instr}
    {n : Nat} {old : Word} {k : Core} (hr : s.ready c) (hi : isCsrInstr c ⟨rd, rs, imm⟩ op i)
    (hn : imm.toNat % 2 ^ 11 = n) (legal : csrIllegal op ⟨rd, rs, imm⟩ = false)
    (may : csrRuntimeOnly n = true → (s.core c).mode = .runtime) (h4 : n ≠ 4)
    (hold : s.csr c (s.core c).issued (s.core c).cycle n = some old)
    (hw : (s.core c).csrWrite op n old ((s.core c).getG rs) = k) :
    exec i s = .next (s.after c (k.setG rd old) ((s.core c).pc + 4)) := by
  subst hw
  obtain ⟨opcode, e⟩ := exec_csrInstr s hi
  rw [e]
  refine issue_done hr ?_
  have index : bits imm.toNat 0 11 = n := by simpa [bits] using hn
  have allowed : ¬ (csrRuntimeOnly n = true ∧ (s.core c).mode ≠ .runtime) := fun ⟨only, no⟩ => no (may only)
  simp only [csrIssue, index, legal, Bool.false_eq_true, if_false, if_neg allowed, if_neg h4, hold]
  rfl

/-! ### The registers (R67, R68, R70) -/

/-- Every index of the map names a register. -/
theorem State.csr_of_indexOk (s : State) (c : CoreRef) (k : Core) (cycle : BitVec 64) {i : Nat} (h : csrIndexOk i = true) :
    ∃ old, s.csr c k cycle i = some old := by
  simp only [csrIndexOk, Bool.or_eq_true, Bool.and_eq_true, decide_eq_true_eq, beq_iff_eq] at h
  rw [← Option.isSome_iff_exists]
  simp only [State.csr, apply_ite Option.isSome, Option.isSome_some, Option.isSome_none, Bool.if_true_left,
    Bool.or_eq_true, decide_eq_true_eq]
  omega

theorem csrIndexOk_of_legal {op : CsrOp} {f : FmtI} (h : csrIllegal op f = false) :
    csrIndexOk (f.imm.toNat % 2 ^ 11) = true := by
  simp only [csrIllegal, Bool.or_eq_false_iff, Bool.not_eq_false'] at h
  obtain ⟨⟨⟨⟨_, index⟩, _⟩, _⟩, _⟩ := h
  simpa [bits] using index

theorem coreId_eq (c : CoreRef) : coreId c = c.x.setWidth 32 ||| c.y.setWidth 32 <<< 16 := by
  have hx := c.x.isLt
  have hy := c.y.isLt
  refine BitVec.eq_of_toNat_eq ?_
  have split : c.x.toNat + c.y.toNat * 2 ^ 16 = c.x.toNat ||| c.y.toNat * 2 ^ 16 := by
    rw [Nat.add_comm, Nat.or_comm, Nat.mul_comm, Nat.two_pow_add_eq_or_of_lt (by omega)]
  simp only [coreId, BitVec.toNat_ofNat, BitVec.toNat_or, BitVec.toNat_shiftLeft, BitVec.toNat_setWidth,
    Nat.shiftLeft_eq]
  rw [Nat.mod_eq_of_lt (by omega), Nat.mod_eq_of_lt (a := c.x.toNat) (by omega),
    Nat.mod_eq_of_lt (a := c.y.toNat) (by omega), Nat.mod_eq_of_lt (by omega), split]

theorem State.csr_coreId (s : State) (c : CoreRef) (k : Core) (cycle : BitVec 64) :
    s.csr c k cycle 0 = some (c.x.setWidth 32 ||| c.y.setWidth 32 <<< 16) := by
  rw [← coreId_eq]; rfl

/-- CORE_FPMODE: SUBN and SAT (R70). -/
def Core.fpmode (k : Core) : Word := 0#30 ++ BitVec.ofBool k.sat ++ BitVec.ofBool k.subn

theorem State.csr_fpmode (s : State) (c : CoreRef) (k : Core) (cycle : BitVec 64) :
    s.csr c k.issued cycle 8 = some k.fpmode := by
  show some (BitVec.ofNat 32 (packFields [(0, b2n k.issued.subn), (1, b2n k.issued.sat)])) = _
  rw [Core.issued_subn, Core.issued_sat]
  unfold Core.fpmode
  cases k.subn <;> cases k.sat <;> rfl

theorem State.csr_fpflags (s : State) (c : CoreRef) (k : Core) (cycle : BitVec 64) :
    s.csr c k.issued cycle 9 = some (k.fpflags.setWidth 32) := by
  show some (k.issued.fpflags.setWidth 32) = _
  rw [Core.issued_fpflags]

theorem Core.fpmode_subn (k : Core) : k.fpmode.getLsbD 0 = k.subn := by
  rw [Core.fpmode, BitVec.getLsbD_append]
  simp

theorem Core.fpmode_sat (k : Core) : k.fpmode.getLsbD 1 = k.sat := by
  rw [Core.fpmode, BitVec.getLsbD_append, BitVec.getLsbD_append]
  simp

/-! ### What each operation writes (R5, R65) -/

theorem Core.csrWrite_coreId (k : Core) (op : CsrOp) (old v : Word) : k.csrWrite op 0 old v = k := by
  cases op <;> rfl

theorem Core.csrWrite_read (k : Core) (n : Nat) (old v : Word) : k.csrWrite .read n old v = k := rfl

theorem Core.csrWrite_fpmode_write (k : Core) (old v : Word) : k.csrWrite .write 8 old v =
    { k with subn := v.getLsbD 0, sat := v.getLsbD 1 } := rfl

theorem Core.csrWrite_fpmode_set (k : Core) (v : Word) : k.csrWrite .set 8 k.fpmode v =
    { k with subn := k.subn || v.getLsbD 0, sat := k.sat || v.getLsbD 1 } := by
  simp [Core.csrWrite, BitVec.getLsbD_or, Core.fpmode_subn, Core.fpmode_sat, -BitVec.getLsbD_eq_getElem]

theorem Core.csrWrite_fpmode_clear (k : Core) (v : Word) : k.csrWrite .clear 8 k.fpmode v =
    { k with subn := k.subn && !v.getLsbD 0, sat := k.sat && !v.getLsbD 1 } := by
  simp [Core.csrWrite, BitVec.getLsbD_and, BitVec.getLsbD_not, Core.fpmode_subn, Core.fpmode_sat,
    -BitVec.getLsbD_eq_getElem]

/-- CORE_FPFLAGS clears the flags that are written as one. -/
theorem Core.csrWrite_fpflags_write (k : Core) (old v : Word) : k.csrWrite .write 9 old v =
    { k with fpflags := k.fpflags &&& ~~~(v.setWidth 6) } := rfl

/-- Of CORE_ID and CORE_FPMODE every form is legal but a CSRR with a source register (R65). -/
theorem csrIllegal_eq_false {op : CsrOp} {rd rs : BitVec 5} {n : BitVec 11} (hn : n = 0 ∨ n = 8)
    (hs : op = .read → rs = 0) : csrIllegal op ⟨rd, rs, n.setWidth 16⟩ = false := by
  rcases hn with rfl | rfl <;> cases op <;> simp [csrIllegal, csrIndexOk, bits, hs]

section
variable {s : State} {c : CoreRef} {rd rs : BitVec 5} {op : CsrOp} {i : Instr} (hr : s.ready c)
include hr

theorem exec_csrInstr_coreId (hi : isCsrInstr c ⟨rd, rs, (0x000 : BitVec 11).setWidth 16⟩ op i)
    (hs : op = .read → rs = 0) :
    exec i s = .next (s.after c ((s.core c).setG rd (c.x.setWidth 32 ||| c.y.setWidth 32 <<< 16))
      ((s.core c).pc + 4)) :=
  exec_csrInstr_done hr hi rfl (csrIllegal_eq_false (.inl rfl) hs) nofun (by decide) (s.csr_coreId ..)
    (Core.csrWrite_coreId ..)

theorem exec_csrInstr_fpmode {k : Core} (hi : isCsrInstr c ⟨rd, rs, (0x008 : BitVec 11).setWidth 16⟩ op i)
    (hs : op = .read → rs = 0)
    (hw : (s.core c).csrWrite op 8 (s.core c).fpmode ((s.core c).getG rs) = k) :
    exec i s = .next (s.after c (k.setG rd (s.core c).fpmode) ((s.core c).pc + 4)) :=
  exec_csrInstr_done hr hi rfl (csrIllegal_eq_false (.inr rfl) hs) nofun (by decide) (s.csr_fpmode ..) hw

theorem exec_csrw_fpflags (rd rs : BitVec 5) :
    exec (.csrw c ⟨rd, rs, (0x009 : BitVec 11).setWidth 16⟩) s = .next (s.after c
      ({ s.core c with fpflags := (s.core c).fpflags &&& ~~~(((s.core c).getG rs).setWidth 6) }.setG rd
        ((s.core c).fpflags.setWidth 32)) ((s.core c).pc + 4)) := by
  have legal : csrIllegal .write ⟨rd, rs, (0x009 : BitVec 11).setWidth 16⟩ = false := by
    simp [csrIllegal, csrIndexOk, bits]
  exact exec_csrInstr_done hr (isCsrInstr_write ..) rfl legal nofun (by decide) (s.csr_fpflags ..)
    (Core.csrWrite_fpflags_write ..)

end

/-! ### CORE_CYCLE (R66) -/

@[simp] theorem State.elapse_mem (s : State) (c : CoreRef) : (s.elapse c).mem = s.mem := by
  unfold State.elapse
  split <;> rfl

theorem Core.issued_cycle (k : Core) : k.issued.cycle = k.cycle + 1 := by
  unfold Core.issued Core.touchLine; split <;> rfl

/-- The registers of a core that has issued are as the instruction left them. -/
theorem State.getG_core_after (s : State) (c : CoreRef) (k : Core) (pc : BitVec 19) (r : BitVec 5) :
    ((s.after c k pc).core c).getG r = k.getG r := by
  simp [Core.getG]

/-- The core once a sample of its cycle counter stands in the register pair from `rd` on. -/
def Core.withCycle (k : Core) (rd : BitVec 5) (sample : BitVec 64) : Core :=
  { k.setG rd (sample.extractLsb' 0 32) with cycle := sample }.setG (rd + 1) (sample.extractLsb' 32 32)

theorem Core.getG_withCycle (k : Core) (rd r : BitVec 5) (sample : BitVec 64) :
    (k.withCycle rd sample).getG r = if r = 0 then 0 else if r = rd + 1 then sample.extractLsb' 32 32
      else if r = rd then sample.extractLsb' 0 32 else k.getG r := by
  have same : ∀ k' : Core, ({ k' with cycle := sample } : Core).getG r = k'.getG r := fun _ => rfl
  unfold Core.withCycle
  rw [Core.getG_setG, same, Core.getG_setG]
  split <;> rfl

theorem csrIllegal_cycle_pair {rd : BitVec 5} (nonzero : rd ≠ 0) (even : rd.getLsbD 0 = false) :
    csrIllegal .read ⟨rd, 0, 0x004⟩ = false := by
  have notOdd : rd.toNat % 2 ≠ 1 := fun odd => by simp [BitVec.getLsbD, Nat.testBit_zero, odd] at even
  simpa [csrIllegal, notOdd, csrIndexOk, bits] using nonzero

theorem State.csr_cycle (s : State) (c : CoreRef) (k : Core) (cycle : BitVec 64) :
    s.csr c k cycle 4 = some (cycle.extractLsb' 0 32) := by
  rw [← BitVec.setWidth_eq_extractLsb' (by decide)]
  rfl

theorem exec_csrr_cycle {s : State} {c : CoreRef} {rd : BitVec 5} (hr : s.ready c) (nonzero : rd ≠ 0)
    (even : rd.getLsbD 0 = false) :
    exec (.csrr c ⟨rd, 0, 0x004⟩) s = .next ((s.elapse c).after c
      ((s.core c).withCycle rd ((s.elapse c).core c).cycle) ((s.core c).pc + 4)) := by
  rw [exec_csrr]
  refine issue_done hr ?_
  have index : bits (0x004 : BitVec 16).toNat 0 11 = 4 := rfl
  have high (x : BitVec 64) : BitVec.ofNat 32 (x.toNat / 2 ^ 32) = x.extractLsb' 32 32 :=
    BitVec.eq_of_toNat_eq (by simp [Nat.shiftRight_eq_div_pow])
  simp only [csrIssue, index, csrIllegal_cycle_pair nonzero even, csrRuntimeOnly, State.csr_cycle, high, if_true]
  rfl

/-- The sample that CSRR of CORE_CYCLE takes, read back from the register pair. -/
theorem exec_csrr_cycle_registers {s : State} {c : CoreRef} {rd : BitVec 5} (hr : s.ready c)
    (nonzero : rd ≠ 0) (even : rd.getLsbD 0 = false) : ∃ t sample, exec (.csrr c ⟨rd, 0, 0x004⟩) s = .next t ∧
      (t.core c).getG rd = sample.extractLsb' 0 32 ∧ (t.core c).getG (rd + 1) = sample.extractLsb' 32 32 ∧
      (t.core c).cycle = (sample : BitVec 64) + 1 ∧ (t.core c).pc = (s.core c).pc + 4 ∧
      (∀ r, r ≠ rd → r ≠ rd + 1 → (t.core c).getG r = (s.core c).getG r) ∧ t.mem = s.mem := by
  have nextNe : rd ≠ rd + 1 := by decide +revert
  have nextNonzero : rd + 1 ≠ 0 := by decide +revert
  refine ⟨_, ((s.elapse c).core c).cycle, exec_csrr_cycle hr nonzero even, ?_, ?_, ?_, ?_, fun r hlow hhigh => ?_, ?_⟩
  · rw [State.getG_core_after, Core.getG_withCycle, if_neg nonzero, if_neg nextNe, if_pos rfl]
  · rw [State.getG_core_after, Core.getG_withCycle, if_neg nextNonzero, if_pos rfl]
  · simp [Core.issued_cycle, Core.withCycle]
  · simp
  · rw [State.getG_core_after, Core.getG_withCycle, if_neg hhigh, if_neg hlow]
    split
    · next zero => rw [zero]; rfl
    · rfl
  · simp

end Sys2Proof.Machine
end

section
/-!
SUPPORT. The statement about NOTICE and the CSR instructions.
-/

open Sys2Proof Sys2Proof.Machine

/-- Settles O19: each clause is one lemma about its instruction, with the register that it names read and written. -/
theorem noticeAndCsrInstructions : Obligations.NoticeAndCsrInstructions := by
  unfold Obligations.NoticeAndCsrInstructions
  intro s c rd rs hr k v mode at_ done
  refine ⟨fun lead units level hl => ?_, fun units level => ?_, ?_, ?_, ?_, ?_, ?_, fun i hi => ?_, fun f hf => ?_,
    fun f op i hi legal may h4 => ?_, exec_csrr_cycle_registers hr⟩
  · exact exec_notice_done hr units level hl
  · exact exec_notice_illegal hr (.inr (.inr (noticeImm_lead 0 units level)))
  · exact exec_csrInstr_fpmode hr (isCsrInstr_read ..) (fun _ => rfl) (k.csrWrite_read ..)
  · exact exec_csrInstr_fpmode hr (isCsrInstr_write ..) nofun (k.csrWrite_fpmode_write ..)
  · exact exec_csrInstr_fpmode hr (isCsrInstr_set ..) nofun (k.csrWrite_fpmode_set ..)
  · exact exec_csrInstr_fpmode hr (isCsrInstr_clear ..) nofun (k.csrWrite_fpmode_clear ..)
  · exact exec_csrw_fpflags hr rd rs
  · simp only [List.mem_cons, List.not_mem_nil, or_false] at hi
    rcases hi with rfl | rfl | rfl | rfl
    · exact exec_csrInstr_coreId hr (isCsrInstr_write ..) nofun
    · exact exec_csrInstr_coreId hr (isCsrInstr_set ..) nofun
    · exact exec_csrInstr_coreId hr (isCsrInstr_clear ..) nofun
    · exact exec_csrInstr_coreId hr (isCsrInstr_read ..) fun _ => rfl
  · exact exec_notice_illegal hr (hf.imp_right .inl)
  · obtain ⟨old, hold⟩ := s.csr_of_indexOk c (s.core c).issued (s.core c).cycle (csrIndexOk_of_legal legal)
    exact ⟨old, hold, exec_csrInstr_done hr hi rfl legal may h4 hold rfl⟩
end

section
/-!
SUPPORT. What the host's register commands come to: a command that its gate lets through, and the places of the panel
window.
-/

namespace Sys2Proof.Machine

/-! ### A command that its gate lets through -/

/-- The panel once a command has passed its gate: the use of a session is recorded (R427). -/
def State.gated (s : State) (h : Cmd) (g : Gate) : State :=
  if g.right.isSome then s.recordKind 0x09 (bytesOf 4 h.session.toNat) else s

section
variable {s : State} {h : Cmd} {g : Gate} {body : State → State} {asks : State → Asks}

/-- A command that is let through goes on to what its own rules ask, with no field of its own form invalid. -/
theorem command_admitted (ha : s.admits h g) (hr : (asks (s.gated h g)).refused = none) :
    command h g s body asks = .next (match (asks (s.gated h g)).field with
      | some off => (s.gated h g).answer h stField (fieldDetail off)
      | none => body (s.gated h g)) := by
  obtain ⟨hears, passes, formed⟩ := ha
  unfold State.gated at *
  unfold command
  rw [if_neg (by simp [hears]), passes]
  dsimp only
  rw [hr]
  cases hf : (asks (if g.right.isSome then s.recordKind 0x09 (bytesOf 4 h.session.toNat) else s)).field <;>
    simp [badFieldOf, formed]

theorem command_done (ha : s.admits h g) (hr : (asks (s.gated h g)).refused = none)
    (hf : (asks (s.gated h g)).field = none) : command h g s body asks = .next (body (s.gated h g)) := by
  rw [command_admitted ha hr, hf]

theorem command_badField {off : Nat} (ha : s.admits h g) (hr : (asks (s.gated h g)).refused = none)
    (hf : (asks (s.gated h g)).field = some off) :
    command h g s body asks = .next ((s.gated h g).answer h stField (fieldDetail off)) := by
  rw [command_admitted ha hr, hf]

end

theorem firstBad_singleton (b : Bool) (off : Nat) : firstBad [(b, off)] = if b then some off else none := by
  cases b <;> rfl

/-- The only field of a register read that can be invalid is the one at 16. -/
theorem State.regField_cases (s : State) (a len : Nat) : s.regField a len = none ∨ s.regField a len = some 16 := by
  unfold State.regField
  rw [firstBad_singleton]
  split
  · exact .inr rfl
  · exact .inl rfl

/-- A register read or write uses a session where it goes to a physical-site window, and only there (R35). -/
theorem State.gated_regGate (s : State) (h : Cmd) {op : Nat} (hop : (gateOf op).right = none) (a : Nat) :
    s.gated h (regGate op a) = if physWindow a = true then s.recordKind 0x09 (bytesOf 4 h.session.toNat) else s := by
  unfold State.gated regGate
  cases physWindow a <;> simp [hop]

theorem regGate_of_not_physWindow {op a : Nat} (ha : physWindow a = false) : regGate op a = gateOf op := by
  simp [regGate, ha]

/-! ### The panel window (R33) -/

/-- The address of an offset of the panel window. -/
def panelAddr (off : Nat) : Nat := 0xE00000000000 + off

theorem decodeAddr_panelAddr {off : Nat} (h : off < 2 ^ 24) : decodeAddr (panelAddr off) = .reg 2 0 0 off 0 := by
  have space : bits (panelAddr off) 46 2 = 3 := by unfold bits panelAddr; omega
  have window : bits (panelAddr off) 44 2 = 2 := by unfold bits panelAddr; omega
  have zeros : bits (panelAddr off) 24 20 = 0 := by unfold bits panelAddr; omega
  have place : bits (panelAddr off) 0 24 = off := by unfold bits panelAddr; omega
  unfold decodeAddr
  rw [space, window, zeros, place]
  rfl

theorem State.regPlace_panelAddr (s : State) {off : Nat} (h : off < 2 ^ 24) : s.regPlace (panelAddr off) = .panel off := by
  simp only [State.regPlace, decodeAddr_panelAddr h]

theorem physWindow_panelAddr {off : Nat} (h : off < 2 ^ 24) : physWindow (panelAddr off) = false := by
  simp only [physWindow, decodeAddr_panelAddr h]

theorem State.writeReg_panelAddr (s : State) {off : Nat} (h : off < 2 ^ 24) (v : Nat) (w1c : Bool) :
    s.writeReg (panelAddr off) v w1c = s.writePanel off v := by
  unfold State.writeReg
  rw [s.regPlace_panelAddr h]

/-- `PNL_ID` stays once it is locked (R36). -/
theorem State.writePanel_id_locked (s : State) (v : Nat) (h : s.panel.idLock = true) : s.writePanel 0 v = s := by
  simp [State.writePanel, State.writeId, h]

theorem State.writePanel_limit (s : State) (value : Reg64) :
    s.writePanel 0x3000 value.toNat = s.onPanel fun p => { p with limit := value.setWidth 16 } := rfl

/-- `PNL_PWRSTAT` is read-only (R327). -/
theorem State.writePanel_pwrstat (s : State) (v : Nat) : s.writePanel 0x3008 v = s := rfl

/-! ### The register commands (R290, R382) -/

section
variable {s : State} {h : Cmd} {a host value : Reg64} {len : Word}

theorem execRegWrite_done (ha : s.admits h (regGate 0x0504 a.toNat))
    (hp : (s.gated h (regGate 0x0504 a.toNat)).regPlace a.toNat ≠ .bad) :
    execRegWrite h a value s =
      .next (((s.gated h (regGate 0x0504 a.toNat)).writeReg a.toNat value.toNat false).answer h stOk) :=
  command_done ha rfl (by simp [firstBad_singleton, hp])

theorem execRegWrite_badPlace (ha : s.admits h (regGate 0x0504 a.toNat))
    (hp : (s.gated h (regGate 0x0504 a.toNat)).regPlace a.toNat = .bad) :
    execRegWrite h a value s = .next ((s.gated h (regGate 0x0504 a.toNat)).answer h stField (fieldDetail 16)) :=
  command_badField ha rfl (by simp [firstBad_singleton, hp])

/-- A write over the register space to the panel window is a write of its register, and uses no session. -/
theorem execRegWrite_panelAddr {off : Nat} (ho : off < 2 ^ 24) (hat : a.toNat = panelAddr off) (ht : s.takes h 0x0504) :
    execRegWrite h a value s = .next ((s.writePanel off value.toNat).answer h stOk) := by
  have noSession : physWindow a.toNat = false := by rw [hat, physWindow_panelAddr ho]
  have admitted : s.admits h (regGate 0x0504 a.toNat) := by rw [regGate_of_not_physWindow noSession]; exact ht
  have same : s.gated h (regGate 0x0504 a.toNat) = s := by rw [s.gated_regGate h rfl, noSession]; rfl
  have there : s.regPlace a.toNat ≠ .bad := by rw [hat, s.regPlace_panelAddr ho]; exact fun e => by cases e
  rw [execRegWrite_done admitted (by rwa [same]), same, hat, s.writeReg_panelAddr ho]

/-- What a register read comes to once its gate `g` lets it through (REG_READ and REG_READ_PHYS differ only in it). -/
theorem readCommand_done {g : Gate} (ha : s.admits h g) (hf : (s.gated h g).regField a.toNat len.toNat = none) :
    command h g s (fun s => s.readRegs h a.toNat host.toNat len.toNat)
      (fun s => { field := s.regField a.toNat len.toNat }) =
    .next ((s.gated h g).readRegs h a.toNat host.toNat len.toNat) :=
  command_done ha rfl hf

theorem readCommand_badField {g : Gate} (ha : s.admits h g) (hf : (s.gated h g).regField a.toNat len.toNat ≠ none) :
    command h g s (fun s => s.readRegs h a.toNat host.toNat len.toNat)
      (fun s => { field := s.regField a.toNat len.toNat }) =
    .next ((s.gated h g).answer h stField (fieldDetail 16)) :=
  command_badField ha rfl (((s.gated h g).regField_cases a.toNat len.toNat).resolve_left hf)

end

/-! ### Register writes over the aperture and the register space (R35, R276) -/

theorem State.writeAperture_dmaWin_locked (s : State) (b : Bool) (value : Reg64) (h : (s.host b).dmaLock = true) :
    s.writeAperture b 0x08 value = s := by
  simp [State.writeAperture, h]

theorem State.writeAperture_dmaWin_open (s : State) (b : Bool) (value : Reg64) (h : (s.host b).dmaLock = false) :
    s.writeAperture b 0x08 value = s.setHost b { s.host b with
      dmaBase := value.setWidth 28, dmaSize := BitVec.ofNat 28 (value.toNat / 2 ^ 28), dmaLock := value.getLsbD 63 } := by
  have size : BitVec.ofNat 28 (bits value.toNat 28 28) = BitVec.ofNat 28 (value.toNat / 2 ^ 28) :=
    BitVec.eq_of_toNat_eq (by simp [bits])
  simp [State.writeAperture, h, size, bit_toNat]

theorem execRegisterWrite_panel_open {s : State} {x : BitVec 48} {n : Word} {o : Origin} (value : Reg64)
    (h : physWindow x.toNat = false ∨ s.sessionOk o n rightPhys = true) :
    execRegisterWrite (.panel x n o) value s = .next (s.writeReg x.toNat value.toNat true) := by
  unfold execRegisterWrite
  refine if_neg ?_
  rintro ⟨window, closed⟩
  rcases h with h | h
  · rw [h] at window; cases window
  · rw [h] at closed; cases closed

theorem execRegisterWrite_panel_refused {s : State} {x : BitVec 48} {n : Word} {o : Origin} (value : Reg64)
    (h : ¬ (physWindow x.toNat = false ∨ s.sessionOk o n rightPhys = true)) :
    execRegisterWrite (.panel x n o) value s = .next (s.recordKind 0x0A (bytesOf 4 n.toNat)) := by
  unfold execRegisterWrite
  refine if_pos ?_
  simpa [not_or] using h

end Sys2Proof.Machine
end

section
/-!
SUPPORT. The statement about the host's register commands.
-/

open Sys2Proof Sys2Proof.Machine

/-- Settles O49: each clause is one lemma about the command it names, with the gate of the address read as the use of a
session. -/
theorem registerCommands : Obligations.RegisterCommands := by
  unfold Obligations.RegisterCommands
  intro s h host a value len
  have write := s.gated_regGate h (op := 0x0504) rfl a.toNat
  have read := s.gated_regGate h (op := 0x0503) rfl a.toNat
  have phys : s.gated h (gateOf 0x0A07) = s.recordKind 0x09 (bytesOf 4 h.session.toNat) := rfl
  simp only [exec_regWrite, exec_regRead, exec_regReadPhys, exec_registerWrite]
  refine ⟨fun ha => ⟨fun hp => ?_, fun hp => ?_⟩, fun ht => ⟨?_, ?_, fun locked => ?_⟩,
    fun ha => ⟨fun hf => ?_, fun hf => ?_⟩,
    fun ht => ⟨fun hf => ?_, fun hf => ?_⟩,
    fun b => ⟨fun _ => rfl, rfl, rfl, rfl, s.writeAperture_dmaWin_locked b value, s.writeAperture_dmaWin_open b value⟩,
    fun _ _ _ => ⟨execRegisterWrite_panel_open value, execRegisterWrite_panel_refused value⟩⟩
  · rw [← write] at hp ⊢; exact execRegWrite_badPlace ha hp
  · rw [← write] at hp ⊢; exact execRegWrite_done ha hp
  · rw [execRegWrite_panelAddr (off := 0x3000) (by decide) rfl ht, s.writePanel_limit]
    rfl
  · rw [execRegWrite_panelAddr (off := 0x3008) (by decide) rfl ht, s.writePanel_pwrstat]
    rfl
  · rw [execRegWrite_panelAddr (off := 0) (by decide) rfl ht, s.writePanel_id_locked _ locked]
    rfl
  · rw [← read] at hf ⊢; exact readCommand_done ha hf
  · rw [← read] at hf ⊢; exact readCommand_badField ha hf
  · rw [← phys] at hf ⊢; exact readCommand_done ht hf
  · rw [← phys] at hf ⊢; exact readCommand_badField ht hf
end

section
/-!
SUPPORT. Every command and every step keeps the waiting commands and the canonical memories: what the operations keep
(Laws/Keeps.lean and the files after it) carried over `exec` and `step`.
-/

namespace Sys2Proof.Machine

/-- What an outcome keeps of a state, it keeps of one from which that state was reached. -/
theorem KeepsO.trans {s0 s : State} {o : Host.Outcome State Fault Refusal} (h : Keeps s0 s) (g : KeepsO s o) :
    KeepsO s0 o := fun t e => h.trans (g t e)

/-- No command of the table and no event touches the waiting commands, and each keeps the canonical form of both
memories: one case for each row of the table, closed by what its meaning keeps. -/
theorem exec_keeps (i : Instr) (s : State) : KeepsO s (exec i s) :=
  match i with
  | .addi c f => execAddi_keeps c f s (.refl s)
  | .andi c f => execAndi_keeps c f s (.refl s)
  | .ori c f => execOri_keeps c f s (.refl s)
  | .xori c f => execXori_keeps c f s (.refl s)
  | .slti c f => execSlti_keeps c f s (.refl s)
  | .sltiu c f => execSltiu_keeps c f s (.refl s)
  | .shi c f => execShi_keeps c f s (.refl s)
  | .lui c f => execLui_keeps c f s (.refl s)
  | .opa c f => execOpa_keeps c f s (.refl s)
  | .beqz c f => execBeqz_keeps c f s (.refl s)
  | .bnez c f => execBnez_keeps c f s (.refl s)
  | .bltz c f => execBltz_keeps c f s (.refl s)
  | .bgez c f => execBgez_keeps c f s (.refl s)
  | .blez c f => execBlez_keeps c f s (.refl s)
  | .bgtz c f => execBgtz_keeps c f s (.refl s)
  | .jal c f => execJal_keeps c f s (.refl s)
  | .jalr c f => execJalr_keeps c f s (.refl s)
  | .lw c f => execLw_keeps c f s (.refl s)
  | .lh c f => execLh_keeps c f s (.refl s)
  | .lhu c f => execLhu_keeps c f s (.refl s)
  | .lb c f => execLb_keeps c f s (.refl s)
  | .lbu c f => execLbu_keeps c f s (.refl s)
  | .sw c f => execSw_keeps c f s (.refl s)
  | .sh c f => execSh_keeps c f s (.refl s)
  | .sb c f => execSb_keeps c f s (.refl s)
  | .dld c f => execDld_keeps c f s (.refl s)
  | .dst c f => execDst_keeps c f s (.refl s)
  | .dmov c f => execDmov_keeps c f s (.refl s)
  | .vop c f => execVop_keeps c f s (.refl s)
  | .vld c f => execVld_keeps c f s (.refl s)
  | .vst c f => execVst_keeps c f s (.refl s)
  | .tload c f => execTload_keeps c f s (.refl s)
  | .tmma c f => execTmma_keeps c f s (.refl s)
  | .tstore c f => execTstore_keeps c f s (.refl s)
  | .tcvt c f => execTcvt_keeps c f s (.refl s)
  | .send c f => execSend_keeps c f s (.refl s)
  | .sendm c f => execSendm_keeps c f s (.refl s)
  | .read c f => execRead_keeps c f s (.refl s)
  | .aadd c f => execAadd_keeps c f s (.refl s)
  | .cpq c f => execCpq_keeps c f s (.refl s)
  | .ccopy c f => execCcopy_keeps c f s (.refl s)
  | .carm c f => execCarm_keeps c f s (.refl s)
  | .waitc c f => execWaitc_keeps c f s (.refl s)
  | .waitcComplete c => execWaitcComplete_keeps c s (.refl s)
  | .flag c f => execFlag_keeps c f s (.refl s)
  | .waitf c f => execWaitf_keeps c f s (.refl s)
  | .barrier c f => execBarrier_keeps c f s (.refl s)
  | .notice c f => execNotice_keeps c f s (.refl s)
  | .csrr c f => execCsrr_keeps c f s (.refl s)
  | .csrw c f => execCsrw_keeps c f s (.refl s)
  | .csrs c f => execCsrs_keeps c f s (.refl s)
  | .csrc c f => execCsrc_keeps c f s (.refl s)
  | .trap c f => execTrap_keeps c f s (.refl s)
  | .halt c f => execHalt_keeps c f s (.refl s)
  | .haltComplete c => execHaltComplete_keeps c s (.refl s)
  | .rte c f => execRte_keeps c f s (.refl s)
  | .ibufFill c => execIbufFill_keeps c s (.refl s)
  | .storeDrain c sameRowRead => execStoreDrain_keeps c sameRowRead s (.refl s)
  | .coreHwFault c source detail => execCoreHwFault_keeps c source detail s (.refl s)
  | .debugStopTaken c word => execDebugStopTaken_keeps c word s (.refl s)
  | .tensorStart c => execTensorStart_keeps c s (.refl s)
  | .tensorComplete c entry fail => execTensorComplete_keeps c entry fail s (.refl s)
  | .copyEngineMove c => execCopyEngineMove_keeps c s (.refl s)
  | .niInject c => execNiInject_keeps c s (.refl s)
  | .ingressDue c bank => execIngressDue_keeps c bank s (.refl s)
  | .deferredWrite c bank => execDeferredWrite_keeps c bank s (.refl s)
  | .correctionWriteback c bank => execCorrectionWriteback_keeps c bank s (.refl s)
  | .scrubRead c bank => execScrubRead_keeps c bank s (.refl s)
  | .scrubForce c bank => execScrubForce_keeps c bank s (.refl s)
  | .bankZeroiseDone c bank => execBankZeroiseDone_keeps c bank s (.refl s)
  | .routerFlitForward c out ev => execRouterFlitForward_keeps c out ev s (.refl s)
  | .vcEscape c inp vc => execVcEscape_keeps c inp vc s (.refl s)
  | .vc1Aged c inp => execVc1Aged_keeps c inp s (.refl s)
  | .edgeCrcFail d edge attempts => execEdgeCrcFail_keeps d edge attempts s (.refl s)
  | .write p grants badFlit => execWrite_keeps p grants badFlit s (.refl s)
  | .writeNotify p grants badFlit => execWriteNotify_keeps p grants badFlit s (.refl s)
  | .readReq p badFlit => execReadReq_keeps p badFlit s (.refl s)
  | .readReqServe c => execReadReqServe_keeps c s (.refl s)
  | .readResp p grants badFlit => execReadResp_keeps p grants badFlit s (.refl s)
  | .atomicAdd p grants badFlit => execAtomicAdd_keeps p grants badFlit s (.refl s)
  | .rowcast c p grants badFlit => execRowcast_keeps c p grants badFlit s (.refl s)
  | .colcast c p grants badFlit => execColcast_keeps c p grants badFlit s (.refl s)
  | .turnoutCopy c inp => execTurnoutCopy_keeps c inp s (.refl s)
  | .reduceContrib c ep => execReduceContrib_keeps c ep s (.refl s)
  | .completion p badFlit => execCompletion_keeps p badFlit s (.refl s)
  | .statusAnswer c status job => execStatusAnswer_keeps c status job s (.refl s)
  | .spwrite h offset data grants => execSpwrite_keeps h offset data grants s (.refl s)
  | .regwrite h offset value => execRegwrite_keeps h offset value s (.refl s)
  | .regread h offset => execRegread_keeps h offset s (.refl s)
  | .corectlStart h entry => execCorectlStart_keeps h entry s (.refl s)
  | .corectlStop h => execCorectlStop_keeps h s (.refl s)
  | .corectlRelease h => execCorectlRelease_keeps h s (.refl s)
  | .corectlClear h fpmode => execCorectlClear_keeps h fpmode s (.refl s)
  | .corectlBind h chan group => execCorectlBind_keeps h chan group s (.refl s)
  | .corectlDebug h resume => execCorectlDebug_keeps h resume s (.refl s)
  | .fence h => execFence_keeps h s (.refl s)
  | .record h r => execRecord_keeps h r s (.refl s)
  | .reply h status data => execReply_keeps h status data s (.refl s)
  | .ack a => execAck_keeps a s (.refl s)
  | .controlTimeout h => execControlTimeout_keeps h s (.refl s)
  | .flumeFlitDeliver c ep parityBad => execFlumeFlitDeliver_keeps c ep parityBad s (.refl s)
  | .collectorCombine c ep mismatch => execCollectorCombine_keeps c ep mismatch s (.refl s)
  | .linkCollectorCombine c ep mismatch => execLinkCollectorCombine_keeps c ep mismatch s (.refl s)
  | .syncArrival d group => execSyncArrival_keeps d group s (.refl s)
  | .hwdHubArrival d group ticks => execHwdHubArrival_keeps d group ticks s (.refl s)
  | .syncRelease c group => execSyncRelease_keeps c group s (.refl s)
  | .syncCulvertLoss d count => execSyncCulvertLoss_keeps d count s (.refl s)
  | .detHold d => execDetHold_keeps d s (.refl s)
  | .forecastExpire d => execForecastExpire_keeps d s (.refl s)
  | .msdPacket m src p => execMsdPacket_keeps m src p s (.refl s)
  | .copyDescriptor m src queue p => execCopyDescriptor_keeps m src queue p s (.refl s)
  | .copyPiece m => execCopyPiece_keeps m s (.refl s)
  | .hbmWriteDrain stack => execHbmWriteDrain_keeps stack s (.refl s)
  | .hbmScrub stack wrong => execHbmScrub_keeps stack wrong s (.refl s)
  | .culvertReplay d grp chan attempts => execCulvertReplay_keeps d grp chan attempts s (.refl s)
  | .culvertRelock d grp chan => execCulvertRelock_keeps d grp chan s (.refl s)
  | .culvertRelockDone d grp chan locked => execCulvertRelockDone_keeps d grp chan locked s (.refl s)
  | .linkFrame port f => execLinkFrame_keeps port f s (.refl s)
  | .laneFail port lane => execLaneFail_keeps port lane s (.refl s)
  | .laneRetrainDone port trained => execLaneRetrainDone_keeps port trained s (.refl s)
  | .linkKeyExchange port peerOk => execLinkKeyExchange_keeps port peerOk s (.refl s)
  | .linkRekey port => execLinkRekey_keeps port s (.refl s)
  | .arrive m via ticks => execArrive_keeps m via ticks s (.refl s)
  | .release m via => execRelease_keeps m via s (.refl s)
  | .abortToken m via => execAbortToken_keeps m via s (.refl s)
  | .digest m => execDigest_keeps m s (.refl s)
  | .heartbeat m => execHeartbeat_keeps m s (.refl s)
  | .ringResend => execRingResend_keeps s (.refl s)
  | .ringDown => execRingDown_keeps s (.refl s)
  | .panelIdSet h id lock => execPanelIdSet_keeps h id lock s (.refl s)
  | .routeWrite h addr len => execRouteWrite_keeps h addr len s (.refl s)
  | .groupBind h group epoch root tree addr len => execGroupBind_keeps h group epoch root tree addr len s (.refl s)
  | .groupUnbind h => execGroupUnbind_keeps h s (.refl s)
  | .ringJoin h => execRingJoin_keeps h s (.refl s)
  | .ringJoinTimeout h => execRingJoinTimeout_keeps h s (.refl s)
  | .ringLeave h => execRingLeave_keeps h s (.refl s)
  | .shadowBind h role peer peerPart mirrorPort digestGroup =>
    execShadowBind_keeps h role peer peerPart mirrorPort digestGroup s (.refl s)
  | .portRead h addr len => execPortRead_keeps h addr len s (.refl s)
  | .pairMiscompare pair => execPairMiscompare_keeps pair s (.refl s)
  | .hostLinkDegrade host both => execHostLinkDegrade_keeps host both s (.refl s)
  | .adminQueueCreate host value => execAdminQueueCreate_keeps host value s (.refl s)
  | .adminQueueDelete host value => execAdminQueueDelete_keeps host value s (.refl s)
  | .sqDoorbell host queue value => execSqDoorbell_keeps host queue value s (.refl s)
  | .rqDoorbell host queue value => execRqDoorbell_keeps host queue value s (.refl s)
  | .commandFetch host queue => execCommandFetch_keeps host queue s (.refl s)
  | .panelInfo h addr len => execPanelInfo_keeps h addr len s (.refl s)
  | .queueCreate h pair sqLog2 rqLog2 sqBase rqBase =>
    execQueueCreate_keeps h pair sqLog2 rqLog2 sqBase rqBase s (.refl s)
  | .queueDelete h pair => execQueueDelete_keeps h pair s (.refl s)
  | .partCreate h row col rows cols => execPartCreate_keeps h row col rows cols s (.refl s)
  | .partDestroy h => execPartDestroy_keeps h s (.refl s)
  | .partReset h => execPartReset_keeps h s (.refl s)
  | .partQuery h => execPartQuery_keeps h s (.refl s)
  | .jobLoad h addr len hold => execJobLoad_keeps h addr len hold s (.refl s)
  | .jobStart h limit => execJobStart_keeps h limit s (.refl s)
  | .jobAbort h reason => execJobAbort_keeps h reason s (.refl s)
  | .jobWait h => execJobWait_keeps h s (.refl s)
  | .ckptWait h => execCkptWait_keeps h s (.refl s)
  | .ckptRelease h => execCkptRelease_keeps h s (.refl s)
  | .jobEnd h => execJobEnd_keeps h s (.refl s)
  | .logWait h => execLogWait_keeps h s (.refl s)
  | .jobComplete part => execJobComplete_keeps part s (.refl s)
  | .checkpointEntry part => execCheckpointEntry_keeps part s (.refl s)
  | .ckptLimitExpire part => execCkptLimitExpire_keeps part s (.refl s)
  | .flumeList h addr len => execFlumeList_keeps h addr len s (.refl s)
  | .flumeStats h index => execFlumeStats_keeps h index s (.refl s)
  | .memRead h hbm host len => execMemRead_keeps h hbm host len s (.refl s)
  | .memWrite h hbm host len => execMemWrite_keeps h hbm host len s (.refl s)
  | .regRead h panel host len => execRegRead_keeps h panel host len s (.refl s)
  | .regWrite h panel value => execRegWrite_keeps h panel value s (.refl s)
  | .registerWrite t value => execRegisterWrite_keeps t value s (.refl s)
  | .mctpMessage m => execMctpMessage_keeps m s (.refl s)
  | .powerRead h addr len => execPowerRead_keeps h addr len s (.refl s)
  | .powerLimit h limit => execPowerLimit_keeps h limit s (.refl s)
  | .powerMode h target => execPowerMode_keeps h target s (.refl s)
  | .thermalRead h addr len => execThermalRead_keeps h addr len s (.refl s)
  | .lifeRead h addr len => execLifeRead_keeps h addr len s (.refl s)
  | .railFault millivolts => execRailFault_keeps millivolts s (.refl s)
  | .railOutOfTolerance => execRailOutOfTolerance_keeps s (.refl s)
  | .railToleranceRestored => execRailToleranceRestored_keeps s (.refl s)
  | .standbyLow => execStandbyLow_keeps s (.refl s)
  | .regulatorNoticeStep d region phase => execRegulatorNoticeStep_keeps d region phase s (.refl s)
  | .unannouncedStep d region inMs => execUnannouncedStep_keeps d region inMs s (.refl s)
  | .regionWave => execRegionWave_keeps s (.refl s)
  | .regionAdmit d region avgPower admitted => execRegionAdmit_keeps d region avgPower admitted s (.refl s)
  | .neighbourWaitExpire d region => execNeighbourWaitExpire_keeps d region s (.refl s)
  | .admissionTimeout part => execAdmissionTimeout_keeps part s (.refl s)
  | .budgetCapTick avgPower => execBudgetCapTick_keeps avgPower s (.refl s)
  | .voltageAdaptTick d region fullDuty stretched allGreen =>
    execVoltageAdaptTick_keeps d region fullDuty stretched allGreen s (.refl s)
  | .phaseLoss d region phase draw => execPhaseLoss_keeps d region phase draw s (.refl s)
  | .logicRailFail d => execLogicRailFail_keeps d s (.refl s)
  | .pllLockLoss d => execPllLockLoss_keeps d s (.refl s)
  | .refclkLoss => execRefclkLoss_keeps s (.refl s)
  | .crossingSlip d crossing => execCrossingSlip_keeps d crossing s (.refl s)
  | .sensorSample u readings => execSensorSample_keeps u readings s (.refl s)
  | .thermalCapTick d => execThermalCapTick_keeps d s (.refl s)
  | .runLimitExpire u spot => execRunLimitExpire_keeps u spot s (.refl s)
  | .coolantSample flow tin tout flowBefore toutBefore =>
    execCoolantSample_keeps flow tin tout flowBefore toutBefore s (.refl s)
  | .orderlyStopStandby => execOrderlyStopStandby_keeps s (.refl s)
  | .fastStop cause => execFastStop_keeps cause s (.refl s)
  | .thermalCycleSample u temp => execThermalCycleSample_keeps u temp s (.refl s)
  | .thermalCountFlush => execThermalCountFlush_keeps s (.refl s)
  | .powerOn b => execPowerOn_keeps b s (.refl s)
  | .panelRstN => execPanelRstN_keeps s (.refl s)
  | .panelRstNRelease b => execPanelRstNRelease_keeps b s (.refl s)
  | .panelResetWarm h b => execPanelResetWarm_keeps h b s (.refl s)
  | .panelResetCold h b => execPanelResetCold_keeps h b s (.refl s)
  | .dieResetDie h d digestsMatch => execDieResetDie_keeps h d digestsMatch s (.refl s)
  | .dieResetCore h d index => execDieResetCore_keeps h d index s (.refl s)
  | .edgeRetrainDue d edge => execEdgeRetrainDue_keeps d edge s (.refl s)
  | .edgeRetrain d edge badWires carries => execEdgeRetrain_keeps d edge badWires carries s (.refl s)
  | .fwUpdate h addr len => execFwUpdate_keeps h addr len s (.refl s)
  | .cfgWrite h addr len => execCfgWrite_keeps h addr len s (.refl s)
  | .cfgRead h addr len defaults => execCfgRead_keeps h addr len defaults s (.refl s)
  | .retire h d unit index => execRetire_keeps h d unit index s (.refl s)
  | .regReadPhys h panel host len => execRegReadPhys_keeps h panel host len s (.refl s)
  | .recoveryImage image b => execRecoveryImage_keeps image b s (.refl s)
  | .faultReport r => execFaultReport_keeps r s (.refl s)
  | .seqFlush => execSeqFlush_keeps s (.refl s)
  | .faultRead h addr len first uncleared => execFaultRead_keeps h addr len first uncleared s (.refl s)
  | .faultClear h seq => execFaultClear_keeps h seq s (.refl s)
  | .eventWait h mask => execEventWait_keeps h mask s (.refl s)
  | .recRead h addr len area => execRecRead_keeps h addr len area s (.refl s)
  | .recClear h => execRecClear_keeps h s (.refl s)
  | .inject h target count site unit port => execInject_keeps h target count site unit port s (.refl s)
  | .hangSample => execHangSample_keeps s (.refl s)
  | .unitRetire u => execUnitRetire_keeps u s (.refl s)
  | .postFaultTest c pass => execPostFaultTest_keeps c pass s (.refl s)
  | .spareEngage row failedWeirs => execSpareEngage_keeps row failedWeirs s (.refl s)
  | .recorderTrigger t => execRecorderTrigger_keeps t s (.refl s)
  | .identity h addr len => execIdentity_keeps h addr len s (.refl s)
  | .attest h addr len part nonce => execAttest_keeps h addr len part nonce s (.refl s)
  | .sessionOpen h addr rights minutes => execSessionOpen_keeps h addr rights minutes s (.refl s)
  | .sessionAuth h addr len => execSessionAuth_keeps h addr len s (.refl s)
  | .sessionAuthTimeout session => execSessionAuthTimeout_keeps session s (.refl s)
  | .sessionClose h => execSessionClose_keeps h s (.refl s)
  | .sessionExpire session => execSessionExpire_keeps session s (.refl s)
  | .sealOffer h addr len nonce => execSealOffer_keeps h addr len nonce s (.refl s)
  | .sealOfferLapse part => execSealOfferLapse_keeps part s (.refl s)
  | .sealAccept h addr len => execSealAccept_keeps h addr len s (.refl s)
  | .debugStop h x y => execDebugStop_keeps h x y s (.refl s)
  | .debugResume h x y => execDebugResume_keeps h x y s (.refl s)
  | .debugRead h x y offset host len => execDebugRead_keeps h x y offset host len s (.refl s)
  | .debugWrite h x y offset host len => execDebugWrite_keeps h x y offset host len s (.refl s)
  | .illegalInstruction c word => execIllegalInstruction_keeps c word s (.refl s)
  | .bankRequestAged c bank port => execBankRequestAged_keeps c bank port s (.refl s)
  | .stretchedCycle d domain margin => execStretchedCycle_keeps d domain margin s (.refl s)
  | .regionRampDone d region => execRegionRampDone_keeps d region s (.refl s)
  | .railTransferComplete d region => execRailTransferComplete_keeps d region s (.refl s)
  | .portTraining port peerPanel peerPort eight => execPortTraining_keeps port peerPanel peerPort eight s (.refl s)
  | .recordWindowExpire seq => execRecordWindowExpire_keeps seq s (.refl s)
  | .hbmTemperatureReadout stack temp => execHbmTemperatureReadout_keeps stack temp s (.refl s)
  | .redundantLaserSwitch feeds => execRedundantLaserSwitch_keeps feeds s (.refl s)
  | .stackRailFail d rail => execStackRailFail_keeps d rail s (.refl s)
  | .dieWideRailFail u => execDieWideRailFail_keeps u s (.refl s)
  | .hbmSupplyFail stack => execHbmSupplyFail_keeps stack s (.refl s)

/-- With no command waiting the panel goes on with what it has taken in, and that takes no waiting command either. -/
theorem stepFetched_keeps (s : State) : KeepsO s (stepFetched s) := by
  unfold stepFetched
  split
  case h_1 => exact .next (State.idle_keeps s (.refl s))
  case h_2 h b rest _ =>
    have taken : ∀ u : State, Keeps s u → Keeps s { u with fetched := rest } := fun _ k => .mk k rfl rfl rfl
    split
    · exact .trans (taken s.tick (State.tick_keeps s (.refl s))) (exec_keeps _ _)
    · exact .next (State.refuseRaw_keeps _ h b (taken s (.refl s)))

/-- A step takes the command at the front, and nothing else of the queue. -/
theorem step_keeps {s t : State} (h : step s = .next t) :
    t.pending = s.pending.tail ∧ (s.memWf = true → t.memWf = true) := by
  unfold step at h
  split at h
  case h_1 empty =>
    obtain ⟨queue, canonical⟩ := stepFetched_keeps s t h
    exact ⟨by rw [queue, empty, List.tail_nil], canonical⟩
  case h_2 i rest front =>
    obtain ⟨queue, canonical⟩ := exec_keeps i { s with pending := rest } t h
    exact ⟨by rw [queue, front, List.tail_cons], canonical⟩

end Sys2Proof.Machine
end

section
/-!
SUPPORT. The statements about the panel's organisation: what every step keeps, and the state after reset.
-/

open Sys2Proof Sys2Proof.Machine

/-- Settles O59: what each operation keeps, carried over the table of commands and the cases of a step. -/
theorem everyStepKeepsQueueAndMemory : Obligations.EveryStepKeepsQueueAndMemory :=
  ⟨fun i s t h => exec_keeps i s t h, fun _ _ h => step_keeps h⟩

/-- Settles O60: no table of the reset state lists an entry, so that every unit reads as its field's default. -/
theorem resetState : Obligations.ResetState :=
  ⟨rfl, rfl, fun _ => rfl, fun _ => rfl, fun _ => rfl, rfl, rfl, rfl, fun _ => rfl⟩
end

section
/-!
SUPPORT. What the inter-panel commands come to (R267): which parts of the panel a reply and a rekeying change, and the
outcome of each command that the panel takes.
-/

namespace Sys2Proof.Machine

/-! ### A command that uses no session -/

section
variable {s : State} {h : Cmd} {g : Gate} {body : State → State} {asks : State → Asks}

/-- A command whose own rules refuse it for another reason than a failed authorisation gets that status. -/
theorem command_refused {st : BitVec 16} {detail : List Byte} (ha : s.admits h g)
    (hr : (asks (s.gated h g)).refused = some (st, detail)) (hst : st ≠ stAuth) :
    command h g s body asks = .next ((s.gated h g).answer h st detail) := by
  obtain ⟨hears, passes, _⟩ := ha
  unfold State.gated at *
  unfold command
  rw [if_neg (by simp [hears]), passes]
  dsimp only
  rw [hr]
  simp [hst]

theorem State.gated_of_noRight (hg : g.right = none) : s.gated h g = s := by
  simp [State.gated, hg]

end

section
variable {s : State} {h : Cmd} {op : Nat} {body : State → State} {asks : State → Asks} (ht : s.takes h op)
  (hg : (gateOf op).right = none)
include ht hg

theorem takes_done (hr : (asks s).refused = none) (hf : (asks s).field = none) :
    command h (gateOf op) s body asks = .next (body s) := by
  have same := s.gated_of_noRight (h := h) hg
  rw [command_done ht (by rwa [same]) (by rwa [same]), same]

theorem takes_badField {off : Nat} (hr : (asks s).refused = none) (hf : (asks s).field = some off) :
    command h (gateOf op) s body asks = .next (s.badField h off) := by
  have same := s.gated_of_noRight (h := h) hg
  rw [command_badField ht (by rwa [same]) (by rwa [same]), same]
  rfl

theorem takes_refused {st : BitVec 16} (hr : (asks s).refused = some (st, [])) (hst : st ≠ stAuth) :
    command h (gateOf op) s body asks = .next (s.answer h st) := by
  have same := s.gated_of_noRight (h := h) hg
  rw [command_refused ht (by rwa [same]) hst, same]

end

/-! ### What a reply changes -/

theorem State.putReply_changes (s : State) (b : Bool) (q : BitVec 4) (r : Reply) : ∃ hosts hostMem,
    s.putReply b q r = { s with hosts := hosts, hostMem := hostMem } := by
  unfold State.putReply
  dsimp only
  split
  · exact ⟨s.hosts, s.hostMem, rfl⟩
  · split
    · exact ⟨_, s.hostMem, rfl⟩
    · unfold State.writeReply
      dsimp only
      split
      · exact ⟨_, _, rfl⟩
      · exact ⟨_, _, rfl⟩

/-- A reply changes host memory, the host dies' interfaces and the management port, and nothing else of the panel. -/
theorem State.answer_changes (s : State) (h : Cmd) (st : BitVec 16) (detail payload : List Byte) :
    ∃ hosts hostMem mgmtOut mgmtStarted, s.answer h st detail payload =
      { s with hosts := hosts, hostMem := hostMem, mgmtOut := mgmtOut, mgmtStarted := mgmtStarted } := by
  unfold State.answer
  split
  · exact ⟨s.hosts, s.hostMem, s.mgmtOut, s.mgmtStarted, rfl⟩
  · split
    · dsimp only
      obtain ⟨hosts, hostMem, e⟩ := State.putReply_changes _ _ _ _
      rw [e]
      split
      · exact ⟨_, _, s.mgmtOut, s.mgmtStarted, rfl⟩
      · exact ⟨_, _, s.mgmtOut, s.mgmtStarted, rfl⟩
    · exact ⟨s.hosts, s.hostMem, _, _, rfl⟩

@[simp] theorem State.answer_ring (s : State) (h : Cmd) (st : BitVec 16) (detail payload : List Byte) :
    (s.answer h st detail payload).ring = s.ring := by
  obtain ⟨_, _, _, _, e⟩ := s.answer_changes h st detail payload
  rw [e]

@[simp] theorem State.answer_mem (s : State) (h : Cmd) (st : BitVec 16) (detail payload : List Byte) :
    (s.answer h st detail payload).mem = s.mem := by
  obtain ⟨_, _, _, _, e⟩ := s.answer_changes h st detail payload
  rw [e]

/-! ### PANEL_ID_SET (R37) -/

theorem State.writeId_open {s : State} (hl : s.panel.idLock = false) (id : BitVec 16) (lock : Bool) :
    s.writeId id.toNat lock = s.onPanel fun p => { p with panelId := id, idLock := lock } := by
  simp [State.writeId, hl]

section
variable {s : State} {h : Cmd} {id : BitVec 16} {lock : Bool} (ht : s.takes h 0x0901)
include ht

theorem execPanelIdSet_locked (hl : s.panel.idLock = true) :
    execPanelIdSet h id lock s = .next (s.answer h stState) :=
  takes_refused ht rfl (by rw [hl]; rfl) (by decide)

theorem execPanelIdSet_unset (hl : s.panel.idLock = false) (hid : id = 0xFFFF) :
    execPanelIdSet h id lock s = .next (s.badField h 16) :=
  takes_badField ht rfl (by rw [hl]; rfl) (by rw [hid]; rfl)

theorem execPanelIdSet_done (hl : s.panel.idLock = false) (hid : id ≠ 0xFFFF) :
    execPanelIdSet h id lock s =
      .next ((s.onPanel fun p => { p with panelId := id, idLock := lock }).answer h stOk (bytesOf 2 id.toNat)) := by
  unfold execPanelIdSet
  rw [takes_done ht rfl (by rw [hl]; rfl) (by rw [firstBad_singleton]; exact if_neg (by simpa using hid))]
  dsimp only
  rw [State.writeId_open hl]
  rfl

end

/-! ### ROUTE_WRITE (R250) -/

section
variable {s : State} {h : Cmd} {addr : Reg64} {len : Word} (ht : s.takes h 0x0902)
include ht

theorem execRouteWrite_busy (hb : s.routesFree = false) :
    execRouteWrite h addr len s = .next (s.answer h stState) :=
  takes_refused ht rfl (by rw [hb]; rfl) (by decide)

theorem execRouteWrite_badLength (hb : s.routesFree = true) (hl : len.toNat % 8 ≠ 0) :
    execRouteWrite h addr len s = .next (s.badField h 24) :=
  takes_badField ht rfl (by rw [hb]; rfl) (by simp [firstBad_singleton, hl])

variable (hb : s.routesFree = true) (hl : len.toNat % 8 = 0)
include hb hl

theorem execRouteWrite_unreadable (hi : s.input h addr.toNat len.toNat = none) :
    execRouteWrite h addr len s = .next (s.answer h stHost) := by
  unfold execRouteWrite
  rw [takes_done ht rfl (by rw [hb]; rfl) (by simp [firstBad_singleton, hl])]
  dsimp only
  rw [hi]

/-- All the records are checked before any is kept. -/
theorem execRouteWrite_records {bs : List Byte} (hi : s.input h addr.toNat len.toNat = some bs) :
    execRouteWrite h addr len s = .next (if (pieces 8 bs.length bs).all s.routeOk = false then s.badField h 16
      else (s.onPanel fun p => (pieces 8 bs.length bs).foldl Panel.route p).answer h stOk
        (bytesOf 4 (pieces 8 bs.length bs).length)) := by
  unfold execRouteWrite
  rw [takes_done ht rfl (by rw [hb]; rfl) (by simp [firstBad_singleton, hl])]
  dsimp only
  rw [hi]

end

/-! ### GROUP_BIND and GROUP_UNBIND (R253, R426) -/

/-- A partition with another binding, or with none. -/
def Part.withBound (p : Part) (b : Option GroupBinding) : Part := { p with bound := b }

theorem State.part_congr {s t : State} (h : t.parts = s.parts) (n : Nat) : t.part n = s.part n := by
  unfold State.part
  rw [h]

theorem sealPort_parts_mem (group : BitVec 16) (secret : List Byte) (s : State) (n : Nat) :
    (sealPort group secret s n).parts = s.parts ∧ (sealPort group secret s n).mem = s.mem := by
  unfold sealPort
  split
  · exact ⟨rfl, rfl⟩
  · exact ⟨rfl, rfl⟩

/-- However many ports are rekeyed, the partitions and the panel's memory are as they were. -/
theorem foldl_sealPort_parts_mem (group : BitVec 16) (secret : List Byte) (l : List Nat) (s : State) :
    (l.foldl (sealPort group secret) s).parts = s.parts ∧ (l.foldl (sealPort group secret) s).mem = s.mem := by
  induction l generalizing s with
  | nil => exact ⟨rfl, rfl⟩
  | cons n l ih =>
    obtain ⟨parts, mem⟩ := sealPort_parts_mem group secret s n
    obtain ⟨parts', mem'⟩ := ih (sealPort group secret s n)
    exact ⟨parts'.trans parts, mem'.trans mem⟩

theorem State.bindGroup_answers (s : State) (h : Cmd) (b : GroupBinding) : ∃ (t : State) (detail : List Byte),
    s.bindGroup h b = t.answer h stOk detail ∧
    t.part h.part.toNat = (s.part h.part.toNat).withBound (some b) ∧ t.mem = s.mem ∧
    ((s.part h.part.toNat).secrets = none → t.ports = s.ports) := by
  unfold State.bindGroup
  dsimp only
  generalize bound : (s.onPart h.part.toNat fun p => { p with bound := some b }) = s1
  have part : s1.part h.part.toNat = (s.part h.part.toNat).withBound (some b) := by
    rw [← bound]
    exact State.part_setPart ..
  have mem : s1.mem = s.mem := by rw [← bound, State.onPart_mem]
  have ports : s1.ports = s.ports := by rw [← bound, State.onPart_ports]
  cases sealed : (s.part h.part.toNat).secrets with
  | none => exact ⟨s1, _, rfl, part, mem, fun _ => ports⟩
  | some k =>
    obtain ⟨parts, mem'⟩ := foldl_sealPort_parts_mem b.group k.linkSecret s1.routePorts s1
    exact ⟨_, _, rfl, (State.part_congr parts _).trans part, mem'.trans mem, nofun⟩

theorem not_badTree {tree : Bool} {bs : List Byte} (h : tree = false ∨ treeOk bs = true) :
    ¬ (tree = true ∧ treeOk bs = false) := by
  rintro ⟨rfl, bad⟩
  simp [bad] at h

theorem isSome_and_ne_some_iff {α : Type} [DecidableEq α] (o : Option α) (a : α) :
    (o.isSome && o != some a) = true ↔ ∃ b, o = some b ∧ b ≠ a := by
  cases o <;> simp

section
variable {s : State} {h : Cmd} {group epoch root : BitVec 16} {tree : Bool} {addr : Reg64} {len : Word}
  (ht : s.takes h 0x0903)
include ht

theorem execGroupBind_badLength (hl : len.toNat ≠ if tree = true then 64 else 0) :
    execGroupBind h group epoch root tree addr len s = .next (s.badField h 32) :=
  takes_badField ht rfl rfl (by simp [firstBad_singleton, hl])

variable (hl : len.toNat = if tree = true then 64 else 0)
include hl

theorem execGroupBind_unreadable (hi : (if tree = true then s.input h addr.toNat len.toNat else some []) = none) :
    execGroupBind h group epoch root tree addr len s = .next (s.answer h stHost) := by
  unfold execGroupBind
  rw [takes_done ht rfl rfl (by simp [firstBad_singleton, hl])]
  dsimp only
  rw [hi]

theorem execGroupBind_input {bs : List Byte}
    (hi : (if tree = true then s.input h addr.toNat len.toNat else some []) = some bs) :
    execGroupBind h group epoch root tree addr len s = .next (
      if tree = true ∧ treeOk bs = false then s.badField h 24
      else if (s.part h.part.toNat).secrets.isSome = true ∧
        (∃ q ∈ s.routePorts, ∃ g, (s.port q).sealedGroup = some g ∧ g ≠ group) then s.answer h stResources
      else s.bindGroup h ⟨group, epoch, root, bs⟩) := by
  unfold execGroupBind
  rw [takes_done ht rfl rfl (by simp [firstBad_singleton, hl])]
  dsimp only
  rw [hi]
  simp only [Bool.and_eq_true, List.any_eq_true, ← isSome_and_ne_some_iff]

end

/-- R426: the sealed keying that ends leaves an open partition's ports alone. -/
theorem State.endSealing_open {s : State} {n : Nat} (hs : (s.part n).secrets = none) : s.endSealing n = s := by
  unfold State.endSealing
  rw [hs]

theorem State.endSealing_parts_mem (s : State) (n : Nat) :
    (s.endSealing n).parts = s.parts ∧ (s.endSealing n).mem = s.mem := by
  unfold State.endSealing
  split
  · exact ⟨rfl, rfl⟩
  · exact ⟨rfl, rfl⟩

/-- The partition is as it was but for its binding; an open one loses nothing else. -/
theorem execGroupUnbind_done {s : State} {h : Cmd} (ht : s.takes h 0x0904) : ∃ t : State,
    execGroupUnbind h s = .next (t.answer h stOk) ∧
    t.part h.part.toNat = (s.part h.part.toNat).withBound none ∧ t.mem = s.mem ∧
    ((s.part h.part.toNat).secrets = none →
      t = s.setPart h.part.toNat ((s.part h.part.toNat).withBound none)) := by
  obtain ⟨parts, mem⟩ := s.endSealing_parts_mem h.part.toNat
  refine ⟨_, takes_done ht rfl rfl rfl, ?_, mem, fun hs => by rw [State.endSealing_open hs]; rfl⟩
  rw [← State.part_congr parts]
  exact State.part_setPart ..

/-! ### The ring (R261) -/

/-- Replies leave the ring and the panel's memory as they are. -/
theorem foldl_answer_ring_mem (st : BitVec 16) (l : List Cmd) (s : State) :
    (l.foldl (fun s h => s.answer h st) s).ring = s.ring ∧ (l.foldl (fun s h => s.answer h st) s).mem = s.mem := by
  induction l generalizing s with
  | nil => exact ⟨rfl, rfl⟩
  | cons h l ih => simpa using ih (s.answer h st)

theorem State.closeBypass_ring (s : State) :
    s.closeBypass.ring = { s.ring with state := 0, own := [], forwarded := [], joining := [] } :=
  (foldl_answer_ring_mem ..).1

theorem State.closeBypass_mem (s : State) : s.closeBypass.mem = s.mem :=
  (foldl_answer_ring_mem ..).2

/-- The heartbeat with which a panel that joins asks for a circuit. -/
def State.joinBeat (s : State) : RingMsg :=
  { origin := s.panel.panelId, seq := s.ring.seq, group := 0, epoch := 0, barrier := 0, gen := 0, sum := 0, reason := 0
    panels := 1, circuit := 0 }

theorem execRingJoin_done {s : State} {h : Cmd} (ht : s.takes h 0x0905) : execRingJoin h s =
    .next { s with ring := { s.ring with
      state := if s.ring.state = 2 then 2 else 1
      joining := s.ring.joining ++ [h], seq := s.ring.seq + 1, own := s.ring.own ++ [(.heartbeat, s.joinBeat)] } } :=
  takes_done ht rfl rfl rfl

theorem execRingJoinTimeout_waits {s : State} {h : Cmd} (hw : h ∈ s.ring.joining) : execRingJoinTimeout h s =
    .next (({ s with ring := { s.ring with state := 3, joining := eraseOne h s.ring.joining } }).answer h stOk) :=
  if_neg (by simp [hw])

theorem execRingJoinTimeout_gone {s : State} {h : Cmd} (hw : h ∉ s.ring.joining) :
    execRingJoinTimeout h s = .next s :=
  if_pos (by simp [hw])

theorem execRingLeave_done {s : State} {h : Cmd} (ht : s.takes h 0x0906) :
    execRingLeave h s = .next (s.closeBypass.answer h stOk) :=
  takes_done ht rfl rfl rfl

/-! ### SHADOW_BIND (R265, R432) -/

@[simp] theorem State.shadow_setShadow (s : State) (n : Nat) (x : Shadow) : (s.setShadow n x).shadow n = x :=
  tget_tset_same ..

theorem State.shadow_setShadow_other (s : State) {n q : Nat} (x : Shadow) (h : q ≠ n) :
    (s.setShadow n x).shadow q = s.shadow q :=
  tget_tset_other _ _ _ _ _ h

/-- A partition that is bound to no group can take no role, and a shadow has the shape of its primary. -/
def State.shadowWrong (s : State) (n : Nat) (role : BitVec 8) (peer : BitVec 16) (peerPart : BitVec 8) : Prop :=
  (role ≠ 0 ∧ (s.part n).bound = none) ∨
    (role = 2 ∧ Config.peerShape peer peerPart ≠ ((s.part n).rows, (s.part n).cols))

/-- The first of SHADOW_BIND's fields that is invalid. -/
def shadowField (role peerPart mirror : BitVec 8) : Option Nat :=
  firstBad [(decide (2 < role.toNat), 16), (role != 0 && decide (16 ≤ peerPart.toNat), 19),
    (role == 1 && decide (64 ≤ mirror.toNat), 20)]

theorem shadowField_role {role peerPart mirror : BitVec 8} (hr : 2 < role.toNat) :
    shadowField role peerPart mirror = some 16 := by
  simp [shadowField, firstBad, hr]

theorem shadowField_peerPart {role peerPart mirror : BitVec 8} (hr : role.toNat ≤ 2) (h0 : role ≠ 0)
    (hp : 16 ≤ peerPart.toNat) : shadowField role peerPart mirror = some 19 := by
  simpa [shadowField, firstBad, Nat.not_lt.2 hr, hp] using h0

theorem shadowField_mirror {role peerPart mirror : BitVec 8} (hr : role = 1) (hp : peerPart.toNat < 16)
    (hm : 64 ≤ mirror.toNat) : shadowField role peerPart mirror = some 20 := by
  subst hr
  simp [shadowField, firstBad, Nat.not_le.2 hp, hm]

theorem shadowField_eq_none {role peerPart mirror : BitVec 8} (hr : role = 1 ∨ role = 2) (hp : peerPart.toNat < 16)
    (hm : role = 1 → mirror.toNat < 64) : shadowField role peerPart mirror = none := by
  rcases hr with rfl | rfl
  · simp [shadowField, firstBad, hp, hm rfl]
  · simp [shadowField, firstBad, hp]

theorem shadowField_unbind (peerPart mirror : BitVec 8) : shadowField 0 peerPart mirror = none := by
  simp [shadowField, firstBad]

section
variable {s : State} {h : Cmd} {role peerPart mirror digest : BitVec 8} {peer : BitVec 16} (ht : s.takes h 0x0907)
include ht

theorem execShadowBind_wrong (hw : s.shadowWrong h.part.toNat role peer peerPart) :
    execShadowBind h role peer peerPart mirror digest s = .next (s.answer h stState) :=
  takes_refused ht rfl (if_pos (by simpa [State.shadowWrong] using hw)) (by decide)

variable (hw : ¬ s.shadowWrong h.part.toNat role peer peerPart)
include hw

theorem execShadowBind_badField {off : Nat} (hf : shadowField role peerPart mirror = some off) :
    execShadowBind h role peer peerPart mirror digest s = .next (s.badField h off) :=
  takes_badField ht rfl (if_neg (by simpa [State.shadowWrong] using hw)) hf

theorem execShadowBind_done (hf : shadowField role peerPart mirror = none) :
    execShadowBind h role peer peerPart mirror digest s = .next (({ s.setShadow h.part.toNat
      (if role = 0 then {} else
        { role := role.setWidth 2, peer, peerPart, mirrorPort := mirror, digestGroup := digest }) with
      shadowShown := h.part.toNat } : State).answer h stOk) :=
  takes_done ht rfl (if_neg (by simpa [State.shadowWrong] using hw)) hf

end

/-! ### PORT_READ -/

theorem execPortRead_done {s : State} {h : Cmd} {addr : Reg64} {len : Word} (ht : s.takes h 0x0908) :
    execPortRead h addr len s = .next (s.deliverBytes h addr len ((List.range 64).flatMap fun n =>
      bytesOf 8 (s.port n).reg.toNat ++ bytesOf 8 (s.port n).errReg.toNat)) :=
  takes_done ht rfl rfl rfl

end Sys2Proof.Machine
end

section
/-!
SUPPORT. The statement about the inter-panel commands.
-/

open Sys2Proof Sys2Proof.Machine

/-- Settles O42: each clause is the outcome of its command, read off for the operands that it names. -/
theorem linkCommandResults : Obligations.LinkCommandResults := by
  unfold Obligations.LinkCommandResults
  intro s h addr len n p bad
  refine ⟨fun id lock ht => ⟨execPanelIdSet_locked ht, execPanelIdSet_unset ht, execPanelIdSet_done ht⟩,
    fun ht => ⟨execRouteWrite_busy ht, execRouteWrite_badLength ht, execRouteWrite_unreadable ht,
      fun bs free whole read => ⟨fun wrong => ?_, fun good => ?_⟩⟩,
    fun group epoch root tree ht => ⟨execGroupBind_badLength ht, execGroupBind_unreadable ht,
      fun bs hl read => ⟨fun isTree wrong => ?_, fun good taken => ?_, fun good free => ?_⟩⟩,
    fun ht => ?_, fun ht => ⟨_, execRingJoin_done ht, rfl, rfl, rfl, s.joinBeat, rfl, rfl, rfl⟩,
    fun hw => ⟨_, execRingJoinTimeout_waits hw, rfl, rfl⟩, execRingJoinTimeout_gone, fun ht => ?_,
    fun role peer peerPart mirror digest ht => ⟨execShadowBind_wrong ht, fun right big => ?_,
      fun right small acts far => ?_, fun right first near beyond => ?_, fun right which near within => ?_,
      fun unbinds => ?_⟩,
    execPortRead_done⟩
  · exact (execRouteWrite_records ht free whole read).trans (congrArg _ (if_pos wrong))
  · exact (execRouteWrite_records ht free whole read).trans (congrArg _ (if_neg (by simp [good])))
  · exact (execGroupBind_input ht hl read).trans (congrArg _ (if_pos ⟨isTree, wrong⟩))
  · exact (execGroupBind_input ht hl read).trans (congrArg _ ((if_neg (not_badTree good)).trans (if_pos taken)))
  · obtain ⟨t, detail, e, part, mem, open_⟩ := s.bindGroup_answers h ⟨group, epoch, root, bs⟩
    refine ⟨t, detail, ?_, (congrArg Part.bound part :), (congrArg Part.state part :), mem, open_⟩
    exact (execGroupBind_input ht hl read).trans
      (congrArg _ ((if_neg (not_badTree good)).trans ((if_neg free).trans e)))
  · obtain ⟨t, e, part, mem, open_⟩ := execGroupUnbind_done ht
    exact ⟨t, e, (congrArg Part.bound part :), (congrArg Part.state part :), mem, open_⟩
  · refine ⟨_, execRingLeave_done ht, ?_, ?_, ?_, ?_⟩
    all_goals simp [State.closeBypass_ring, State.closeBypass_mem]
  · exact execShadowBind_badField ht right (shadowField_role big)
  · exact execShadowBind_badField ht right (shadowField_peerPart small acts far)
  · exact execShadowBind_badField ht right (shadowField_mirror first near beyond)
  · have acts : role ≠ 0 := by rcases which with rfl | rfl <;> decide
    refine ⟨_, execShadowBind_done ht right (shadowField_eq_none which near within), ?_, fun q hq => ?_, rfl⟩
    · exact (s.shadow_setShadow n _).trans (if_neg acts)
    · exact s.shadow_setShadow_other _ hq
  · subst unbinds
    refine ⟨_, execShadowBind_done ht (by simp [State.shadowWrong]) (shadowField_unbind ..), ?_, rfl⟩
    exact s.shadow_setShadow n {}
end
